-- ==== Sys2Proof/Word.lean ====
section
/-! DEFINITION. The words of the WRE-7160: widths the manual names, and the small enumerations every
chapter uses (00_scope R6, Table 0.4; 01 Table 1.1; 08 R251). -/

namespace Sys2Proof

/-- One byte of a structure in memory (R6: little-endian). -/
abbrev Byte := BitVec 8
/-- A 32-bit register or a binary32 encoding. -/
abbrev W32 := BitVec 32
/-- A 64-bit register pair or a binary64 encoding. -/
abbrev W64 := BitVec 64
/-- A Kerf-36 word (R333): data [31:0], poison [32], user bits [35:33], or a K36 value. -/
abbrev W36 := BitVec 36

/-- The two I/O dies (Table 1.1). -/
inductive Die where
  | west
  | east
  deriving DecidableEq, Repr

/-- The die number of register pages: 0 West, 1 East. -/
def Die.num : Die → Nat
  | .west => 0
  | .east => 1

/-- The two functions of a PCIe port (Table 8.2). -/
inductive FnKind where
  | pf0
  | tenant
  deriving DecidableEq, Repr

/-- Who issued a command entry (R373): the PF0 queue of a port, the PF0 mailbox of a port, the command
queue of a slice page, or the sideband endpoint of a Scaler. -/
inductive Issuer where
  | pf0 (port : Nat)
  | mbox (port : Nat)
  | page (slice : Nat)
  | side (die : Die)
  deriving DecidableEq, Repr

/-- The path a register access takes: BAR0 of PF0 of a port, the page of a slice in BAR2 of a function of a port
(R255), or the Expansion ROM BAR of a function (R258). -/
inductive Via where
  | bar0 (port : Nat)
  | page (port : Nat) (kind : FnKind) (slice : Nat)
  | rom (port : Nat) (kind : FnKind)
  deriving DecidableEq, Repr

/-- Fault classes (R428). -/
inductive FClass where
  | corrected
  | contained
  | fatal
  deriving DecidableEq, Repr

/-- The code of a fault class in records and in FLT_FORCE_CLASS (R428). -/
def FClass.code : FClass → Nat
  | .corrected => 1
  | .contained => 2
  | .fatal => 3

end Sys2Proof
end

