-- ==== Sys2Proof/Config.lean ====
section
/-! DEFINITION. What an implementation fixes and the manual leaves open: constants WITHOUT a body. Nothing
in Lean can evaluate them, so every statement holds for every value (see notes/assumptions). -/

namespace Sys2Proof.Config

/-- A fresh open value of 64 bits, applied to `State.freeCtr` (DESIGN CHOICE, log 3). -/
opaque freeWord : Nat → BitVec 64
/-- A byte of an NVMe Identify or log page that Table 9.1 does not give, by page × 65,536 + offset (DESIGN CHOICE, log 28). -/
opaque nvmeByte : Nat → BitVec 8
/-- A value drawn from the DRBG (R407): challenges, salts, generated keys (DESIGN CHOICE, log 3). -/
opaque drbg : Nat → BitVec 128
/-- A 256-bit key drawn from the DRBG (DESIGN CHOICE, log 3). -/
opaque drbgKey : Nat → BitVec 256
/-- The 256-bit seed that the PUF of West's Bark yields with the helper data of the device certificate (R385) (DESIGN CHOICE,
log 5). -/
opaque puf : BitVec 256
/-- An ECDSA P-256 signature by a private key over a message (R390), whose random number is the signer's (DESIGN CHOICE,
log 5). -/
opaque sign : Nat → List Byte → BitVec 512
/-- The value of a register field whose reset value is 'from image', 'from test' or 'cause', in a device of
which no image has been applied: (offset, low bit) to value (DESIGN CHOICE, log 6). -/
opaque imageField : Nat → Nat → Nat

/-- The export master secret of an SPDM session (R400), by peer node and session number (DESIGN CHOICE, log 5). -/
opaque exportSecret : Nat → Nat → BitVec 256
/-- SHA-256 of the certificate chain of slot 0 (Table 13.3), which no section of the manual spells out (DESIGN CHOICE, log 5). -/
opaque chainDigest : BitVec 256
/-- SHA-256 of the ROM, of which measurement index 1 is made (R388) (DESIGN CHOICE, log 5). -/
opaque romDigest : BitVec 256
/-- The state layout version of the handoff block that ROM 7.0 writes without an extension (R380; DESIGN CHOICE, log 43). -/
opaque romLayout : BitVec 16
/-- The CODE of a fault record where the rule that raises it states none: by fault source (DESIGN CHOICE, log 10). -/
opaque openCode : Nat → Nat
/-- The 16 B INFO of a fault record, source detail that no rule lays out: by source and sequence number
(DESIGN CHOICE, log 10). -/
opaque faultInfo : Nat → Nat → Nat
/-- The counted event that an event number of this stepping names, where chapter 15 assigns none to the
number: an item number of this model (DESIGN CHOICE, log 11). -/
opaque eventItem : Nat → Option Nat
/-- The first EID of the pool that the ENDPOINT section gives a PCIe port (DESIGN CHOICE, log 6). -/
opaque eidPool : Nat → Nat
/-- The MAC address, the IPv4 and the IPv6 address of an Ethernet port, by first lane; the hop limit of the device's
packets; and the identification of an IPv4 packet or the flow label of an IPv6 packet, by queue pair and PSN: no rule gives
them (DESIGN CHOICE, log 67). -/
opaque portMac : Nat → BitVec 48
opaque portIp4 : Nat → BitVec 32
opaque portIp6 : Nat → BitVec 128
opaque hopLimit : BitVec 8
opaque ipFree : Nat → Nat → BitVec 32
/-- The traffic class byte and the queue priority of a telemetry datagram, and its identification or flow label by collector and
DGRAM_SEQ: no rule gives them (DESIGN CHOICE, log 42). -/
opaque telClass : BitVec 8
opaque telPrio : BitVec 3
opaque telFree : Nat → Nat → BitVec 32
/-- WR_ID of an entry whose ring address is not in the windows of its slice, so that it could not be read: by queue pair and
ring index (DESIGN CHOICE, log 68). -/
opaque lostWrId : Nat → Nat → BitVec 64
/-- The MCTP endpoint ID of the Scaler of a die, from the ENDPOINT section (DESIGN CHOICE, log 6). -/
opaque scalerEid : Nat → Nat
/-- Plaintext bytes of the captures and tracked state of a checkpoint, whose layout inside a section no rule gives: by
sequence number, chunk and byte (DESIGN CHOICE, log 29). -/
opaque chunkByte : Nat → Nat → Nat → BitVec 8
/-- Chunks that the captures of a checkpoint take, by sequence number (DESIGN CHOICE, log 29). -/
opaque captureChunks : Nat → Nat
/-- Units that section 0x0009 of a checkpoint with poisoned chunks takes, by sequence number (DESIGN CHOICE, log 29). -/
opaque poisonUnits : Nat → Nat

/-- The bytes of a directory entry of a type, at a generation of the directory (R259, DESIGN CHOICE, log 33): the manual names what
they hold, and lays out only the header, the entries and type 5. -/
opaque dirBody : Nat → Nat → List (BitVec 8)
/-- The device certificate of a configuration image, by the image's digest: the first one of its CERTS section (R387, Table 12.2)
(DESIGN CHOICE, log 5). -/
opaque deviceCert : BitVec 256 → List (BitVec 8)

end Sys2Proof.Config
end

