-- ==== Sys2Proof/Machine/Parts/Reg.lean ====
section
/-! DEFINITION. What a register field is (R11 to R14), and how the values of fields are kept. -/

namespace Sys2Proof.Machine

/-- Access codes (Table 0.5). -/
inductive Acc where
  | rw
  | ro
  | w1c
  | w1s
  | wo
  | rc
  | rwl
  deriving DecidableEq, Repr

/-- Retention classes (Table 0.6). -/
inductive Kept where
  | c
  | w
  | h
  | f
  | s
  | n
  deriving DecidableEq, Repr

/-- Reset kinds in their order of severity (R14). -/
inductive ResetKind where
  | slice
  | function
  | hot
  | warm
  | cold
  deriving DecidableEq, Repr

/-- How severe a reset kind is: slice 1 to cold 5 (R14). -/
def ResetKind.level : ResetKind → Nat
  | .slice => 1
  | .function => 2
  | .hot => 3
  | .warm => 4
  | .cold => 5

/-- The mildest reset kind that resets an item of the class (Table 0.6). -/
def Kept.level : Kept → Nat
  | .c => 5
  | .w => 4
  | .h => 3
  | .f => 2
  | .s => 1
  | .n => 0

/-- The reset column: a value, or where the value comes from. -/
inductive Rst where
  | val (n : Nat)
  | image
  | test
  | perPort
  | idxHalf
  | excRate
  | class7
  deriving DecidableEq, Repr

/-- A register field: the offset of its register (of the low word of a pair), whether the register is a
64-bit pair, its low bit and width, access code, reset value and retention class. -/
structure Fld where
  off : Nat
  pair : Bool
  lo : Nat
  w : Nat
  acc : Acc
  rst : Rst
  kept : Kept
  deriving DecidableEq, Repr

/-- A row of the register tables: a field that stands `count` times, `stride` bytes apart. -/
structure Row where
  fld : Fld
  count : Nat
  stride : Nat
  deriving DecidableEq, Repr

/-- The value of one field in one instance (manager function, selected item, or 0), with its class. -/
structure RegEnt where
  val : Nat
  inst : Nat
  kept : Kept
  deriving DecidableEq, Repr

/-- A table of values by number, in rising order of the number. -/
abbrev Tbl (α : Type) := List (Nat × α)

end Sys2Proof.Machine
end

