-- ==== Sys2Proof/Machine/Parts/Kerf.lean ====
section
/-! DEFINITION. State of the Kerf-36 cores and their sync counters (11_kerf_cores). -/

namespace Sys2Proof.Machine

/-- What a core is doing (KRF_CORE_STATE). -/
inductive RunState where
  | off
  | running
  /-- Blocked in a WAITC or WAITO. -/
  | waitSync
  /-- Blocked in a WFI. -/
  | waitIrq
  | halted
  /-- Halted by BREAK with KRF_CORE_CTRL.DEBUG (R343). -/
  | debug
  | restarting
  | crashed
  deriving DecidableEq, Repr

/-- The code of KRF_CORE_STATE.STATE. -/
def RunState.code : RunState → Nat
  | .off => 0
  | .running => 1
  | .waitSync => 2
  | .waitIrq => 2
  | .halted => 3
  | .debug => 3
  | .restarting => 4
  | .crashed => 5

/-- A waiter of a counter (R346): number 0 to 3, observing or consuming, and its threshold. -/
structure Waiter where
  num : Nat
  observing : Bool
  t : Nat
  deriving DecidableEq, Repr

/-- A sync counter (R345 to R347): its waiters stand in the order in which they began waiting. -/
structure SyncCtr where
  count : Nat
  satHi : Bool
  satLo : Bool
  waits : List Waiter
  lastSig : W64
  deriving DecidableEq, Repr

/-- A fabric segment (R337). -/
structure Seg where
  base : W64
  limit : W32
  attr : Nat
  deriving DecidableEq, Repr

/-- A queued ISSUE descriptor (R351): its sixteen words, whether its WAIT has been released, and the plan's step number
latched at ISSUE (R78). -/
structure QOp where
  words : List W32
  released : Bool
  step : W64
  deriving DecidableEq, Repr

/-- A repeat prefix in force (R339). -/
structure RepPrefix where
  repx : Bool
  left : Nat
  deriving DecidableEq, Repr

/-- What a sequencer core's program is (R352). -/
inductive Job where
  | none_
  | step (slot : Nat)
  | opt (slot group : Nat)
  deriving DecidableEq, Repr

/-- A Kerf-36 core (R333 to R344, Table 11.6). -/
structure Core where
  state : RunState
  /-- k1 to k31 by number. -/
  regs : Tbl W36
  pc : Nat
  /-- Parcels of the wait in which the core is blocked: the program counter passes them at the release (R349). -/
  waitLen : Nat
  ie : Bool
  exl : Bool
  rep : Bool
  sate : Bool
  smpe : Bool
  epc : W32
  ecause : W32
  eval : W32
  evalh : W32
  evec : W32
  repcnt : W32
  /-- High words latched by reads of CYCLE_LO and RING_LO. -/
  cycleHi : W32
  ringHi : W32
  segs : Tbl Seg
  crcSel : Nat
  crcPoison : Bool
  crcRun : W64
  srSeed : W64
  srStream : Nat
  srIndex : Nat
  smpEvent : Nat
  /-- Local memory by word address; an unlisted word is 0. -/
  mem : Tbl W36
  ctrs : Tbl SyncCtr
  /-- Queues of the array (0), vector unit (1) and DMA (2). -/
  queues : Tbl (List QOp)
  /-- Exceptions taken, saturating. -/
  exc : Nat
  pre : Option RepPrefix
  /-- The repetition that EPC names belongs to a REPX (R340). -/
  savedRepx : Bool
  logical : Nat
  job : Job
  /-- A counter saturated, and SYNC_SAT waits for a boundary. -/
  satPend : Option Nat
  smpPend : Bool
  mboxPend : Bool
  deriving DecidableEq, Repr

/-- The Kerf-36 cores. -/
structure Kerf where
  cores : Tbl Core
  /-- Next sequence number of the dump records of each core (R354). -/
  dumpSeq : Tbl Nat
  /-- Contexts that firmware processors saved, by core (R378). -/
  saved : Tbl Core
  deriving DecidableEq, Repr

end Sys2Proof.Machine
end

