-- ==== Sys2Proof/Machine/Parts/Mem.lean ====
section
/-! DEFINITION. State of the memories (05_memory). -/

namespace Sys2Proof.Machine

/-- A soft remap entry of a channel (R171, R172). -/
structure Remap where
  row : Nat
  fromList : Bool
  /-- The copy to the spare row is not done yet. -/
  copying : Bool
  deriving DecidableEq, Repr

/-- A run of pages or banks: first, count. -/
abbrev Run := Nat × Nat

/-- The memories inside the package. -/
structure Mem where
  /-- Bytes by fabric address (R161), strictly rising, no entry equal to the byte of an unlisted address. -/
  cells : List Host.Cell
  /-- Granules (address / 64) with the POISON mark (R164), strictly rising. -/
  poison : List Nat
  /-- Soft remap table of each channel, entry by entry. -/
  remap : Tbl (List Remap)
  /-- (channel or 16 + die, row or granule) with a corrected or, for SRAM banks, an uncorrected error on an
  earlier scrub pass, with that pass's number (R171, R177). -/
  suspects : List (Nat × Nat × Nat)
  /-- TCLK count at which the current hour of each channel's count began. -/
  hourStart : Tbl Nat
  /-- Passes and position of the patrol scrubber: LPDDR5X, then SRAM (R170). -/
  passLp : Nat
  posLp : Nat
  passSr : Nat
  posSr : Nat
  /-- Pages of the slice pool in use: slice, use (plan slot, 100 for regions, 256 + volume), run. -/
  owned : List (Nat × Nat × Run)
  /-- Released slice-pool pages not yet zeroed, as runs (R167). -/
  dirty : List Run
  /-- SRAM banks to retire at the next cold reset: (MEM_SRAM_AVAIL index, bank) (R177). -/
  retire : List (Nat × Nat)
  /-- Rows repaired by post-package repair since the device was made: (channel, row) (R172). -/
  ppr : List (Nat × Nat)
  deriving DecidableEq, Repr

end Sys2Proof.Machine
end

