-- ==== Sys2Proof/Machine/Parts/Num.lean ====
section
/-! DEFINITION. The types of number-format arithmetic (02_number_formats). -/

namespace Sys2Proof.Machine

/-- A value of a format: NaN (signalling, and the K36 poison NaN of R54), infinity, or the exact dyadic
(−1)^neg × mant × 2^exp. -/
inductive FVal where
  | nan (signalling : Bool) (poison : Bool)
  | inf (neg : Bool)
  | fin (neg : Bool) (mant : Nat) (exp : Int)
  deriving DecidableEq, Repr

/-- A rounded-to-come result: a value, and whether non-zero bits lie below its last one. -/
structure Exact where
  val : FVal
  sticky : Bool
  deriving DecidableEq, Repr

/-- Rounding modes (Table 2.3); the stochastic one carries its 16-bit random value (R64). -/
inductive Round where
  | rne
  | rz
  | sr (r : Nat)
  deriving DecidableEq, Repr

/-- The counted numeric events of R78. -/
structure Events where
  sat : Nat
  inf : Nat
  nan : Nat
  nanGrp : Nat
  nanLost : Nat
  invalid : Nat
  deriving DecidableEq, Repr

/-- A floating-point format (Table 2.1): exponent and fraction bits, bias, whether it has infinities, and the
magnitude code of its largest finite value (Table 2.2). -/
structure FloatFmt where
  eb : Nat
  mb : Nat
  bias : Nat
  hasInf : Bool
  hasNan : Bool
  maxCode : Nat
  nanCode : Nat
  deriving DecidableEq, Repr

/-- The kinds of format codes. -/
inductive Fmt where
  | flt (f : FloatFmt)
  | int (bits : Nat)
  | e8m0
  | ue4m3
  deriving DecidableEq, Repr

/-- A format descriptor (Table 2.3), field by field. -/
structure Desc where
  elem : Nat
  scaled : Bool
  scale : Bool
  round : Nat
  ovf : Bool
  reservedOk : Bool
  deriving DecidableEq, Repr

end Sys2Proof.Machine
end

