-- ==== Sys2Proof/Payload.lean ====
section
/-! DEFINITION. What arrives with a command from outside the device: entries as fetched, tensors as read,
packets and frames as received. Data that stands outside the device (host and accelerator memory, the
wire, a target, the flash) is an operand of the command that brings it in (DESIGN CHOICE, log 2). -/

namespace Sys2Proof

/-! ### Command entries (12_firmware_commands) -/

/-- A 64 B submission entry (Table 12.5) of an opcode of Table 12.8, with the issuer of its queue. -/
structure Cmd where
  iss : Issuer
  version : BitVec 16
  tag : BitVec 16
  flags : BitVec 16
  slice : Nat
  w0 : W64
  w1 : W64
  w2 : W64
  w3 : W64
  w4 : W64
  w5 : W64
  deriving DecidableEq, Repr

/-- One entry as the fetch of a ring delivers it (R373): failed, or intact with its opcode. -/
inductive Fetch where
  | failed
  | entry (opcode : BitVec 16) (tag : BitVec 16) (flags : BitVec 16)
  deriving DecidableEq, Repr

/-! ### Tensors (02_number_formats) -/

/-- One scaled group: its scale byte and its elements, as encodings (R68, R72). -/
structure Group where
  scale : Byte
  elems : List Byte
  deriving DecidableEq, Repr

/-- Elements as read or as sent: each element alone, or scaled groups under super-scales (R72); a super-block
without a super-scale stands for E8M0 groups. -/
inductive Tensor where
  | plain (es : List W64)
  | scaled (sbs : List (Option Byte × List Group))
  deriving DecidableEq, Repr

/-- A tensor with the poison marks of its elements (R126); a missing mark is clear. -/
structure Marked where
  data : Tensor
  poison : List Bool
  deriving DecidableEq, Repr

/-- What the device read of an accelerator's part of a stream: the accelerator, the bytes as read, and the marks of the
64 B granules that they touch in order (R126); a missing mark is clear. -/
structure PartRead where
  acc : Nat
  bytes : List Byte
  marks : List Bool
  deriving DecidableEq, Repr

/-! ### Collective messages (04_collectives) -/

/-- The 32 B header of a collective message (Table 4.5) and its body. -/
structure CollMsg where
  version : BitVec 16
  level : Nat
  planId : BitVec 16
  digest3 : BitVec 24
  slice : Nat
  origin : Nat
  step : W64
  stream : Nat
  tscale : W32
  first : Nat
  body : Marked
  deriving DecidableEq, Repr

/-- One rank's values of a scalar exchange (R138): the sum of squares, the non-finite count, and the largest
magnitude per stream of kind 3. -/
structure Scalars where
  sumsq : W64
  nonfinite : Nat
  maxima : List (Nat × W32)
  deriving DecidableEq, Repr

/-- One rank's values of the start exchange (R159). -/
structure StartVal where
  rank : Nat
  step : W64
  begun : Bool
  applied : Bool
  digest3 : BitVec 24
  deriving DecidableEq, Repr

/-- The body of an ABORT (R156). -/
structure AbortMsg where
  version : BitVec 16
  planId : BitVec 16
  digest3 : BitVec 24
  slice : Nat
  origin : Nat
  step : W64
  failed : Nat
  reason : Nat
  stamp : W64
  deriving DecidableEq, Repr

/-! ### Embedding descriptors (04 Table 4.11) -/

/-- An embedding descriptor (Table 4.11) with what its addresses held when it was fetched: bag boundaries, row
indices, weights, DATA vectors as encodings of FMT, and the ARGMAX array per bag. -/
structure EmbDesc where
  op : Nat
  pool : Nat
  table : Nat
  bags : Nat
  fmt : Nat
  argmax : Bool
  tag : BitVec 16
  offsets : List Nat
  indices : List Nat
  weights : List W32
  data : List (List W32)
  argmaxIn : List (List Nat)
  offsetsAddr : Nat
  indexAddr : Nat
  weightsAddr : Nat
  dataAddr : Nat
  argmaxAddr : Nat
  reservedOk : Bool
  deriving DecidableEq, Repr

/-- The body of EMB_REQ, EMB_RESP and EMB_UPD (R149, R151, R153) between a requesting device and the owner of
rows: the descriptor's accelerator, tag, OP and POOL, the table, per bag the (position, row) pairs with their
weights, and the vectors that it carries as encodings with, for a maximum, positions and, per bag, valid rows, and the
poison mark of each vector, a missing one clear. -/
structure EmbPart where
  acc : Nat
  tag : BitVec 16
  op : Nat
  pool : Nat
  table : Nat
  rows : List (List (Nat × Nat))
  weights : List (List W32)
  vals : List (List W32)
  args : List (List Nat)
  counts : List Nat
  marks : List Bool
  deriving DecidableEq, Repr

/-! ### Skid packets (06_skid_transport) -/

/-- A send work queue entry (Table 6.2); its reserved bits, taken together, are 0 when all of them are. -/
structure Wqe where
  opcode : Nat
  signaled : Bool
  fence : Bool
  disarmed : Bool
  persist : Bool
  solicited : Bool
  reserved : Nat
  imm : W32
  wrId : W64
  laddr : Nat
  len : Nat
  rkey : W32
  raddr : Nat
  op1 : W64
  op2 : W64
  trigName : W32
  trigCount : Nat
  deriving DecidableEq, Repr

/-- The opcodes of Table 6.2; others are reserved. -/
def wqeOpcodes : List Nat := [0x00, 0x01, 0x08, 0x09, 0x10, 0x18, 0x19, 0x1A, 0x20, 0x30, 0x31]

/-- What the device read over PCIe: whether the request was translated and answered, the bytes and the granule marks. -/
structure SrcData where
  ok : Bool
  bytes : List Byte
  poison : List Bool
  deriving DecidableEq, Repr

/-- What every received Skid packet carries (R194): the die that it came to and the slice that Bucker gave it; its bytes from
the DMAC to the UDP header, its BTH, its SXH (none in standard mode), the AETH of an opcode that has one (an acknowledgement and a
report bring theirs beside it), its ICV and ICRC. -/
structure PktHdr where
  die : Die
  slice : Nat
  net : List Byte
  bth : List Byte
  sxh : List Byte
  aeth : W32
  icv : List Byte
  icrc : List Byte
  deriving DecidableEq, Repr

/-- A RETH: remote address, key and length. -/
structure Reth where
  va : Nat
  rkey : W32
  len : Nat
  deriving DecidableEq, Repr

/-- A SEND or WRITE packet, opened: the extension headers count where its opcode has them, the marks of the PXH where the
SXH says that it follows. -/
structure DataPkt where
  hdr : PktHdr
  reth : Reth
  immData : W32
  qkey : W32
  srcQp : Nat
  payload : List Byte
  poison : List Bool
  deriving DecidableEq, Repr

/-- A READ, atomic, ATOMIC WRITE or FLUSH request, with what the device read at a region behind PCIe: for an
AtomicOp the original value, and `ok` false when the completer does not support it. -/
structure ReqPkt where
  hdr : PktHdr
  mem : SrcData
  va : Nat
  rkey : W32
  len : Nat
  a : W64
  b : W64
  deriving DecidableEq, Repr

/-- The atomic operations of R206. -/
inductive AtomicOp where
  | cmpSwap
  | fetchAdd
  | write
  deriving DecidableEq, Repr

/-- The answers of a responder (R182, R187, R206). -/
inductive NakKind where
  | seqErr
  | rnr
  | remAccess
  | remInv
  | remOp
  deriving DecidableEq, Repr

/-- A received Skid packet of any kind, as a miss chain keeps it (R192). -/
inductive RxPkt where
  | data (p : DataPkt)
  | read (p : ReqPkt)
  | atomic (op : AtomicOp) (p : ReqPkt)
  | flush (p : ReqPkt) (persist : Bool)
  | sack (h : PktHdr) (ranges : List (Nat × Nat))
  | nak (h : PktHdr)
  | readResp (h : PktHdr) (payload : List Byte) (poison : List Bool)
  | atomicResp (h : PktHdr) (orig : W64)
  | cnp (h : PktHdr)
  | report (h : PktHdr)
  deriving DecidableEq, Repr

/-- A receive queue entry (R185). -/
structure Rqe where
  wrId : W64
  addr : Nat
  len : Nat
  deriving DecidableEq, Repr

/-- The outcome of a context fetch (R191, R193). -/
inductive CtxFetch where
  | entry (bytes : List Byte)
  | failed
  deriving DecidableEq, Repr

/-! ### Frames (07_packet_path) -/

/-- An Ethernet frame without its FCS, and whether the FCS was good (Table 7.1). -/
structure Frame where
  bytes : List Byte
  fcsOk : Bool
  deriving DecidableEq, Repr

/-! ### PCIe (08_host_endpoint) -/

/-- A configuration write that the device acts on (R252, R262, R264 to R266). -/
inductive CfgWrite where
  | tagWidth (bits : Nat)
  | ctoRange (enc : BitVec 4)
  | maxPayload (bytes : Nat)
  | maxRead (bytes : Nat)
  | relaxedOrdering (on : Bool)
  | ats (on : Bool)
  deriving DecidableEq, Repr

/-- The status of a received completion (R268). -/
inductive CplStatus where
  | success
  | unsupported
  | abort
  deriving DecidableEq, Repr

/-- Malformed TLP, ECRC and flit errors of the link (Table 8.9). -/
inductive TlpError where
  | malformed
  | ecrc
  | flit
  deriving DecidableEq, Repr

/-! ### NVMe (09_storage) -/

/-- The data of one logical block. -/
abbrev Block := List Byte

/-- An I/O command as fetched, with the checks its fetch made, the memory its data pointer names as (address,
length) pieces in order, and the data it carries. -/
structure NvmeIo where
  /-- The opcode of the entry: that of the row, or one that Table 9.1 does not list. -/
  opcode : Nat
  cid : BitVec 16
  nsid : Nat
  slba : Nat
  nlb : Nat
  fieldsOk : Bool
  poisoned : Bool
  segs : List (Nat × Nat)
  data : List Block
  deriving DecidableEq, Repr

/-- An admin command as fetched: SQE words CDW10 to CDW12, and the memory that its data pointer names. -/
structure NvmeAdmin where
  /-- The opcode of the entry: that of the row, or one that Table 9.1 does not list. -/
  opcode : Nat
  cid : BitVec 16
  nsid : Nat
  segs : List (Nat × Nat)
  cdw10 : W32
  cdw11 : W32
  cdw12 : W32
  deriving DecidableEq, Repr

/-- An extent as a target returns it: the 64 encrypted blocks and, per block, the trailer's counter and tag
(Table 9.2). -/
structure ExtentData where
  blocks : List (Block × Nat × List Byte)
  deriving DecidableEq, Repr

/-- A volume descriptor (Table 9.3) as fetched. -/
structure VolDesc where
  version : BitVec 16
  volume : Nat
  slice : Nat
  nsid : Nat
  die : Die
  force : Bool
  ro : Bool
  units : Nat
  cachePages : Nat
  keyData : Nat
  keyTag : Nat
  mapAh : Nat
  mapRkey : W32
  mapAddr : Nat
  targets : List (Nat × Nat × Nat)
  reservedOk : Bool
  deriving DecidableEq, Repr

/-- A map entry (R289). -/
structure MapEntry where
  ext : Nat
  tgt : Nat
  valid : Bool
  gen : Nat
  deriving DecidableEq, Repr

/-- What VOL_ATTACH finds at the map store (R295): whether map store and targets answer, the owner word and
the map, and the number of extents of each target. -/
structure AttachData where
  reachable : Bool
  owner : W64
  map : List MapEntry
  extents : List Nat
  deriving DecidableEq, Repr

/-! ### Cord (10_checkpoint) -/

/-- A commit record (Table 10.3) as read: its fields, and whether its tag verified. -/
structure CommitRec where
  state : Nat
  node : Nat
  seq : Nat
  tagOk : Bool
  dirDigest : BitVec 256
  chunks : Nat
  /-- CUT_STAMP of the record. -/
  cut : Nat
  deriving DecidableEq, Repr

/-- A region of a CKPT_REGIONS or restore table (R311). -/
structure CkptRegion where
  slice : Nat
  port : Nat
  addr : Nat
  bytes : Nat
  reservedOk : Bool
  deriving DecidableEq, Repr

/-- Failure warnings (Table 10.2). -/
inductive WarnKind where
  | ceRate
  | supply
  | fec
  | thermal
  deriving DecidableEq, Repr

/-! ### Memory (05) -/

/-- A unit of memory that reports errors: a channel of LPDDR5X, or an SRAM by MEM_SRAM_AVAIL index. -/
inductive MemUnit where
  | chan (c : Nat)
  | sram (m : Nat)
  deriving DecidableEq, Repr

/-- What a scrub read finds (R170). -/
inductive ScrubResult where
  | clean
  | corrected
  | uncorrected
  deriving DecidableEq, Repr

/-- What a dequeue from Boom finds in the words of a frame (R239); for an error in a link, how many cells of the
queue no list reaches any longer. -/
inductive BoomEcc where
  | clean
  | corrected
  | dataUe
  | linkUe (lost : Nat)
  deriving DecidableEq, Repr

/-! ### Images (12) -/

/-- What of a firmware image runs on a core (Table 12.4): version, handoff layout, entry, code words, digest. -/
structure FwCode where
  imageVer : W32
  layout : BitVec 16
  entry : Nat
  code : List W36
  digest : BitVec 256
  deriving DecidableEq, Repr

/-- A configuration image (R358 to R361): the verdicts on its signature and CERTS chain, what its header says, the
section type that fails its consistency check (0 for none), and what its sections set. -/
structure CfgImage where
  seq : Nat
  sigOk : Bool
  chainOk : Bool
  version : BitVec 16
  minRom : BitVec 16
  badSection : Nat
  digest : BitVec 256
  policyDigest : BitVec 256
  node : BitVec 16
  sparing : Bool
  stagingGib : Nat
  scrubLp : Nat
  scrubSr : Nat
  ceiling : Nat
  /-- The clock ceiling of the compute dies, in MHz. -/
  mclkMax : Nat
  uvWarn : Nat
  seeds : List W32
  groups : List Nat
  txInv : W32
  rxInv : W32
  retireW : BitVec 18
  retireE : BitVec 18
  repairs : List (Nat × Nat)
  /-- Image slices: opcode and parameters of SLICE_BIND, SLICE_QUOTA and SLICE_WINDOW. -/
  slices : List (Nat × Cmd)
  signedPlans : Bool
  operatorImages : Bool
  scalerExt : Option FwCode
  /-- Reset values of further fields: register offset, low bit and value. -/
  fields : List (Nat × Nat × Nat)
  deriving DecidableEq, Repr

/-- A firmware image as IMAGE_LOAD reads it (Table 12.4), with the verdict on its signature; a configuration image is
kind 4. -/
structure FwImage where
  kind : Nat
  signer : Nat
  version : BitVec 16
  minRom : BitVec 16
  sigOk : Bool
  body : FwCode
  cfg : Option CfgImage
  deriving DecidableEq, Repr

/-! ### Bark (13) -/

/-- A wrapped key blob (Table 13.5) as read, with the verdicts on its signature and its wrap and the fields
the wrap carried. -/
structure KeyBlob where
  use : Nat
  signer : Nat
  slot : Nat
  limit : Nat
  challenge : BitVec 128
  sigOk : Bool
  wrapOk : Bool
  upperZero : Bool
  version : BitVec 16
  reservedOk : Bool
  key : BitVec 512
  salt : BitVec 48
  start : Nat
  deriving DecidableEq, Repr

/-- The transports of SPDM (Table 13.3). -/
inductive SpdmVia where
  | doe (port : Nat)
  | mctp (die : Die)
  | peer (node : Nat)
  deriving DecidableEq, Repr

/-- A cipher request (Table 13.6). -/
structure CipherReq where
  version : BitVec 16
  doneEn : Bool
  slot : Nat
  doneCore : Nat
  doneCtr : Nat
  src : Nat
  dst : Nat
  len : Nat
  aadLen : Nat
  iv : List Byte
  tweak : BitVec 128
  mismatch : Nat
  deriving DecidableEq, Repr

/-- What a verifier of a peer finds in the handshake of R399. -/
structure PeerCheck where
  chainOk : Bool
  policyOk : Bool
  nodeOk : Bool
  targetOk : Bool
  versions : List (BitVec 16)
  qpn : Nat
  peerSlot : Nat
  deriving DecidableEq, Repr

/-- The steps of a peer's answers to SESSION_OPEN (R399). -/
inductive SpdmResp where
  | version
  | capabilities
  | algorithms
  | vendorDefined (ok : Bool)
  | digests
  | certificate
  | measurements
  | keyExchange
  | finish (chk : PeerCheck)
  | error
  deriving DecidableEq, Repr

end Sys2Proof
end

