-- ==== Sys2Proof/Machine/Parts/Scaler.lean ====
section
/-! DEFINITION. State of the Scalers: command queues, boot, lease, images and the sideband update agent
(12_firmware_commands). -/

namespace Sys2Proof.Machine

/-- A completion entry (Table 12.6) less its phase, which the ring gives it. -/
structure Cpl where
  opcode : Nat
  tag : BitVec 16
  status : Nat
  reason : Nat
  final : Bool
  result : List Byte
  deriving DecidableEq, Repr

/-- An entry as fetched that has not started: its ring index and what the fetch delivered (R373). -/
structure Waiting where
  index : Nat
  fetch : Fetch
  deriving DecidableEq, Repr

/-- The state of a pair of command rings that is not in its registers (R373, R375, R383). -/
structure CmdRing where
  /-- Enables counted, so that a completion owed for an earlier enable is recognised. -/
  gen : Nat
  fetchPos : Nat
  writePos : Nat
  waiting : List Waiting
  /-- Completions held until the head index advances, oldest first, with their NO_IRQ flag. -/
  held : List (Cpl × Bool)
  deriving DecidableEq, Repr

/-- The command to which a DEFERRED completion is owed its final one. -/
structure Owner where
  iss : Issuer
  opcode : Nat
  tag : BitVec 16
  noIrq : Bool
  gen : Nat
  deriving DecidableEq, Repr

/-- Boot stages (Table 12.3). -/
inductive Boot where
  | reset
  | sramTest
  | imageRead
  | verify
  | apply
  | hostWait
  | running
  | hold
  deriving DecidableEq, Repr

/-- The code of a boot stage (Table 12.3). -/
def Boot.code : Boot → Nat
  | .reset => 0
  | .sramTest => 1
  | .imageRead => 2
  | .verify => 3
  | .apply => 4
  | .hostWait => 5
  | .running => 6
  | .hold => 7

/-- The lead lease (R368 to R370): EPOCH and lead as SCL_LEASE and SCL_STATUS show them, and the lease cell of each
die, with the TCLK count of its last renewal. -/
structure Lease where
  epoch : W32
  lead : Die
  /-- Scalers that act as lead: normally the lead alone. -/
  acting : List Die
  /-- A conflict seen and not resolved. -/
  conflict : Bool
  /-- Cells by die number: EPOCH, lead and last renewal. -/
  cells : Tbl (W32 × Die × Nat)
  /-- The last renewal that both cells acknowledged. -/
  counted : Nat
  deriving DecidableEq, Repr

/-- An entry of the journal (R372). -/
structure Journal where
  owner : Owner
  committed : Option (Nat × Nat)
  deriving DecidableEq, Repr

/-- A core that runs a firmware image (R378 to R380). -/
structure FwCore where
  /-- TCLK counts of its crashes in the last 60 s. -/
  crashes : List Nat
  stopped : Bool
  /-- The image it runs; none before a load or after a reset that loses it. -/
  image : Option FwCode
  deriving DecidableEq, Repr

/-- An activation in progress or deferred (R380, R381): the command that is owed its final completion, or none for a
component of the sideband. -/
structure Activation where
  kind : Nat
  image : FwCode
  owner : Option Owner
  /-- Cores still to be handed over, in order. -/
  todo : List Nat
  deferred : Bool
  deriving DecidableEq, Repr

/-- A flash copy (R358), or the absence of a configuration image. -/
abbrev FlashCopy := Option CfgImage

/-- A flash write that runs (R362, R374): the image (none for a Scaler extension written verbatim), and the command
that is owed its final completion, or none for a component of the sideband. -/
structure FlashJob where
  image : Option CfgImage
  toB : Bool
  owner : Option Owner
  /-- For a recovery in BOOT_HOLD, copy B is still to be written after copy A. -/
  both : Bool
  deriving DecidableEq, Repr

/-- States of the update agent (DSP0267). -/
inductive PldmState where
  | idle
  | learn
  | readyXfer
  | download
  | verify
  | apply
  | activate
  deriving DecidableEq, Repr

/-- The update agent of the sideband (R374). -/
structure Pldm where
  state : PldmState
  /-- Components named by PassComponentTable. -/
  table : List Nat
  component : Nat
  /-- Components verified and applied. -/
  applied : List Nat
  deriving DecidableEq, Repr

/-- The Scalers. -/
structure Scaler where
  /-- Command rings by issuer key (Issuer.key). -/
  rings : Tbl CmdRing
  /-- Agreed versions: (issuer key × 16 + interface) to version (R376). -/
  agreed : Tbl (BitVec 16)
  boot : Boot
  lease : Lease
  journal : List Journal
  flashA : FlashCopy
  flashB : FlashCopy
  /-- The copy chosen at the last reset: true for B; none while no copy was chosen. -/
  tryB : Option Bool
  /-- The copy in use: true for B; none when no copy was accepted (R361). -/
  inUse : Option Bool
  accepted : Option CfgImage
  /-- Staged images by kind (R364). -/
  staged : Tbl FwImage
  /-- Images that run, by kind. -/
  running : Tbl FwCode
  cores : Tbl FwCore
  activations : List Activation
  flash : Option FlashJob
  pldm : Pldm
  /-- GEN of the resource directory (R259). -/
  dirGen : Nat
  deriving DecidableEq, Repr

end Sys2Proof.Machine
end

