-- ==== Sys2Proof/Machine/Parts/Plan.lean ====
section
/-! DEFINITION. Plans: what a plan image says, and what an admitted plan holds (03_mill, 04_collectives). -/

namespace Sys2Proof.Machine

/-- A stream entry (Table 3.9). -/
structure StreamCfg where
  num : Nat
  kind : Nat
  xform : Nat
  inFmt : BitVec 16
  wireFmt : BitVec 16
  outFmt : BitVec 16
  acc : Nat
  resid : Nat
  h : Nat
  xprec : Bool
  elements : Nat
  tscale : W32
  shapeN : Nat
  source : W64
  dest : W64
  rank : Nat
  deriving DecidableEq, Repr

/-- A transform entry (Table 3.10) with its matrix, row-major. -/
structure XformCfg where
  kind : Nat
  log2b : Nat
  wfmt : Nat
  tseed : W64
  matrix : List W64
  deriving DecidableEq, Repr

/-- A level of a schedule (Table 4.2): group size, algorithm (0 DIRECT, 1 HALVING, 2 RING), paths. -/
structure Level where
  g : Nat
  alg : Nat
  paths : Nat
  deriving DecidableEq, Repr

/-- A region entry (R122). -/
structure Region where
  mask : BitVec 8
  port : Nat
  addr : Nat
  bytes : Nat
  deriving DecidableEq, Repr

/-- A schedule (Table 4.2). -/
structure Sched where
  levels : List Level
  skipNonfinite : Bool
  peerTimeout : Nat
  startWait : Nat
  peers : List Nat
  regions : List Region
  readyReg : Nat
  clip : W32
  deriving DecidableEq, Repr

/-- An optimizer group entry (Table 4.7). -/
structure OptCfg where
  kind : Nat
  clip : Bool
  init : Bool
  program : Nat
  first : Nat
  count : Nat
  lr : W32
  b1 : W32
  b2 : W32
  eps : W32
  wd : W32
  gscale : W32
  lrKind : Nat
  warmup : Nat
  decay : Nat
  lrMin : W32
  t0 : Nat
  initSrc : W64
  deriving DecidableEq, Repr

/-- An embedding queue entry (Table 4.9). -/
structure EmbQ where
  ringReg : Nat
  cqReg : Nat
  depth : Nat
  ringOff : Nat
  cqOff : Nat
  deriving DecidableEq, Repr

/-- An embedding table entry (Table 4.10). -/
structure EmbTab where
  table : Nat
  rowFmt : Nat
  rowOpt : Nat
  dim : Nat
  rows : Nat
  lr : W32
  b1 : W32
  b2 : W32
  eps : W32
  shards : Nat
  firstRank : Nat
  stream : Nat
  sr : Bool
  init : W32
  deriving DecidableEq, Repr

/-- A SYNC entry (Table 11.13). -/
structure SyncCfg where
  lcore : Nat
  counter : Nat
  role : Nat
  level : Nat
  arg : Nat
  target : Nat
  deriving DecidableEq, Repr

/-- A program entry (Table 11.12) with its image words. -/
structure ProgCfg where
  index : Nat
  kind : Nat
  die : Nat
  lcore : Nat
  entry : Nat
  stack : Nat
  arrays : Nat
  words : List W36
  deriving DecidableEq, Repr

/-- A plan image (Tables 3.7 to 3.10 and the sections of 04 and 11). -/
structure PlanCfg where
  planId : BitVec 16
  allowSpill : Bool
  signed : Bool
  seed : W64
  step0 : W64
  sramBytes : Nat
  lpddrBytes : Nat
  spillable : Nat
  xgroup : Nat
  garrays : Nat
  seq : Nat
  share : Nat
  contrib : Nat
  streams : List StreamCfg
  xforms : List XformCfg
  sched : Sched
  opts : List OptCfg
  embQ : List EmbQ
  embT : List EmbTab
  syncs : List SyncCfg
  progs : List ProgCfg
  skipped : Nat
  deriving DecidableEq, Repr

/-- Plan states (Table 3.14); a slot without a plan is FREE. -/
inductive PlanState where
  | admitted
  | running
  | stopping
  | failed
  deriving DecidableEq, Repr

/-- The code of a plan state (Table 3.14). -/
def PlanState.code : PlanState → Nat
  | .admitted => 1
  | .running => 2
  | .stopping => 3
  | .failed => 4

/-- An element with its poison mark (R126). -/
structure El where
  bits : W64
  poison : Bool
  deriving DecidableEq, Repr

/-- Progress of an exchange over the schedule's levels (R129, R131, R138): the level, counted from 0 in the
order in which the exchange runs them, the round within it, the parts that arrived in this round as
(sender's coordinate, shard), and those that left as (destination coordinate, shard). -/
structure Prog where
  level : Nat
  round : Nat
  got : List (Nat × Nat)
  sent : List (Nat × Nat)
  deriving DecidableEq, Repr

/-- A stream of an admitted plan. -/
structure StreamSt where
  /-- Accelerators whose ready latch is set (R117). -/
  latches : List Nat
  /-- Accelerators whose signal was taken since the last step ended (R118). -/
  signalled : List Nat
  /-- The latest phase that started in this step (Table 4.1); 0 before INTAKE. -/
  phase : Nat
  /-- The phase of that code has ended. -/
  ended : Bool
  nodeSum : List El
  /-- Residuals as kept in LPDDR5X, one encoding per element; a missing one is +0. -/
  resid : List W64
  /-- New residuals not written back yet: (first element, encodings) (R89). -/
  residNew : List (Nat × List W64)
  /-- Elements that passed source quantization. -/
  sourced : Nat
  /-- The accumulator, one encoding of the ACC format per element (R130). -/
  acc : List El
  red : Prog
  /-- Messages that arrived before their round: type and message. -/
  early : List (Nat × CollMsg)
  /-- The source-quantized tensor in pieces, each by its first element, in ascending order (R90). -/
  wire : List (Nat × Tensor)
  /-- Chunks whose residuals are staged and that wait for their input: first element and count (R89). -/
  fetched : List (Nat × Nat)
  /-- θ, m, v and w that UPDATE computed and has not committed yet. -/
  upd : Option (List W32 × List W32 × List W32 × List W32)
  /-- Optimizer state of the shard (Table 4.6): θ, m, v, or θ and the arrays of a program; an array that the KIND does not
  have is empty. -/
  theta : List W32
  m : List W32
  v : List W32
  /-- The third state array of a program (Table 4.6, KIND 0x0F). -/
  w : List W32
  /-- The reduced gradient of the shard after the inverse transform: in binary32 for an optimizer group (R140), in the ACC
  format for an all-reduce (R131). -/
  grad : List El
  /-- The factor Q of a low-rank stream, n × r in binary32 (R95), P̂, and the step of R95 it is in. -/
  qfac : List W32
  phat : List W32
  lowStep : Nat
  /-- A factor of a low-rank stream carries poison in this step. -/
  lowBad : Bool
  /-- Values that GATHER spreads, as encodings of the wire, by element; absent ones not yet here. -/
  outp : List (Option El)
  gat : Prog
  /-- The tensor scale T of the step (R143). -/
  tscale : W32
  /-- The accelerators whose ready record of this step is written (R132). -/
  ready : List Nat
  deriving DecidableEq, Repr

/-- An optimizer group of an admitted plan. -/
structure GroupSt where
  /-- The update count t (R134). -/
  t : Nat
  /-- UPDATE has started, and has ended, in this step. -/
  started : Bool
  done : Bool
  deriving DecidableEq, Repr

/-- A scalar or start exchange in progress: the values of each member's coordinate at this level. -/
structure ScalX where
  post : Bool
  prog : Prog
  vals : List (Nat × Scalars)
  deriving DecidableEq, Repr

/-- The start exchange (R159): all values seen so far, by rank; it begins, with `sent`, once every plan peer has an
open session (R403). -/
structure StartX where
  prog : Prog
  vals : List StartVal
  own : Owner
  sent : Bool
  deriving DecidableEq, Repr

/-- A row of an embedding table with its optimizer state (R145). -/
structure EmbRow where
  vals : List W64
  acc : W32
  m : List W32
  v : List W32
  deriving DecidableEq, Repr

/-- A descriptor that was fetched and whose completion is not written (R147): its accelerator, OP and status, the
owners (ranks) that have not answered, the partials that arrived by rank, and its count of bad indices. -/
structure EmbJob where
  acc : Nat
  op : Nat
  desc : EmbDesc
  status : Nat
  waiting : List Nat
  parts : List (Nat × EmbPart)
  bad : Nat
  deriving DecidableEq, Repr

/-- The descriptor and completion rings of an accelerator (R147). -/
structure EmbRing where
  tail : Nat
  fetched : Nat
  cqPos : Nat
  deriving DecidableEq, Repr

/-- What the failure report of a plan keeps (Table 4.16). -/
structure Failure where
  reason : Nat
  node : Nat
  origin : Nat
  step : W64
  phase : Nat
  begun : Bool
  applied : Bool
  skipped : Bool
  level : Nat
  aborts : Nat
  stamp : W64
  deriving DecidableEq, Repr

/-- How the current step runs after a start exchange (Table 4.17). -/
inductive Rerun where
  | normal
  | redo
  | gatherOnly
  deriving DecidableEq, Repr

/-- What an admitted plan holds beside its configuration. -/
structure Plan where
  state : PlanState
  slice : Nat
  cfg : PlanCfg
  digest : BitVec 256
  rank : Nat
  step : W64
  spillBytes : Nat
  /-- The plan's pages of the spill window, and counter and tag of each 4 KiB block there (R179). -/
  spillRuns : List Run
  spillTags : Tbl (Nat × List Byte)
  /-- Granules of the spilled state that were read poisoned in this step (R180). -/
  spillBad : List Nat
  pages : List Run
  /-- Banks of stacked SRAM: (compute die, first bank, count). -/
  sram : List (Nat × Nat × Nat)
  degraded : Bool
  efStale : Bool
  events : Events
  xArrays : List Nat
  gArrays : List Nat
  /-- Vector units in service when the plan's units were assigned (R113). -/
  vectors : List Nat
  /-- Physical core of each logical core. -/
  cores : List Nat
  lrMul : W32
  /-- LR_MUL latched for the running step (R137). -/
  lrStep : W32
  /-- The first start is done: θ is filled (R136). -/
  started : Bool
  armed : Bool
  begun : Bool
  applied : Bool
  skipped : Bool
  rerun : Rerun
  /-- The device is a step ahead and only serves θ for the GATHER of a step it has ended, without writing it
  again; and the step after it runs as REDO (Table 4.17). -/
  serving : Bool
  nextRedo : Bool
  /-- κ of the step (R139). -/
  kappa : W32
  streams : List StreamSt
  groups : List GroupSt
  scal : Option ScalX
  /-- The scalar exchanges of the step that have ended, and the maxima of SCALAR_POST by stream ordinal. -/
  preDone : Bool
  postDone : Bool
  maxima : List (Nat × W32)
  /-- Scalar values that arrived before their level: step, level, SCALAR_POST, values (R138). -/
  earlyS : List (W64 × Nat × Bool × List (Nat × Scalars))
  startX : Option StartX
  /-- Values of peers whose START arrived before the exchange began here (DESIGN CHOICE, log 39). -/
  earlyStart : List StartVal
  stopOwner : Option Owner
  retireOwner : Option Owner
  /-- Held before its next step by Cord (R315), or by power state W1 (R113). -/
  held : Bool
  /-- The step before which Cord holds the plan (R315). -/
  cut : Option W64
  heldPower : Bool
  /-- Collective queue pairs by node ID (R211). -/
  qps : Tbl Nat
  tables : Tbl (Tbl EmbRow)
  rings : Tbl EmbRing
  jobs : List EmbJob
  fail : Option Failure
  /-- An ABORT was forwarded in this step (R156). -/
  aborted : Bool
  /-- Step programs of the running step that have not reached HALT, by logical core. -/
  running : List Nat
  deriving DecidableEq, Repr

/-- An array or vector unit (Table 3.21). -/
structure MillUnit where
  state : Nat
  role : Nat
  lastSlot : Nat
  /-- Operations run for each plan slot while several contended for the unit (R113). -/
  served : Tbl Nat
  deriving DecidableEq, Repr

/-- What a command that allocates pages brought along: PLAN_ADMIT its image as read and the verdict on its signature,
MR_REG nothing, VOL_ATTACH its descriptor and what the stores answer. -/
inductive ZeroWork where
  | plan (image : Option (List Byte)) (sigOk : Bool)
  | region
  | attach (desc : Option VolDesc) (x : AttachData)
  deriving DecidableEq, Repr

/-- A command that waits for the zeroing of the pool, and who gets its completion (R104, R167). -/
structure ZeroWait where
  cmd : Cmd
  own : Owner
  work : ZeroWork
  deriving DecidableEq, Repr

/-- The Mill. -/
structure Mill where
  /-- Plan slots in use, 0 to 63. -/
  plans : Tbl Plan
  /-- Units 0 to 15 that differ from in service, idle, without role. -/
  units : Tbl MillUnit
  /-- Stand-ins for units that left service: core × 32 + unit to the unit that takes its operations (R113). -/
  routes : Tbl Nat
  admitBusy : Bool
  /-- Commands that wait for the pool to be zeroed, oldest first; an admission among them keeps ADMIT_BUSY (R104, R167). -/
  waiting : List ZeroWait
  deriving DecidableEq, Repr

end Sys2Proof.Machine
end

