-- ==== Sys2Proof/Machine/Parts/Cord.lean ====
section
/-! DEFINITION. State of Cord: a checkpoint or restore in progress (10_checkpoint), and the saved state that a
restore reads back. -/

namespace Sys2Proof.Machine

/-- Phases of Cord (CRD_STATUS.PHASE). -/
inductive Phase where
  | idle
  | snapshot
  | held
  | drain
  | commit
  | restore
  deriving DecidableEq, Repr

/-- The code of a phase. While the plans are held and the drain runs, the register shows HELD. -/
def Phase.code : Phase → Nat
  | .idle => 0
  | .snapshot => 1
  | .held => 2
  | .drain => 3
  | .commit => 4
  | .restore => 5

/-- What a checkpoint captured, or what the chunks of one hold (Table 10.1). -/
structure Saved where
  plans : List Plan
  /-- Sequencer cores of the plans, by core. -/
  cores : Tbl Core
  /-- Queue-pair contexts by QPN. -/
  qps : Tbl (BitVec 2048)
  /-- BOM_QCFG, Flume weights and traffic-class settings: entries of the register table. -/
  settings : Tbl RegEnt
  /-- Sizes of the accelerator regions, in order. -/
  regions : List Nat
  /-- Poisoned granules of 64 B (section 0x0009): the position of the plan in `plans`, and the granule of its pages. -/
  marks : List (Nat × Nat)
  deriving DecidableEq, Repr

/-- A restore in progress (R327). -/
structure RestoreSt where
  regions : List CkptRegion
  /-- The slot being read, and those given up with their cause. -/
  slot : Nat
  ignored : List (Nat × Nat)
  tried : List Nat
  /-- Chunks verified. -/
  next : Nat
  deriving DecidableEq, Repr

/-- A write that waits for a granule buffer (R322). -/
structure WaitWrite where
  addr : Nat
  bytes : List Byte
  poison : Bool
  deriving DecidableEq, Repr

/-- Cord. -/
structure Cord where
  phase : Phase
  owner : Option Owner
  report : Nat
  /-- 1 HOST, or the warning that started it (Table 10.3). -/
  trigger : Nat
  /-- Cut step of each plan slot. -/
  cuts : Tbl W64
  /-- Plans held before their cut. -/
  holding : Bool
  holdMs : Nat
  /-- CKPT_RELEASE arrived in SNAPSHOT. -/
  releaseAsked : Bool
  notQuiesced : List Nat
  poisoned : Bool
  slot : Nat
  seq : Nat
  cutStamp : W64
  releaseStamp : W64
  snap : Option Saved
  /-- Chunks of the captures, of tracked state and of the regions. -/
  capChunks : Nat
  trkChunks : Nat
  regChunks : Nat
  /-- The chunk table so far: 32 B for each sealed data chunk (R324). -/
  chunkTab : List (List Byte)
  /-- Poisoned granules of 64 B in tracked granules at the end of the snapshot. -/
  marks : List Nat
  /-- Chunks written, and the digest of the sealed directory once it is. -/
  written : Nat
  dirDigest : BitVec 256
  /-- Tracked granules (LPDDR5X address / 65,536) in rising order as runs, and those of them still pending. -/
  tracked : List Run
  pending : List Run
  /-- Granules whose copy stands in a buffer. -/
  buffers : List Nat
  waiting : List WaitWrite
  stalls : Nat
  /-- A write of the drain failed on the volume (R326). -/
  failed : Bool
  /-- Declared accelerator regions (R311). -/
  regions : List CkptRegion
  /-- Commit records of both slots as last read (R326). -/
  recs : Tbl CommitRec
  /-- TCLK count of the commit of the last warning checkpoint. -/
  lastWarn : Option Nat
  /-- Warnings whose condition persists. -/
  persisting : List WarnKind
  restore : Option RestoreSt
  deriving DecidableEq, Repr

end Sys2Proof.Machine
end

