-- ==== Sys2Proof/Machine/Parts/Ring.lean ====
section
/-! DEFINITION. State of the package: Ring time, its replicas and servo, PPS, and the die-to-die links
(01_package_and_time). -/

namespace Sys2Proof.Machine

/-- Ring state (Table 1.6). -/
inductive RingState where
  | unset
  | free
  | locked
  | holdover
  deriving DecidableEq, Repr

/-- The code of a Ring state in records and in TIM_STATUS.STATE. -/
def RingState.code : RingState → Nat
  | .unset => 0
  | .free => 1
  | .locked => 2
  | .holdover => 3

/-- A correction that the servo firmware chose (R36, R41). -/
inductive ServoAct where
  | addend (v : W64)
  | set (ns : W64)
  | step (ns : W64)
  | slew (amt : W64)
  deriving DecidableEq, Repr

/-- What the re-alignment of a replica measures (R39), in 2^-32 ns: how far its own TCLK moved it since the last one, the
delay with which the master's value came, and the round trip. -/
structure RealignMeas where
  drift : Int
  fwd : Nat
  rtt : Nat
  deriving DecidableEq, Repr

/-- What PTP_CONFIG sets (Tables 1.7 and 12.8). -/
structure PtpCfg where
  domain : Nat
  peerToPeer : Bool
  twoStep : Bool
  transport : Nat
  ports : W64
  prio1 : Nat
  prio2 : Nat
  clockClass : Nat
  log2Sync : Nat
  deriving DecidableEq, Repr

/-- The Ring master, its servo and PPS (R32 to R44). -/
structure Ring where
  /-- The 96-bit accumulator: NS and 32 fraction bits (R35). -/
  acc : BitVec 96
  /-- TIM_ADDEND in force, in 2^-32 ns. -/
  addend : BitVec 40
  /-- A step waiting for the next TCLK edge, in ns. -/
  step : Option W64
  /-- The slew amount remaining, in units of 2^-32 ns. -/
  slew : Int
  isSet : Bool
  state : RingState
  /-- Consecutive sync intervals with the offset estimate within 20 ns (R42). -/
  inBand : Nat
  /-- How far the Ring value of each replica (0 East, 1 to 4 Mill 0 to Mill 3) stands from the master's, in 2^-32 ns
  (R39); an unlisted replica stands at 0. -/
  skew : Tbl Int
  /-- Replicas whose stamps are withheld (R40): their error exceeded 2 ns. -/
  withheld : List Nat
  /-- Replicas of compute dies that were powered up and are not re-aligned yet (R40). -/
  waking : List Nat
  /-- Stamping requests held on a die whose stamps are withheld (R40): of the last signal of a counter, as (core,
  counter), in order. -/
  owed : List (Nat × Nat)
  /-- Level of PPS_IN as last seen (R43). -/
  ppsIn : Bool
  /-- A second boundary was reached at the last TCLK edge and its pulse has not risen (R44). -/
  ppsDue : Bool
  ppsOut : Bool
  /-- The second of the next PPS_IN edge given by TIME_SECOND (R43). -/
  second : Option W64
  ptp : PtpCfg
  deriving DecidableEq, Repr

/-- A logic die of the package, as an end of a link (Table 1.2). -/
inductive Node where
  | io (d : Die)
  | mill (n : Nat)
  deriving DecidableEq, Repr

/-- The die-to-die links (R24 to R27). -/
structure Links where
  /-- Links out of service. -/
  down : List Nat
  /-- Failed retrains, as (link, TCLK count), of which three within 1 s take a link out of service. -/
  failed : List (Nat × Nat)
  /-- Links whose messages are held at the source until the old route is drained (R27). -/
  held : List Nat
  /-- Messages held at their source, in the order sent: the link and the signal, as (core, counter) (R27). -/
  msgs : List (Nat × Nat × Nat)
  deriving DecidableEq, Repr

end Sys2Proof.Machine
end

