-- ==== Sys2Proof/Machine/Parts/Path.lean ====
section
/-! DEFINITION. State of Bucker, Boom and Flume (07_packet_path). -/

namespace Sys2Proof.Machine

/-- What Bucker decides for a frame or for the fragments of a datagram (R229, R230). -/
inductive Disp where
  | drop
  | skid (slice : Nat)
  | core (user prio : Nat)
  | miss
  deriving DecidableEq, Repr

/-- An entry of a fragment table (R230). -/
structure FragEnt where
  die : Die
  key : List Byte
  disp : Disp
  policer : Option Nat
  /-- Payload bytes received so far, and the length of the datagram once its last fragment gave it. -/
  total : Nat
  whole : Option Nat
  deriving DecidableEq, Repr

/-- What a context or an address handle gives of the headers of a Skid packet: DMAC, VLAN field, destination address, DSCP
and ECN, UDP source port. -/
structure NetHdr where
  dmac : BitVec 48
  vlan : Nat
  dgid : BitVec 128
  dscp : Nat
  ecn : Nat
  sport : Nat
  deriving DecidableEq, Repr

/-- What the hardware writes into a one-step PTP frame at egress (Table 1.7): originTimestamp, or correctionField
advanced by the time since a stamp given with the frame. -/
inductive OneStep where
  | origin
  | correction (since : BitVec 80)
  deriving DecidableEq, Repr

/-- The request of a frame's descriptor at egress (R41): the offset of the PTP message, the offset of a UDP checksum to
correct, and the one-step write; none of these for a stamp alone. -/
structure EgressReq where
  ptpOff : Nat
  sumOff : Option Nat
  oneStep : Option OneStep
  deriving DecidableEq, Repr

/-- A raw frame that firmware puts into the raw egress queue of a port (R237): its priority and its descriptor's
request. -/
structure RawTx where
  port : Nat
  bytes : List Byte
  prio : Nat
  req : Option EgressReq
  deriving DecidableEq, Repr

/-- A PTP message that reaches the Scaler of a die through its exception queue (R41): what the dequeue finds in its words, and
the offset that its stamps give. -/
structure PtpRx where
  die : Die
  ecc : BoomEcc
  offsetNs : Int
  deriving DecidableEq, Repr

/-- What the servo does with it: the changes of Ring and the messages that it sends. -/
structure PtpTodo where
  acts : List ServoAct
  tx : List RawTx
  deriving DecidableEq, Repr

/-- A complete frame in a Boom queue (R234 to R237): its bytes from the DMAC on without the FCS, with the metadata of R233 in front of an
exception frame; its priority; the stamp and Flume time of its notice; the send-queue packet it carries. -/
structure BFrame where
  bytes : List Byte
  prio : Nat
  noticed : W64
  /-- The queue pair that sent the frame, and the PSN when it carries a tracked packet of its send queue. -/
  pkt : Option (Nat × Option Nat)
  /-- An egress stamp that the frame's descriptor requests (R41). -/
  egress : Option EgressReq
  deriving DecidableEq, Repr

/-- A Boom queue, and as an egress queue its state in Flume (R235 to R243). -/
structure BQueue where
  /-- Frames in the order of their notices. -/
  frames : List BFrame
  hwm : Nat
  /-- Port, class and slice of the bound context. -/
  bound : Option (Nat × Nat × Nat)
  /-- A change of port and class that waits until the queue is empty (R240). -/
  rebind : Option (Nat × Nat)
  /-- Current rate of the queue pair, Mb/s. -/
  rate : Nat
  /-- The eligible time E, in ps of Flume time. -/
  elig : Nat
  /-- Calendar slot in which the queue waits; none while it is eligible. -/
  wheel : Option Nat
  /-- Finish tag of the head, once computed, and of the frame before it. -/
  tag : Option Nat
  prevTag : Nat
  deriving DecidableEq, Repr

/-- A class of a port, or a port among its classes: virtual time and tags (R243). -/
structure VClass where
  vt : Nat
  /-- The tag, and the queue and its tag of the frame that it was computed for. -/
  tag : Option (Nat × (Nat × Nat))
  prevTag : Nat
  deriving DecidableEq, Repr

/-- A policer (R244 to R246): its committed configuration and its buckets in units of 2^-16 B. -/
structure Policer where
  en : Bool
  mode : Bool
  aware : Bool
  yellow : Nat
  red : Nat
  yDscp : Nat
  rDscp : Nat
  cir : Nat
  pir : Nat
  cbs : Nat
  ebs : Nat
  tc : Nat
  te : Nat
  last : W64
  deriving DecidableEq, Repr

/-- The packet path of both dies. -/
structure Path where
  /-- Table entries by die × 2^19 + way × 2^17 + index: sixteen words. -/
  table : Tbl (List W32)
  frags : List FragEnt
  /-- Boom queues by die × 131,072 + queue. -/
  queues : Tbl BQueue
  /-- Cells that no list reaches until the sweep, by die (R239). -/
  leaked : Tbl Nat
  /-- Lowest FREE since the last read of BOM_DIE_MINFREE, by die. -/
  minFree : Tbl Nat
  /-- Flume time of each die in slots of 8 ns (R242). -/
  slot : Tbl Nat
  /-- Classes by port × 8 + class, and ports as 256 + port. -/
  vclass : Tbl VClass
  /-- Exception buckets by die × 8 + reason: tokens in 1/250,000, and the TCLK count of the last update. -/
  exc : Tbl (Nat × Nat)
  policers : Tbl Policer
  /-- Raw egress shapers: eligible time of each port, in ps of Flume time. -/
  rawElig : Tbl Nat
  /-- Ports whose current period does not sample (R247). -/
  notSampling : List Nat
  /-- Received frames of East that wait for their ingress stamp (R40), by port. -/
  unstamped : List (Nat × Frame)
  deriving DecidableEq, Repr

end Sys2Proof.Machine
end

