-- ==== Sys2Proof/Syntax.lean ====
section
/-! DEFINITION. The commands of the block: one constructor per row of the table of operations and events, in its order. The
operands hold what the sender decides and what comes from outside the device with the event (DESIGN CHOICE, log 2). -/

namespace Sys2Proof

open Machine (ServoAct RealignMeas PtpRx PtpTodo Core Saved)

/-- The commands. Each docstring names the rule of its row and the row's summary. -/
inductive Instr where
  /-- R11: A host write to a BAR0 or slice-page register that has no row of its own applies the field access codes. -/
  | regWrite (via : Via) (off : Nat) (size : Nat) (val : W64) (poisoned : Bool)
  /-- R9: A write to the low word of a 64-bit pair stages that word for the writing function. -/
  | lowWordWrite (via : Via) (off : Nat) (val : W32)
  /-- R9: A write to the high word of a 64-bit pair commits both words in one instant, using the staged low word or
  the rule for a missing one. -/
  | highWordWrite (via : Via) (off : Nat) (val : W32)
  /-- R8: A read of the low word of a 64-bit pair latches the high word for the reading function. -/
  | lowWordRead (via : Via) (off : Nat)
  /-- R11: A read of an RC field returns its value and clears it, or reloads it with the value its Meaning names. -/
  | readClear (via : Via) (off size : Nat)
  /-- R254: An aligned 8 B access to a 64-bit register pair reads both words of one instant, or commits both words at
  once. -/
  | access8b (via : Via) (off : Nat) (write : Option W64)
  /-- R13: A write that sets a W1S lock bit writes the RWL fields it carries and locks them for every later write. -/
  | lockSet (via : Via) (off : Nat) (val : W32)
  /-- R35: At each TCLK edge the Ring master adds the effective addend to its accumulator. -/
  | ringTick
  /-- R37: A host write to TIM_ADDEND takes effect while TIM_CTRL.SRC is 0, and is discarded and counted otherwise. -/
  | timAddendWrite (port : Nat) (val : W64)
  /-- R36: A write to TIM_SET loads NS and clears FRAC once, while TIM_STATUS.SET is 0 and TIM_CTRL.SRC is 0. -/
  | timSetWrite (port : Nat) (val : W64)
  /-- R36: A write to TIM_STEP schedules a positive step for the next TCLK edge. -/
  | timStepWrite (port : Nat) (val : W64)
  /-- R36: A write to TIM_SLEW starts a new signed slew amount, which replaces the amount remaining. -/
  | timSlewWrite (port : Nat) (val : W64)
  /-- R38: A read of TIM_NOW_LO latches all 80 bits of Ring from one side of any step. -/
  | timNowRead (port : Nat)
  /-- R47: A read of TIM_PPS_CAP_LO latches the capture and clears TIM_STATUS.PPS_CAP_VALID. -/
  | timPpsCapRead (port : Nat)
  /-- R39: Every 4.096 µs a Ring replica is re-aligned to the West master over the UCIe sideband. -/
  | replicaRealign (replica : Nat) (meas : RealignMeas)
  /-- R41: A stamped PTP frame reaches the Scaler servo, which disciplines Ring. -/
  | ptpMessageReceive (rx : PtpRx) (todo : PtpTodo)
  /-- R42: Loss of the selected source for more than 3 sync intervals after LOCKED moves the servo to HOLDOVER. -/
  | sourceLossHoldover (intervals : Nat)
  /-- R43: A PPS_IN transition on the chosen edge is captured into TIM_PPS_CAP while PPS_IN_EN is 1. -/
  | ppsInEdge (level : Bool) (acts : List ServoAct)
  /-- R44: PPS_OUT rises when NS mod 10^9 reaches 0 while PPS_OUT_EN and TIM_STATUS.SET are 1. -/
  | ppsOutRise
  /-- R44: PPS_OUT falls once the pulse has lasted TIM_PPS_OUT.WIDTH µs. -/
  | ppsOutFall
  /-- R41: Command PTP_CONFIG sets the PTP domain, profile, steps, transport, ports and clock attributes. -/
  | ptpConfig (c : Cmd)
  /-- R43: Command TIME_SECOND gives the TAI second of the next PPS_IN edge, and is accepted only when TIM_CTRL.SRC is
  2. -/
  | timeSecond (c : Cmd)
  /-- R26: A die-to-die lane fault within redundancy is repaired with a redundant lane and counted in Tally. -/
  | ucieLaneRepair (link : Nat)
  /-- R26: A die-to-die link retrains; a third failed retrain within 1 s takes the link out of service. -/
  | ucieLinkRetrain (link : Nat) (ok : Bool)
  /-- R26: A link that is out of service raises a contained fault, and its traffic is rerouted around it. -/
  | ucieLinkFail (link : Nat)
  /-- R27: Messages held at the source go out on the new route once every message of the old route is acknowledged or
  lost, within 10 µs. -/
  | rerouteRelease (link : Nat)
  /-- R105: Command PLAN_ADMIT checks a plan image in order, then places and measures it, and writes the admission
  report. -/
  | planAdmit (c : Cmd) (img : Option (List Byte)) (sigOk : Bool)
  /-- R159: Command PLAN_START starts a plan; with P > 1 it completes DEFERRED and runs the start exchange. -/
  | planStart (c : Cmd) (init : List (List W32))
  /-- R111: Command PLAN_STOP stops a plan at the end of its step, or abandons the step when IMMEDIATE is set. -/
  | planStop (c : Cmd)
  /-- R110: Command PLAN_RETIRE frees a plan slot; it completes DEFERRED while Cord holds the plan. -/
  | planRetire (c : Cmd)
  /-- R92: Command PLAN_EF_RESET zeroes the residuals of an ADMITTED plan. -/
  | planEfReset (c : Cmd)
  /-- R137: Command PLAN_HYPER sets LR_MUL, which takes effect at the start of the next step. -/
  | planHyper (c : Cmd)
  /-- R158: Command PLAN_STATUS writes the plan failure report of a slot. -/
  | planStatus (c : Cmd)
  /-- R115: A write of 1 to MIL_EVT_CLR clears the six event counts of the selected plan. -/
  | milEvtClrWrite (port : Nat) (val : W32)
  /-- R113: An array or vector unit leaves service; the Mill re-issues its operations and the plan runs DEGRADED. -/
  | unitOutOfService (n : Nat)
  /-- R111: The schedule arms the plan's next step, latching LR_MUL and starting the step programs. -/
  | stepArm (slot : Nat)
  /-- R117: An accelerator's write to a plan signal word sets the ready latch of a stream and accelerator. -/
  | planSignalWrite (via : Via) (slot size : Nat) (val : W32) (poisoned : Bool)
  /-- R117: INTAKE of a stream starts once the latches of all its contributing accelerators are set. -/
  | intakeStart (slot k : Nat)
  /-- R124: The intra-node sum of a stream is formed by the fixed binary32 tree, and its latches clear. -/
  | intakeEnd (slot k : Nat) (parts : List PartRead)
  /-- R89: A staged chunk's residuals arrive from LPDDR5X, and its transform, feedback and quantization proceed. -/
  | residualFetchDone (slot k first count : Nat)
  /-- R89: A chunk's new residuals reach LPDDR5X, as the end of its step requires. -/
  | residualWritebackDone (slot k first : Nat)
  /-- R130: A REDUCE message is dequantized and added to the accumulator in arrival order. -/
  | reduceDataReceive (m : CollMsg)
  /-- R138: SCALAR_PRE begins once REDUCE has ended for every stream of the groups that take part in it. -/
  | scalarPreStart (slot : Nat)
  /-- R138: A SCALAR message delivers values of a level group, and the values are combined in rank order. -/
  | scalarReceive (m : CollMsg) (post : Bool) (vals : List (Nat × Scalars))
  /-- R140: UPDATE of a group begins after SCALAR_PRE, running the inverse transform and the optimizer formulas. -/
  | updateStart (slot group : Nat)
  /-- R116: UPDATE of a group ends, t advances, and the device is APPLIED once its whole shard is done. -/
  | updateEnd (slot group : Nat)
  /-- R138: SCALAR_POST exchanges the largest parameter magnitude when an FP8 parameter stream computes its scale. -/
  | scalarPostStart (slot : Nat)
  /-- R131: GATHER spreads the new parameters or reduced shards over the levels, from L to 1. -/
  | gatherStart (slot k : Nat)
  /-- R131: A GATHER message is written to its DEST regions and forwarded unchanged. -/
  | gatherDataReceive (m : CollMsg)
  /-- R132: After a stream's last byte reaches an accelerator, its 16 B ready record is written. -/
  | readyRecordWrite (slot k acc : Nat)
  /-- R116: END: the ready records are written, the step number advances and the step's trigger entries are freed. -/
  | stepEnd (slot : Nat)
  /-- R159: A START message carries a peer's step, BEGUN, APPLIED and digest, which are combined over the levels. -/
  | startReceive (m : CollMsg) (vals : List StartVal)
  /-- R159: When not all values have arrived START_WAIT after PLAN_START, the plan enters FAILED with START_FAIL. -/
  | startWaitTimeout (slot : Nat)
  /-- R155: A level receive that has waited PEER_TIMEOUT declares a peer failure. -/
  | peerTimeout (slot level peer : Nat)
  /-- R157: An ABORT message is forwarded at most once per step and moves the plan to FAILED. -/
  | abortReceive (m : AbortMsg)
  /-- R147: An accelerator writes a new tail index to the embedding doorbell, and the device fetches descriptors in
  ring order. -/
  | embDoorbellWrite (via : Via) (slot acc size : Nat) (val : W32) (poisoned : Bool)
  /-- R149: A LOOKUP descriptor pools bag rows, with partials combined in ascending owner rank. -/
  | embLookup (slot acc : Nat) (e : EmbDesc)
  /-- R151: An UPDATE descriptor expands bag gradients to row gradients, and each owner applies the row optimizer. -/
  | embUpdate (slot acc : Nat) (e : EmbDesc)
  /-- R153: A LOAD descriptor writes rows into the table and zeroes their state. -/
  | embLoad (slot acc : Nat) (e : EmbDesc)
  /-- R153: A READ descriptor copies table rows to DATA. -/
  | embRead (slot acc : Nat) (e : EmbDesc)
  /-- R149: An owner serves an EMB_REQ message by pooling its rows and returning a partial. -/
  | embReqReceive (m : CollMsg) (q : EmbPart)
  /-- R149: An EMB_RESP partial reaches the requesting device and is combined. -/
  | embRespReceive (m : CollMsg) (q : EmbPart)
  /-- R151: An owner applies the row gradients of an EMB_UPD message. -/
  | embUpdReceive (m : CollMsg) (q : EmbPart)
  /-- R147: Once every owner has applied or answered, the 16 B completion of a descriptor is written. -/
  | embCompletion (slot acc : Nat) (tag : BitVec 16)
  /-- R169: A corrected memory error is written back, counted and recorded at most once per millisecond. -/
  | eccCorrected (u : MemUnit) (row addr : Nat)
  /-- R169: An uncorrected error poisons its granule and records a contained fault. -/
  | eccUncorrected (u : MemUnit) (row addr : Nat)
  /-- R170: The patrol scrubber reads the next granule or word within its pass period. -/
  | scrubRead (u : MemUnit) (row addr : Nat) (r : ScrubResult) (passEnd : Bool)
  /-- R171: The copy to a spare row completes, and accesses are redirected to it. -/
  | rowCopyDone (ch row : Nat)
  /-- R173: A write of 1 to MEM_SPARE.START starts sparing of MEM_SPARE.CHANNEL. -/
  | memSpareStartWrite (val : W32)
  /-- R174: One local chunk of the failing channel is copied to the spare reserve, and the watermark advances. -/
  | spareChunkCopy
  /-- R167: A released LPDDR5X page is zeroed in the background and becomes ready for allocation. -/
  | pageZeroed
  /-- R167: Zeroing of the whole slice pool after a cold or warm reset ends, and MEM_STATUS.ZERO_BUSY clears. -/
  | poolZeroDone
  /-- R178: A write to the spill window registers is checked against the window rules, and discarded and counted when
  it breaks one. -/
  | spillWindowWrite (port reg : Nat) (val : W64)
  /-- R179: A spill block read completes, and its GCM tag is verified. -/
  | spillBlockReadDone (slot block : Nat) (bytes : List Byte) (lost : List Bool)
  /-- R190: Command QP_CREATE creates a queue pair from a template. -/
  | qpCreate (c : Cmd) (tpl : Option (List Byte))
  /-- R184: Command QP_MODIFY changes a queue pair's state and fields between two packets. -/
  | qpModify (c : Cmd) (tpl : Option (List Byte)) (fetched : Option CtxFetch)
  /-- R281: Command QP_QUERY writes a copy of a context, with tenant fields zeroed on path M. -/
  | qpQuery (c : Cmd)
  /-- R193: Command QP_DESTROY destroys a queue pair, fetching an uncached context first. -/
  | qpDestroy (c : Cmd) (fetched : Option CtxFetch)
  /-- R208: Command CQ_CREATE creates a completion queue. -/
  | cqCreate (c : Cmd)
  /-- R377: Command CQ_DESTROY destroys a completion queue that no queue pair names. -/
  | cqDestroy (c : Cmd)
  /-- R187: Command MR_REG registers a memory region and returns its RKEY. -/
  | mrReg (c : Cmd)
  /-- R377: Command MR_DEREG deregisters a region that has no outstanding READ or atomic. -/
  | mrDereg (c : Cmd)
  /-- R377: Command AH_CREATE creates an address handle. -/
  | ahCreate (c : Cmd) (ah : Option (List Byte))
  /-- R377: Command AH_DESTROY destroys an address handle. -/
  | ahDestroy (c : Cmd)
  /-- R256: A queue-pair doorbell write sets a producer index; the device then fetches WQEs or receive entries. -/
  | qpDoorbellWrite (via : Via) (size : Nat) (val : W64) (poisoned : Bool) (rqes : List Rqe)
  /-- R256: A completion queue doorbell write moves the consumer index, optionally arms the vector, and frees held
  completions. -/
  | cqDoorbellWrite (via : Via) (size : Nat) (val : W64) (poisoned : Bool)
  /-- R205: A SEND WQE sends a message. -/
  | wqeSend (qpn : Nat) (w : Wqe) (src : SrcData)
  /-- R205: A SEND_IMM WQE sends a message with immediate data. -/
  | wqeSendImm (qpn : Nat) (w : Wqe) (src : SrcData)
  /-- R205: A WRITE WQE writes remote memory. -/
  | wqeWrite (qpn : Nat) (w : Wqe) (src : SrcData)
  /-- R205: A WRITE_IMM WQE writes remote memory with immediate data. -/
  | wqeWriteImm (qpn : Nat) (w : Wqe) (src : SrcData)
  /-- R205: A READ WQE requests remote data. -/
  | wqeRead (qpn : Nat) (w : Wqe) (src : SrcData)
  /-- R205: A CMP_SWAP WQE requests a 64-bit compare-and-swap. -/
  | wqeCmpSwap (qpn : Nat) (w : Wqe) (src : SrcData)
  /-- R205: A FETCH_ADD WQE requests a 64-bit fetch-and-add. -/
  | wqeFetchAdd (qpn : Nat) (w : Wqe) (src : SrcData)
  /-- R205: An ATOMIC_WRITE WQE requests a 64-bit atomic write. -/
  | wqeAtomicWrite (qpn : Nat) (w : Wqe) (src : SrcData)
  /-- R206: A FLUSH WQE requests placement, or persistence, of every earlier message. -/
  | wqeFlush (qpn : Nat) (w : Wqe) (src : SrcData)
  /-- R210: A WAIT WQE holds the send queue until a watched completion count reaches its target. -/
  | wqeWait (qpn : Nat) (w : Wqe) (src : SrcData)
  /-- R205: A NOP WQE completes once every earlier WQE has completed. -/
  | wqeNop (qpn : Nat) (w : Wqe) (src : SrcData)
  /-- R205: A WQE completes, the completion count advances and a CQE is written if SIGNALED or failed. -/
  | wqeComplete (qpn : Nat)
  /-- R200: A received SEND or WRITE packet is checked, opened and placed at its offset. -/
  | rxDataPacket (p : DataPkt)
  /-- R206: A READ request is answered after every earlier MSN completes, rereading memory for duplicates. -/
  | rxReadRequest (p : ReqPkt)
  /-- R206: An atomic or ATOMIC WRITE request runs in the memory controller or as a PCIe AtomicOp. -/
  | rxAtomicRequest (op : AtomicOp) (p : ReqPkt)
  /-- R206: A FLUSH is answered once earlier data is placed, or persisted when PERSIST is set. -/
  | rxFlushRequest (p : ReqPkt) (persist : Bool)
  /-- R202: An acknowledgement or RC SACK advances UNA_PSN, updates the RTT estimate and frees store entries. -/
  | rxSack (h : PktHdr) (aeth : W32) (ranges : List (Nat × Nat))
  /-- R182: A NAK, RNR or sequence error, is handled under the IBTA rules. -/
  | rxNak (h : PktHdr) (aeth : W32)
  /-- R200: A READ response packet is placed at the requester's local address plus its offset. -/
  | rxReadResponse (h : PktHdr) (payload : List Byte) (poison : List Bool)
  /-- R205: An atomic response places the original value at LADDR. -/
  | rxAtomicResponse (h : PktHdr) (orig : W64)
  /-- R217: A received CNP holds its path and may cut the rate. -/
  | rxCnp (h : PktHdr)
  /-- R215: An RC REPORT writes a REPORTED CQE on the receive completion queue of the named queue pair. -/
  | rxRcReport (h : PktHdr) (aeth : W32)
  /-- R201: ACK_DELAY after the first unacknowledged arrival, the receiver sends an RC SACK. -/
  | ackDelayExpiry (qpn : Nat)
  /-- R202: A gap older than REORDER_WIN with higher PSNs acknowledged is declared lost and retransmitted. -/
  | reorderWinExpiry (qpn : Nat)
  /-- R203: The retransmit timeout retransmits the oldest PSN, backs off and decrements the retries left. -/
  | retransmitTimeout (qpn : Nat)
  /-- R203: Every 1 ms a down path carries an ACKREQ probe, and it returns to service when acknowledged. -/
  | pathProbe (qpn path : Nat)
  /-- R217: A path's PATH_HOLD bit clears PATH_HOLD µs after a CNP. -/
  | pathHoldExpiry (qpn path : Nat)
  /-- R217: Each PR_DECAY µs without a CNP lowers the pressure by one. -/
  | pressureDecay (qpn : Nat)
  /-- R217: After TIMER µs or BYTES of sending, the recovery stage advances and the rate rises. -/
  | recoveryEvent (qpn : Nat)
  /-- R192: A context arrives from the backing store, and the miss chain is processed in order. -/
  | contextFetchDone (qpn : Nat) (r : CtxFetch)
  /-- R193: A context eviction write-back completes, and any waiting fetch is issued. -/
  | contextWritebackDone (qpn : Nat)
  /-- R193: 1 ms after a failed fetch, the QPN may be fetched again. -/
  | absentQpnExpiry (qpn : Nat)
  /-- R222: An Ethernet frame is stamped, parsed and classified to Skid, a drop or the exception path. -/
  | frameReceive (port : Nat) (f : Frame)
  /-- R230: A fragment entry is freed TMO µs after its last hit. -/
  | fragEntryTimeout (die : Die) (ix : Nat)
  /-- R243: Flume selects the next frame of a port by strict priority and the smallest finish tag. -/
  | frameTransmit (port : Nat) (e : BoomEcc)
  /-- R242: The calendar wheel reaches a slot, and its queues become eligible or are placed again. -/
  | calendarSlot (die : Die)
  /-- R238: Setting BOM_QCFG.FLUSH releases every cell of the queue within 2 µs and holds the queue empty. -/
  | bomQueueFlush (die : Die) (q : Nat)
  /-- R239: Within 10 ms after a link error, unreachable cells are returned to the pool. -/
  | cellSweep (die : Die)
  /-- R226: A write of BKR_TBL_DATA writes the addressed entry word and advances WORD. -/
  | bkrTblDataWrite (port : Nat) (val : W32)
  /-- R226: A read of BKR_TBL_DATA returns the addressed entry word and advances WORD. -/
  | bkrTblDataRead (port : Nat)
  /-- R228: A hash seed write takes effect only while both tables are empty. -/
  | bkrHashSeedWrite (k : Nat) (val : W32)
  /-- R246: A FLU_POL_CFG write commits the staged policer values and fills the buckets, or is discarded. -/
  | fluPolCfgWrite (port : Nat) (val : W32)
  /-- R247: At each sampling period Flume counts bound queues and may emit QSAMPLE records. -/
  | queueSamplePeriod (port : Nat)
  /-- R275: PERST_N or a link hot reset resets both functions of a port and their slices. -/
  | hotReset (p : Nat) (pin : Bool)
  /-- R272: A PCIe link down without hot reset acts as a hot reset of the port, with Surprise Down logged. -/
  | linkDown (p : Nat)
  /-- R274: A function-level reset clears BME, resets the function's slices and its F-class registers within 100 ms.
  -/
  | flr (p : Nat) (kind : FnKind)
  /-- R273: Clearing Bus Master Enable stops the function's requests and abandons its outstanding reads. -/
  | bmeClear (p : Nat) (kind : FnKind)
  /-- R273: Setting Bus Master Enable re-issues the abandoned reads, and held work resumes. -/
  | bmeSet (p : Nat) (kind : FnKind)
  /-- R252: A function entering D3hot behaves as with Bus Master Enable at 0. -/
  | d3hotEntry (p : Nat) (kind : FnKind)
  /-- R252: A return to D0 restores the function's earlier Bus Master Enable value. -/
  | d3hotExit (p : Nat) (kind : FnKind)
  /-- R268: A PCIe completion is matched to its read slot and delivered, or discarded as unexpected. -/
  | pcieCompletionReceive (p : Nat) (kind : FnKind) (tag : Nat) (st : CplStatus) (bytes : Nat) (poisoned : Bool)
  /-- R267: A read times out, its missing bytes are delivered poisoned, and its slot is quarantined. -/
  | completionTimeout (p slot : Nat)
  /-- R267: After twice the timeout, a quarantined read slot may be issued again. -/
  | quarantineEnd (p slot : Nat)
  /-- R262: An ATS invalidation completes once every request that used the invalidated entries has been issued or
  completed. -/
  | atsInvalidation (p : Nat) (kind : FnKind) (pasid : Option Nat) (page : Nat)
  /-- R272: A malformed, ECRC or flit error TLP is dropped, and a contained fault is recorded. -/
  | malformedTlp (p : Nat) (kind : FnKind) (e : TlpError)
  /-- R277: Command SLICE_BIND binds a slice to its home function and makes it ACTIVE. -/
  | sliceBind (c : Cmd)
  /-- R280: Command SLICE_QUOTA changes the slice quotas under the capacity and held-resource rules. -/
  | sliceQuota (c : Cmd)
  /-- R279: Command SLICE_WINDOW sets a DMA window of the slice. -/
  | sliceWindow (c : Cmd)
  /-- R282: Command SLICE_QUIESCE moves the slice to QUIESCING and completes DEFERRED. -/
  | sliceQuiesce (c : Cmd)
  /-- R282: The slice enters QUIESCED once no plan runs and no work or request remains. -/
  | sliceQuiesced (slice : Nat)
  /-- R282: At the quiesce deadline, busy queue pairs enter ERR, stopping plans are abandoned and the slice is
  QUIESCED. -/
  | quiesceDeadline (slice : Nat)
  /-- R279: Command SLICE_RESUME returns a QUIESCED slice to ACTIVE. -/
  | sliceResume (c : Cmd)
  /-- R278: Command SLICE_RESET destroys the slice's objects, retires its plans and erases its key slots. -/
  | sliceReset (c : Cmd)
  /-- R279: Command SLICE_UNBIND resets the slice and leaves it UNBOUND with quotas and windows cleared. -/
  | sliceUnbind (c : Cmd)
  /-- R287: A write of CC.EN as 1 enables the NVMe controller, and CSTS.RDY reaches 1 within 100 ms. -/
  | ccEnable (slice port : Nat) (cc : W32)
  /-- R287: A write of CC.EN as 0 resets the controller after its fetched writes drain. -/
  | ccDisable (slice port : Nat) (cc : W32)
  /-- R287: A write of CC.SHN shuts the controller down after its fetched writes drain. -/
  | ccShutdown (slice port : Nat) (cc : W32)
  /-- R284: An NVMe submission queue tail doorbell makes the controller fetch new commands. -/
  | nvmeSqDoorbell (slice port sq tail : Nat)
  /-- R284: An NVMe completion queue head doorbell frees completion entries. -/
  | nvmeCqDoorbell (slice port cq head : Nat)
  /-- R286: Admin command Create I/O Submission Queue, within the slice's queue quota. -/
  | createIoSq (slice port : Nat) (a : NvmeAdmin)
  /-- R286: Admin command Create I/O Completion Queue, within the slice's queue quota. -/
  | createIoCq (slice port : Nat) (a : NvmeAdmin)
  /-- R307: Admin command Delete I/O Submission Queue, also for a frozen queue. -/
  | deleteIoSq (slice port : Nat) (a : NvmeAdmin)
  /-- R285: Admin command Delete I/O Completion Queue. -/
  | deleteIoCq (slice port : Nat) (a : NvmeAdmin)
  /-- R306: Admin command Get Log Page returns the error, SMART or commands log. -/
  | getLogPage (slice port : Nat) (a : NvmeAdmin)
  /-- R285: Admin command Identify returns controller or namespace data. -/
  | nvmeIdentify (slice port : Nat) (a : NvmeAdmin)
  /-- R308: Admin command Abort catches a named command if it has not passed its points of no return. -/
  | nvmeAbort (slice port : Nat) (a : NvmeAdmin)
  /-- R285: Admin command Set Features sets a supported feature, such as the volatile write cache. -/
  | setFeatures (slice port : Nat) (a : NvmeAdmin)
  /-- R285: Admin command Get Features returns a supported feature. -/
  | getFeatures (slice port : Nat) (a : NvmeAdmin)
  /-- R304: Admin command Asynchronous Event Request waits for an error or namespace event. -/
  | asyncEventRequest (slice port : Nat) (a : NvmeAdmin)
  /-- R307: Admin command QUEUE_RESTART restarts fetching from a frozen queue, optionally discarding its entries. -/
  | queueRestart (slice port : Nat) (a : NvmeAdmin) (cids : List (BitVec 16))
  /-- R301: An NVMe Write completes into the write cache, or after the map persists when the cache is off. -/
  | nvmeWrite (slice port sq : Nat) (io : NvmeIo)
  /-- R298: An NVMe Read returns blocks of one generation per unit, verifying each tag. -/
  | nvmeRead (slice port sq : Nat) (io : NvmeIo)
  /-- R302: An NVMe Flush completes once earlier writes of its controller have passed step 6. -/
  | nvmeFlush (slice port sq : Nat) (io : NvmeIo)
  /-- R303: Write Zeroes swaps whole units to VALID 0 and writes zero blocks in partial units. -/
  | writeZeroes (slice port sq : Nat) (io : NvmeIo)
  /-- R303: Deallocate swaps whole units to VALID 0 and ignores partial units. -/
  | datasetManagement (slice port sq : Nat) (io : NvmeIo) (ranges : List (Nat × Nat))
  /-- R296: A cached unit write begins: a new extent is chosen and the blocks it does not cover are read. -/
  | unitDestageStart (vol unit : Nat)
  /-- R296: The uncovered blocks are verified and decrypted, and all 64 blocks and the trailer are written. -/
  | oldBlocksReadDone (vol unit : Nat) (x : ExtentData)
  /-- R296: The extent write completes, and an NVMe Flush is sent to the target. -/
  | extentWriteDone (vol unit : Nat)
  /-- R296: The target Flush completes, and the map entry compare-and-swap is issued. -/
  | targetFlushDone (vol unit : Nat)
  /-- R299: The map compare-and-swap returns; on success FLUSH with PERSIST is issued, otherwise the volume is fenced.
  -/
  | mapCasDone (vol unit : Nat) (found : W64)
  /-- R296: The map store persists the entry, the held map is updated and the old extent is freed and deallocated. -/
  | mapPersistDone (vol unit : Nat)
  /-- R305: A target or map operation times out and is retried, or fails its command after the retries. -/
  | targetOpTimeout (vol unit : Nat) (read : Option (Nat × Nat × BitVec 16))
  /-- R295: Command VOL_ATTACH takes ownership of a volume, reads its map and raises a namespace event. -/
  | volAttach (c : Cmd) (desc : Option VolDesc) (x : AttachData)
  /-- R294: Command VOL_DETACH detaches a volume after its cache drains. -/
  | volDetach (c : Cmd)
  /-- R311: Command CKPT_REGIONS declares the accelerator regions of checkpoints. -/
  | ckptRegions (c : Cmd) (tbl : Option (List Byte))
  /-- R316: Command CKPT_START starts a checkpoint with per-plan cuts. -/
  | ckptStart (c : Cmd) (list : Option (List Byte))
  /-- R319: Command CKPT_RELEASE ends the hold of held plans. -/
  | ckptRelease (c : Cmd)
  /-- R330: Command CKPT_ABORT ends a checkpoint with its slot OPEN and releases the plans. -/
  | ckptAbort (c : Cmd)
  /-- R327: Command CKPT_RESTORE restores the newest verifiable committed slot. -/
  | ckptRestore (c : Cmd) (tbl : Option (List Byte)) (rec0 rec1 : List Byte)
  /-- R313: A failure-warning condition is recorded and may start a checkpoint. -/
  | failureWarning (w : WarnKind)
  /-- R314: At the end of the quiet time, a persisting warning starts a checkpoint. -/
  | quietTimeEnd (still : List WarnKind)
  /-- R318: Every plan is at its cut and quiesced, and the snapshot captures are taken. -/
  | quiescePoint
  /-- R318: After 10 ms without the quiesce point, the plan is noted as not quiesced and the snapshot goes on. -/
  | quiesceWaitExpiry
  /-- R318: The accelerator regions are staged, the commit record is written OPEN and the checkpoint enters HELD. -/
  | regionCopyDone (poisoned : Bool)
  /-- R319: HOLD_MS or WARN_HOLD after the snapshot, the held plans are released. -/
  | holdEnd
  /-- R324: A sealed 64 KiB chunk is written to the checkpoint volume. -/
  | drainChunkWritten
  /-- R322: A write waiting 10 ms for a granule buffer abandons the checkpoint with ABANDONED_STALL. -/
  | cbwStallLimit
  /-- R323: The volume Flush after the drain completes, and the commit record is written COMMITTED. -/
  | drainFlushDone
  /-- R323: The second Flush completes, the checkpoint is committed and its report is written. -/
  | commitFlushDone
  /-- R327: A restored chunk is read, verified and written back. -/
  | restoreChunkRead (ct : List Byte) (ctr : Nat) (tag : List Byte) (dest : Option (Nat × Nat)) (sv : Saved)
  /-- R326: A write of CRD_VOL with VALID 1 reads both commit records. -/
  | crdVolWrite (val : W32) (rec0 rec1 : List Byte)
  /-- R335: Short instruction ALU.S. -/
  | aluS (core : Nat) (w : BitVec 13)
  /-- R335: Short instruction ADDI.S. -/
  | addiS (core : Nat) (w : BitVec 13)
  /-- R335: Short instruction LI.S. -/
  | liS (core : Nat) (w : BitVec 13)
  /-- R335: Short instruction SHI.S. -/
  | shiS (core : Nat) (w : BitVec 13)
  /-- R337: Short instruction LW.S loads a local word. -/
  | lwS (core : Nat) (w : BitVec 13)
  /-- R337: Short instruction SW.S stores a local word. -/
  | swS (core : Nat) (w : BitVec 13)
  /-- R335: Short instruction BEZ.S. -/
  | bezS (core : Nat) (w : BitVec 13)
  /-- R335: Short instruction BNZ.S. -/
  | bnzS (core : Nat) (w : BitVec 13)
  /-- R335: Short instruction J.S. -/
  | jS (core : Nat) (w : BitVec 13)
  /-- R345: Short instruction SIG.S signals the core's own counter. -/
  | sigS (core : Nat) (w : BitVec 13)
  /-- R345: Short instruction WAITC.S begins a consuming wait. -/
  | waitcS (core : Nat) (w : BitVec 13)
  /-- R335: Short instruction JR.S. -/
  | jrS (core : Nat) (w : BitVec 13)
  /-- R335: MISC.S NOP. -/
  | nop (core : Nat) (w : Byte)
  /-- R335: MISC.S FENCE waits until earlier stores, CRC writes and ISSUEs are accepted. -/
  | fence (core : Nat) (w : Byte)
  /-- R341: MISC.S ERET clears EXL and returns to EPC, resuming any repetition. -/
  | eret (core : Nat) (w : Byte)
  /-- R352: MISC.S HALT ends the program's share of the step or UPDATE. -/
  | halt (core : Nat) (w : Byte)
  /-- R343: MISC.S BRK raises BREAK. -/
  | brk (core : Nat) (w : Byte)
  /-- R341: MISC.S SYS raises SYSCALL. -/
  | sys (core : Nat) (w : Byte)
  /-- R335: MISC.S WFI waits for an interrupt. -/
  | wfi (core : Nat) (w : Byte)
  /-- R339: Prefix REP repeats the next instruction the count in rc. -/
  | rep (core : Nat) (w : BitVec 13)
  /-- R339: Prefix REPX repeats the next instruction n times, uninterruptibly. -/
  | repx (core : Nat) (w : BitVec 13)
  /-- R335: Long instruction ALU. -/
  | alu (core : Nat) (w : BitVec 29)
  /-- R335: Long instruction ADDI. -/
  | addi (core : Nat) (w : BitVec 29)
  /-- R335: Long instruction ANDI. -/
  | andi (core : Nat) (w : BitVec 29)
  /-- R335: Long instruction ORI. -/
  | ori (core : Nat) (w : BitVec 29)
  /-- R335: Long instruction XORI. -/
  | xori (core : Nat) (w : BitVec 29)
  /-- R335: Long instruction LUI. -/
  | lui (core : Nat) (w : BitVec 29)
  /-- R335: Long instruction SEQI. -/
  | seqi (core : Nat) (w : BitVec 29)
  /-- R335: Long instruction SLTI. -/
  | slti (core : Nat) (w : BitVec 29)
  /-- R335: Long instruction SLTIU. -/
  | sltiu (core : Nat) (w : BitVec 29)
  /-- R335: Long instruction SHI. -/
  | shi (core : Nat) (w : BitVec 29)
  /-- R337: Long instruction LW loads a local or fabric word. -/
  | lw (core : Nat) (w : BitVec 29)
  /-- R337: Long instruction SW stores a local or fabric word. -/
  | sw (core : Nat) (w : BitVec 29)
  /-- R337: Long instruction LK loads a K36 value. -/
  | lk (core : Nat) (w : BitVec 29)
  /-- R337: Long instruction SK stores a K36 value. -/
  | sk (core : Nat) (w : BitVec 29)
  /-- R337: Long instruction LBU. -/
  | lbu (core : Nat) (w : BitVec 29)
  /-- R337: Long instruction LHU. -/
  | lhu (core : Nat) (w : BitVec 29)
  /-- R337: Long instruction SB. -/
  | sb (core : Nat) (w : BitVec 29)
  /-- R337: Long instruction SH. -/
  | sh (core : Nat) (w : BitVec 29)
  /-- R335: Long instruction BEZ. -/
  | bez (core : Nat) (w : BitVec 29)
  /-- R335: Long instruction BNZ. -/
  | bnz (core : Nat) (w : BitVec 29)
  /-- R335: Long instruction JAL. -/
  | jal (core : Nat) (w : BitVec 29)
  /-- R335: Long instruction JALR. -/
  | jalr (core : Nat) (w : BitVec 29)
  /-- R336: Long instruction KOP performs a K36 operation. -/
  | kop (core : Nat) (w : BitVec 29)
  /-- R342: Long instruction CVT converts between formats. -/
  | cvt (core : Nat) (w : BitVec 29)
  /-- R335: Long instruction CSR reads, writes, sets or clears a control register. -/
  | csr (core : Nat) (w : BitVec 29)
  /-- R350: Long instruction CRC feeds bytes to the cluster CRC unit. -/
  | crc (core : Nat) (w : BitVec 29)
  /-- R351: Long instruction ISSUE places a descriptor in an array, vector or DMA queue. -/
  | issue (core : Nat) (w : BitVec 29)
  /-- R345: SYNC SIG adds one to the core's own counter. -/
  | syncSig (core : Nat) (w : BitVec 29)
  /-- R345: SYNC SIGR adds one to a counter of another allowed core. -/
  | syncSigr (core : Nat) (w : BitVec 29)
  /-- R345: SYNC WAITC begins a consuming wait. -/
  | syncWaitc (core : Nat) (w : BitVec 29)
  /-- R345: SYNC WAITO begins an observing wait. -/
  | syncWaito (core : Nat) (w : BitVec 29)
  /-- R345: SYNC TRYC takes one from the count if possible. -/
  | syncTryc (core : Nat) (w : BitVec 29)
  /-- R345: SYNC RDC reads the count. -/
  | syncRdc (core : Nat) (w : BitVec 29)
  /-- R345: SYNC ADJC adjusts the count by a signed amount. -/
  | syncAdjc (core : Nat) (w : BitVec 29)
  /-- R345: SYNC CLRC clears the count. -/
  | syncClrc (core : Nat) (w : BitVec 29)
  /-- R346: A counter releases its observing waiters, then consuming waiters in order of their waits. -/
  | syncWaitRelease (core ctr : Nat)
  /-- R348: An issued operation completes and signals its DONE counter after its writes are acknowledged. -/
  | issueOpComplete (core target : Nat)
  /-- R341: A mailbox interrupt is taken at an instruction boundary while IE is 1 and EXL is 0. -/
  | interruptTake (core : Nat)
  /-- R344: A Tally overflow of the sampled event raises the core's sampling interrupt. -/
  | samplingInterrupt (core : Nat)
  /-- R343: Clearing KRF_CORE_CTRL.DEBUG resumes a sequencer core halted by BREAK. -/
  | debugResume (core : Nat)
  /-- R354: KRF_DUMP_CTRL.START writes one counter dump record per selected core. -/
  | stateDump (port : Nat) (val : W32)
  /-- R355: Watched counters that stay waited on without signals for WINDOW µs fire the detector. -/
  | deadlockFire
  /-- R376: Command NEGOTIATE agrees interface versions for the issuer. -/
  | negotiate (c : Cmd)
  /-- R377: Command IDENTIFY returns the ROM version, stepping, node ID, lead, boot stage and EPOCH. -/
  | identify (c : Cmd)
  /-- R413: Command POWER_STATE moves the device to a power state W0 to W4. -/
  | powerState (c : Cmd) (quick : Bool)
  /-- R421: Command POWER_CAP sets the input power cap. -/
  | powerCap (c : Cmd)
  /-- R364: Command IMAGE_LOAD stages and verifies a firmware image. -/
  | imageLoad (c : Cmd) (img : Option FwImage)
  /-- R380: Command IMAGE_ACTIVATE hands each core of a kind over to the staged image. -/
  | imageActivate (c : Cmd)
  /-- R362: Command FLASH_COMMIT writes a staged image to the copy not in use and verifies it. -/
  | flashCommit (c : Cmd)
  /-- R379: Command CORE_RESTART restarts one firmware processor and clears its crash count. -/
  | coreRestart (c : Cmd)
  /-- R408: Command KEY_SLOT_ALLOC allocates a slot and returns its challenge. -/
  | keySlotAlloc (c : Cmd)
  /-- R397: Command KEY_SLOT_LOAD unwraps a signed blob into an ALLOCATED slot. -/
  | keySlotLoad (c : Cmd) (blob : Option KeyBlob)
  /-- R408: Command KEY_SLOT_ERASE erases a slot, and frees it or gives it a new challenge. -/
  | keySlotErase (c : Cmd)
  /-- R408: Command KEY_SLOT_QUERY returns a slot's state, use, owner, counter and limit. -/
  | keySlotQuery (c : Cmd)
  /-- R399: Command SESSION_OPEN opens an SPDM session with a peer as requester. -/
  | sessionOpen (c : Cmd)
  /-- R408: Command SESSION_CLOSE ends a session with END_SESSION. -/
  | sessionClose (c : Cmd)
  /-- R373: A write of a command queue tail makes the lead fetch and run new entries in order. -/
  | sqTailWrite (via : Via) (val : W32) (fetches : List Fetch)
  /-- R373: A write of a command completion head frees room, releasing held completions and entries. -/
  | cqHeadWrite (via : Via) (val : W32)
  /-- R383: Setting SQ_CTRL.EN starts both rings at index 0 with completion phase 1; clearing it discards owed
  completions. -/
  | sqEnableWrite (via : Via) (val : W32)
  /-- R383: Setting SCL_MBOX_CTRL.GO submits the mailbox entry to the lead. -/
  | mboxGo (port : Nat)
  /-- R368: Every 25 ms the lead writes a renewal to both lease cells. -/
  | leaseRenew (die : Die) (acks : List Die)
  /-- R368: A lead without a counted renewal for 100 ms stops acting as lead. -/
  | leaseLoss (die : Die)
  /-- R369: A follower whose cell saw no renewal for 100 ms claims the lease with EPOCH + 1. -/
  | leaseClaim (die : Die) (seen : Bool)
  /-- R370: A conflict that still stands after 100 ms raises a fatal fault. -/
  | leaseConflictTimeout
  /-- R176: Stage SRAM_TEST self-tests and repairs every SRAM bank. -/
  | sramTestStage (res : List (Nat × Nat))
  /-- R361: Stage IMAGE_READ reads both headers and the chosen image copy. -/
  | imageReadStage (flash : Option (Option CfgImage × Option CfgImage))
  /-- R360: Stage VERIFY checks the signature, chain, versions and consistency of a copy. -/
  | verifyStage
  /-- R365: Stage APPLY loads settings, trains LPDDR5X, starts Ring, elects the lead and binds image slices. -/
  | applyStage (full : List (Nat × Nat)) (badMacros : List Nat) (idMatch : Bool)
  /-- R378: A firmware core's watchdog fires, and the ROM reloads the image and context. -/
  | watchdogExpiry (core : Nat)
  /-- R378: A restarted core resumes from its save point within 50 ms. -/
  | coreResume (core : Nat) (saved : Option Core)
  /-- R380: The old image writes the handoff block, and the new image accepts it or the old one restarts. -/
  | handoffSavePoint (core : Nat) (blockOk : Bool)
  /-- R381: A deferred activation is abandoned when the emergency lasts 60 s. -/
  | activationAbandon (kind : Nat)
  /-- R374: A PLDM RequestUpdate starts a sideband firmware update. -/
  | pldmRequestUpdate
  /-- R374: A PLDM PassComponentTable names the components of the update. -/
  | pldmPassComponentTable (comps : List Nat)
  /-- R374: A PLDM UpdateComponent starts the transfer of one component. -/
  | pldmUpdateComponent (component : Nat)
  /-- R374: A response to RequestFirmwareData delivers component bytes, then staging and checks follow. -/
  | pldmFirmwareData (img : FwImage)
  /-- R374: A PLDM ActivateFirmware activates the components, or cold-resets for a configuration image. -/
  | pldmActivateFirmware
  /-- R374: A PLDM GetStatus returns the update agent state. -/
  | pldmGetStatus
  /-- R390: SPDM GET_VERSION request. -/
  | spdmGetVersion (via : SpdmVia)
  /-- R390: SPDM GET_CAPABILITIES request. -/
  | spdmGetCapabilities (via : SpdmVia) (version : Nat)
  /-- R390: SPDM NEGOTIATE_ALGORITHMS request. -/
  | spdmNegotiateAlgorithms (via : SpdmVia) (supported : Bool)
  /-- R390: SPDM GET_DIGESTS request. -/
  | spdmGetDigests (via : SpdmVia)
  /-- R390: SPDM GET_CERTIFICATE returns the slot 0 chain. -/
  | spdmGetCertificate (via : SpdmVia) (slot offset len : Nat)
  /-- R390: SPDM CHALLENGE is answered with a signature by IDK. -/
  | spdmChallenge (via : SpdmVia) (slot : Nat) (nonce : BitVec 256)
  /-- R391: SPDM GET_MEASUREMENTS returns signed measurements of one instant. -/
  | spdmGetMeasurements (via : SpdmVia) (index : Nat) (signed : Bool) (nonce : BitVec 256)
  /-- R399: SPDM KEY_EXCHANGE from a Worium peer starts a session; from DOE or MCTP it is unsupported. -/
  | spdmKeyExchange (via : SpdmVia)
  /-- R400: SPDM FINISH completes a session, and the session keys are loaded into slots. -/
  | spdmFinish (via : SpdmVia) (chk : PeerCheck)
  /-- R410: SPDM END_SESSION from a peer closes a session. -/
  | spdmEndSession (via : SpdmVia) (id : Nat)
  /-- R390: SPDM HEARTBEAT keeps a session alive. -/
  | spdmHeartbeat (via : SpdmVia) (id : Nat)
  /-- R399: A VENDOR_DEFINED_REQUEST names the peer slice or plan, and exchanges versions and QPNs. -/
  | spdmVendorDefined (via : SpdmVia) (vendor : Nat) (slice : Option Nat) (planDigest : BitVec 256) (versions : List (BitVec 16)) (qpn : Nat)
  /-- R399: A peer's SPDM response advances a session open in progress. -/
  | spdmResponseReceive (id : Nat) (resp : SpdmResp)
  /-- R408: No handshake answer within 2 s ends SESSION_OPEN with PEER_UNREACHABLE. -/
  | sessionHandshakeTimeout (id : Nat)
  /-- R405: A SEAL request encrypts and tags under the next counter value. -/
  | cipherSeal (die : Die) (r : CipherReq)
  /-- R405: An OPEN request verifies the tag before it releases plaintext. -/
  | cipherOpen (die : Die) (r : CipherReq)
  /-- R405: An XTS_ENC request encrypts a 4,096 B data unit. -/
  | cipherXtsEnc (die : Die) (r : CipherReq)
  /-- R405: An XTS_DEC request decrypts a 4,096 B data unit. -/
  | cipherXtsDec (die : Die) (r : CipherReq)
  /-- R405: A GMAC request computes a tag under the next counter value. -/
  | cipherGmac (die : Die) (r : CipherReq)
  /-- R402: 1 s after a session move, the old session's slots are freed. -/
  | oldSessionExpiry (id : Nat)
  /-- R395: Background re-sealing ends, and the old internal key is erased. -/
  | resealDone (n : Nat)
  /-- R407: A failed entropy health test clears TRNG_OK and records a contained fault. -/
  | entropyFail (die : Die)
  /-- R411: A slot quota write is discarded when it breaks the sum or held limits. -/
  | brkSliceSlotsWrite (port : Nat) (val : W32)
  /-- R414: A deferred power-state transition reaches its target, and its final completion is written. -/
  | powerTransitionDone
  /-- R414: 1 s into W2 entry, plans still running are stopped as with IMMEDIATE. -/
  | w2StopTimeout
  /-- R418: The input falls below UV_WARN; the Mill is clamped to 25 % and the dip is recorded. -/
  | supplyDipStart
  /-- R418: The input stays above UV_WARN + 0.5 V for 100 µs, and the clamp hold starts. -/
  | supplyDipEnd
  /-- R418: 50 ms after a dip ends, the supply-dip clamp releases. -/
  | dipClampRelease
  /-- R419: A junction at or above 100 °C clamps the Mill. -/
  | thermalClampSet
  /-- R419: All junctions below 97 °C for 10 ms release the thermal clamp. -/
  | thermalClampRelease
  /-- R419: A 1 ms average input above 1.05 × CEILING clamps the Mill. -/
  | powerClampSet
  /-- R419: 10 ms at or below CEILING releases the input-power clamp. -/
  | powerClampRelease
  /-- R420: An input below 40.0 V for 1 µs turns off the stages. -/
  | uvResetTrip
  /-- R420: An input above 64.0 V for 1 µs turns off the stages. -/
  | ovTrip
  /-- R420: A junction at or above 105 °C turns off the stages. -/
  | thermalTrip
  /-- R420: After a UV_RESET trip, an input at or above 48.0 V for 10 ms restarts the device by cold reset. -/
  | tripRestart
  /-- R421: Every 100 µs the Rangers set MCLK and voltage to meet the cap and T_TARGET. -/
  | rangerLoop (volt cur power : Nat) (temps : List Nat) (mclk : List (Nat × Nat)) (overCap : Bool)
  /-- R426: Input power is applied and PWRGOOD rises within 20 ms. -/
  | powerOn
  /-- R454: MRST_N starts a cold reset that runs from its release once clocks are stable. -/
  | coldReset (low xclkA xclkB restart : Bool)
  /-- R454: WRST_N starts a warm reset that runs stages 2 to 6. -/
  | warmReset (low : Bool)
  /-- R431: An error line event sets FLT_STATUS or FLT_CE and writes a stamped fault record. -/
  | faultEvent (src : Nat) (cls : FClass) (code unit count addr : Nat)
  /-- R433: The FAULT_N pulse ends, and the pin follows FLT_PIN_CTRL.DRIVE. -/
  | faultNPulseEnd
  /-- R432: A write of 1 to FLT_FORCE raises a forced event of FLT_FORCE_CLASS on a source. -/
  | fltForceWrite (port : Nat) (mask : W64)
  /-- R436: A write of FLT_LOG_IDX latches one log record into FLT_LOG_DATA. -/
  | fltLogIdxWrite (port : Nat) (pos : W32)
  /-- R439: A write of TLY_CTRL.SNAP copies every count into the snapshot bank at one TCLK edge. -/
  | tlySnapWrite
  /-- R439: The snapshot bank is filled, SNAP_BUSY clears and SNAP records may be streamed. -/
  | snapshotDone
  /-- R441: A write of TLY_POL_SEL latches the four counts of a policer. -/
  | tlyPolSelWrite (port : Nat) (val : W32)
  /-- R442: Every 10 s the device discovers MCTP endpoints on each port and assigns EIDs. -/
  | mctpDiscovery (port : Nat) (answers : List (Nat × List Nat))
  /-- R442: Every POLL ms the device polls endpoint sensors and makes DEVSENSOR records. -/
  | sensorPoll (port ix : Nat)
  /-- R442: A PLDM sensor reading arrives and becomes a SENSOR record. -/
  | sensorResponse (port ix id opState present dataSize unitMod baseUnit : Nat) (reading : W64)
  /-- R442: A poll without answer in 100 ms counts; three in a row mark the endpoint absent. -/
  | sensorPollTimeout (port ix : Nat)
  /-- R442: A PDR change event makes the device read the endpoint's PDR repository again. -/
  | pdrChangeEvent (port ix : Nat) (sensors : List Nat)
  /-- R443: The Scaler sends an authenticated record datagram to a collector within the rate limit, dropping by
  priority. -/
  | telemetryDatagram (drop : Nat) (devSensor : Bool)
  /-- R452: XCLK_A missing for more than 10 µs raises a fatal CLOCK fault. -/
  | xclkALoss
  /-- R452: Missing XCLK_B takes every PCIe link down, with a hot reset of each port. -/
  | xclkBLoss
  /-- R458: A SerDes macro that fails three lock attempts within 1 s is retired, and its lane takes a spare. -/
  | laneMacroFail (die : Die) (m : Nat)
  /-- R276: A PCIe port's link finishes training and comes up, so the pages of slices bound on other ports reappear
  there and their held requests on that port resume. -/
  | pcieLinkUp (p speed width : Nat) (flit : Bool)
  /-- R416: An Ethernet port's link trains and comes up, and the port carries traffic again. -/
  | ethLinkUp (port : Nat)
  /-- R182: After an RNR NAK, the RNR timer of the queue pair runs out and the request is sent again, or the queue
  pair fails with RNR_RETRY_EXC when no RNR retries are left. -/
  | rnrTimerExpiry (qpn : Nat)
  /-- R292: A remote target read issued for an NVMe Read completes, and its blocks are verified by tag, decrypted and
  returned, poisoned where the tag fails. -/
  | targetReadDone (slice port sq : Nat) (cid : BitVec 16) (unit : Nat) (x : ExtentData)
  /-- R265: A configuration write that changes a function's tag enables or Device Control 2 recomputes the tag reserve
  and slot ranges, or the completion timeout. -/
  | configurationWrite (p : Nat) (kind : FnKind) (w : CfgWrite)
  /-- R362: The flash write and read-back of a staged image end, and the deferred FLASH_COMMIT completes, or PLDM
  ApplyComplete follows. -/
  | flashWriteDone (ok : Bool) (left : Option CfgImage)
  deriving DecidableEq, Repr

end Sys2Proof
end

