-- ==== Sys2Proof/Machine/NumFmt.lean ====
section
/-! DEFINITION. Number formats: encodings, conversion, rounding, scaled groups and exact arithmetic
(02_number_formats R48 to R73). -/

namespace Sys2Proof.Machine

/-! ### Formats (Tables 2.1 and 2.2) -/

def fB64 : FloatFmt := ⟨11, 52, 1023, true, true, 0x7FEFFFFFFFFFFFFF, 0x7FF8000000000000⟩
def fB32 : FloatFmt := ⟨8, 23, 127, true, true, 0x7F7FFFFF, 0x7FC00000⟩
def fBf16 : FloatFmt := ⟨8, 7, 127, true, true, 0x7F7F, 0x7FC0⟩
def fB16 : FloatFmt := ⟨5, 10, 15, true, true, 0x7BFF, 0x7E00⟩
def fE4m3 : FloatFmt := ⟨4, 3, 7, false, true, 0x7E, 0x7F⟩
def fE5m2 : FloatFmt := ⟨5, 2, 15, true, true, 0x7B, 0x7E⟩
def fE3m2 : FloatFmt := ⟨3, 2, 3, false, false, 0x1F, 0⟩
def fE2m3 : FloatFmt := ⟨2, 3, 1, false, false, 0x1F, 0⟩
def fE2m1 : FloatFmt := ⟨2, 1, 1, false, false, 0x7, 0⟩
def fK36 : FloatFmt := ⟨9, 26, 255, true, true, 0x7FBFFFFFF, 0x7FE000000⟩

/-- The format of a code of Table 2.1; none for a reserved code (R48). -/
def fmtOf : Nat → Option Fmt
  | 0 => some (.flt fB64)
  | 1 => some (.flt fB32)
  | 2 => some (.flt fBf16)
  | 3 => some (.flt fB16)
  | 4 => some (.flt fE4m3)
  | 5 => some (.flt fE5m2)
  | 6 => some (.flt fE3m2)
  | 7 => some (.flt fE2m3)
  | 8 => some (.flt fE2m1)
  | 9 => some (.int 32)
  | 10 => some (.int 16)
  | 11 => some (.int 8)
  | 12 => some (.int 4)
  | 13 => some .e8m0
  | 14 => some .ue4m3
  | 15 => some (.flt fK36)
  | _ => none

/-- The width in bits of a format code. -/
def fmtBits : Nat → Nat
  | 0 => 64
  | 1 => 32
  | 2 => 16
  | 3 => 16
  | 4 => 8
  | 5 => 8
  | 6 => 6
  | 7 => 6
  | 8 => 4
  | 9 => 32
  | 10 => 16
  | 11 => 8
  | 12 => 4
  | 13 => 8
  | 14 => 8
  | 15 => 36
  | _ => 0

/-- Bytes of an element that stands alone in memory: K36 takes a 64-bit container (R55). -/
def fmtBytes (c : Nat) : Nat := if c = 15 then 8 else (fmtBits c + 7) / 8

/-! ### Events (R78) -/

def Events.zero : Events := ⟨0, 0, 0, 0, 0, 0⟩

def Events.add (a b : Events) : Events :=
  ⟨a.sat + b.sat, a.inf + b.inf, a.nan + b.nan, a.nanGrp + b.nanGrp, a.nanLost + b.nanLost,
    a.invalid + b.invalid⟩

def evSat : Events := { Events.zero with sat := 1 }
def evInf : Events := { Events.zero with inf := 1 }
def evNan : Events := { Events.zero with nan := 1 }
def evNanGrp : Events := { Events.zero with nanGrp := 1 }
def evNanLost : Events := { Events.zero with nanLost := 1 }
def evInvalid : Events := { Events.zero with invalid := 1 }

/-! ### Lists of operations with events -/

/-- Apply an operation with events to a list. -/
def mapEv {α β : Type} (f : α → β × Events) : List α → List β × Events
  | [] => ([], .zero)
  | a :: t =>
    let x := f a
    let r := mapEv f t
    (x.1 :: r.1, x.2.add r.2)

/-- Apply an operation with events and the position of each element. -/
def mapIxEv {α β : Type} (f : Nat → α → β × Events) : Nat → List α → List β × Events
  | _, [] => ([], .zero)
  | i, a :: t =>
    let x := f i a
    let r := mapIxEv f (i + 1) t
    (x.1 :: r.1, x.2.add r.2)

/-- Apply an operation with events to two lists. -/
def zipEv {α β γ : Type} (f : α → β → γ × Events) : List α → List β → List γ × Events
  | a :: t, b :: u =>
    let x := f a b
    let r := zipEv f t u
    (x.1 :: r.1, x.2.add r.2)
  | _, _ => ([], .zero)

/-- Fold an operation with events over a list. -/
def foldEv {α β : Type} (f : β → α → β × Events) : β → List α → β × Events
  | b, [] => (b, .zero)
  | b, a :: t =>
    let x := f b a
    let r := foldEv f x.1 t
    (r.1, x.2.add r.2)

/-- One operation after another: the events of both. -/
def evBind {α β : Type} (x : α × Events) (f : α → β × Events) : β × Events :=
  let r := f x.1
  (r.1, x.2.add r.2)

/-! ### Decoding (R49, R52, R56, R57) -/

/-- The K36 poison NaN (R54). -/
def poisonNan : Nat := 0xFFE0000A5

/-- The exact value of an encoding of a floating-point format (R49, Table 2.2). -/
def decodeFlt (f : FloatFmt) (bits : Nat) : FVal :=
  let neg := bits / 2 ^ (f.eb + f.mb) % 2 == 1
  let e := bits / 2 ^ f.mb % 2 ^ f.eb
  let m := bits % 2 ^ f.mb
  let mag := bits % 2 ^ (f.eb + f.mb)
  if f.hasInf && e == 2 ^ f.eb - 1 then
    if m == 0 then .inf neg
    else .nan (m / 2 ^ (f.mb - 1) == 0) (f.eb == 9 && bits == poisonNan)
  else if f.hasNan && !f.hasInf && mag > f.maxCode then .nan false false
  else if e == 0 then .fin neg m (1 - (f.bias : Int) - f.mb)
  else .fin neg (2 ^ f.mb + m) ((e : Int) - f.bias - f.mb)

/-- Two's complement value of the low `w` bits. -/
def sint (w bits : Nat) : Int :=
  let v := bits % 2 ^ w
  if v ≥ 2 ^ (w - 1) then (v : Int) - (2 ^ w : Nat) else v

/-- The exact value of an integer. -/
def ofInt (i : Int) : FVal := .fin (decide (i < 0)) i.natAbs 0

/-- The exact value of an encoding (R49, R56, R57). -/
def decodeFmt (fm : Fmt) (bits : Nat) : FVal :=
  match fm with
  | .flt f => decodeFlt f bits
  | .int w => ofInt (sint w bits)
  | .e8m0 => if bits % 256 = 255 then .nan false false else .fin false 1 ((bits % 256 : Nat) - 127 : Int)
  | .ue4m3 => if bits % 256 ≥ 127 then .nan false false else decodeFlt fE4m3 bits

/-- The exact value of an encoding of a format code; NaN for a reserved code, which callers refuse first. -/
def decodeCode (c bits : Nat) : FVal :=
  match fmtOf c with
  | some fm => decodeFmt fm bits
  | none => .nan false false

/-! ### Rounding (R60 to R64) -/

/-- Shift a magnitude down by `s` bits under a rounding mode; `sticky` says that non-zero bits lie below. -/
def roundShift (mant s : Nat) (sticky : Bool) (r : Round) : Nat :=
  if s = 0 then mant
  else
    let lo := mant / 2 ^ s
    let rem := mant % 2 ^ s
    let half := 2 ^ (s - 1)
    match r with
    | .rz => lo
    | .rne => if rem > half || (rem == half && (sticky || lo % 2 == 1)) then lo + 1 else lo
    | .sr x =>
      if rem == 0 && !sticky then lo
      else
        let d := if s ≥ 16 then rem / 2 ^ (s - 16) else rem * 2 ^ (16 - s)
        if d + x ≥ 65536 then lo + 1 else lo

/-- The exponent of the top bit of a non-zero magnitude: floor(log2 (mant × 2^exp)). -/
def topExp (mant : Nat) (exp : Int) : Int := (Nat.log2 mant : Int) + exp

/-- Round a magnitude to multiples of 2^q. -/
def roundAt (mant : Nat) (exp q : Int) (sticky : Bool) (r : Round) : Nat :=
  if q ≤ exp then mant * 2 ^ (exp - q).toNat
  else roundShift mant (q - exp).toNat sticky r

/-- The magnitude code of a finite value in a floating-point format, before overflow is judged. -/
def magCode (f : FloatFmt) (mant : Nat) (exp : Int) (sticky : Bool) (r : Round) : Nat :=
  if mant = 0 then 0
  else
    let emin : Int := 1 - (f.bias : Int)
    let e := topExp mant exp
    let q := max e emin - f.mb
    let m := roundAt mant exp q sticky r
    let field := (q + f.mb + f.bias).toNat
    if m < 2 ^ f.mb then m else (field - 1) * 2 ^ f.mb + m

/-- Encode an exact value in a floating-point format with the events it counts (Table 2.4, R63). `satInf`
says that overflow saturates: the format has no infinity, OVF is 1, or the element is in a scaled group. -/
def encodeFlt (f : FloatFmt) (x : Exact) (r : Round) (ovf : Bool) : Nat × Events :=
  let sign := fun neg : Bool => if neg then 2 ^ (f.eb + f.mb) else 0
  let sat := ovf || !f.hasInf
  let infCode := (2 ^ f.eb - 1) * 2 ^ f.mb
  match x.val with
  | .nan s p =>
    let ev := if s then evInvalid else .zero
    if f.hasNan then (if p && f.eb == 9 then poisonNan else f.nanCode, ev) else (0, ev.add evNanLost)
  | .inf neg => if sat then (sign neg + f.maxCode, evSat) else (sign neg + infCode, .zero)
  | .fin neg mant exp =>
    let c := magCode f mant exp x.sticky r
    if c ≤ f.maxCode then (sign neg + c, .zero)
    else if sat then (sign neg + f.maxCode, evSat)
    else (sign neg + infCode, evInf)

/-- Encode an exact value as an integer of `w` bits, two's complement (Table 2.4). -/
def encodeInt (w : Nat) (x : Exact) (r : Round) : Nat × Events :=
  let top := 2 ^ (w - 1) - 1
  match x.val with
  | .nan _ _ => (0, evInvalid)
  | .inf neg => (if neg then 2 ^ (w - 1) else top, evSat)
  | .fin neg mant exp =>
    let m := roundAt mant exp 0 x.sticky r
    if neg then
      if m ≤ 2 ^ (w - 1) then ((2 ^ w - m) % 2 ^ w, .zero) else (2 ^ (w - 1), evSat)
    else if m ≤ top then (m, .zero) else (top, evSat)

/-- Encode an exact value as an E8M0 scale (Table 2.4). -/
def encodeE8m0 (x : Exact) : Nat × Events :=
  match x.val with
  | .nan s _ => (0xFF, if s then evInvalid else .zero)
  | .inf _ => (0xFF, evInvalid)
  | .fin neg mant exp =>
    if mant = 0 then (0, evInvalid)
    else
      let sgn := if neg then evInvalid else .zero
      let e := topExp mant exp
      if e > 127 then (0xFE, sgn.add evSat)
      else if e < -127 then (0, sgn.add evSat)
      else ((e + 127).toNat, sgn)

/-- Encode an exact value as a UE4M3 scale (Table 2.4). -/
def encodeUe4m3 (x : Exact) (r : Round) : Nat × Events :=
  match x.val with
  | .nan s _ => (0x7F, if s then evInvalid else .zero)
  | .inf _ => (0x7F, evInvalid)
  | .fin neg mant exp =>
    let sgn := if neg && mant != 0 then evInvalid else .zero
    let c := magCode fE4m3 mant exp x.sticky r
    if c ≤ fE4m3.maxCode then (c, sgn) else (0x7E, sgn.add evSat)

/-- Deliver an exact value to a format code (R62, Table 2.4). -/
def encodeCode (c : Nat) (x : Exact) (r : Round) (ovf : Bool) : Nat × Events :=
  match fmtOf c with
  | some (.flt f) => encodeFlt f x r ovf
  | some (.int w) => encodeInt w x r
  | some .e8m0 => encodeE8m0 x
  | some .ue4m3 => encodeUe4m3 x r
  | none => (0, .zero)

/-- An exact value. -/
def FVal.exact (v : FVal) : Exact := ⟨v, false⟩

/-- Convert between two unscaled formats. -/
def convert (src dst bits : Nat) (r : Round) (ovf : Bool) : Nat × Events :=
  encodeCode dst (decodeCode src bits).exact r ovf

/-! ### Exact arithmetic (R51, R52, R61) -/

def FVal.isNan : FVal → Bool
  | .nan _ _ => true
  | _ => false

def FVal.isFin : FVal → Bool
  | .fin _ _ _ => true
  | _ => false

def FVal.isZero : FVal → Bool
  | .fin _ 0 _ => true
  | _ => false

def FVal.neg : FVal → FVal
  | .nan s p => .nan s p
  | .inf n => .inf (!n)
  | .fin n m e => .fin (!n) m e

def FVal.abs : FVal → FVal
  | .nan s p => .nan s p
  | .inf _ => .inf false
  | .fin _ m e => .fin false m e

def FVal.isPoison : FVal → Bool
  | .nan _ p => p
  | _ => false

def FVal.signalling : FVal → Bool
  | .nan s _ => s
  | _ => false

/-- The quiet NaN that an operation with NaN operands gives: the poison NaN when one operand is it (R54). -/
def nanOf (xs : List FVal) : FVal := .nan false (xs.any FVal.isPoison)

/-- The invalid events of signalling operands (R52): one per operation. -/
def evOperands (xs : List FVal) : Events := if xs.any FVal.signalling then evInvalid else .zero

/-- The exact sum of two values, and whether a NaN was produced from non-NaN operands. -/
def addVal (a b : FVal) : FVal × Bool :=
  match a, b with
  | .nan _ _, _ => (nanOf [a, b], false)
  | _, .nan _ _ => (nanOf [a, b], false)
  | .inf n, .inf k => if n = k then (.inf n, false) else (.nan false false, true)
  | .inf n, _ => (.inf n, false)
  | _, .inf n => (.inf n, false)
  | .fin n m e, .fin k p q =>
    let lo := min e q
    let x : Int := (m * 2 ^ (e - lo).toNat : Nat)
    let y : Int := (p * 2 ^ (q - lo).toNat : Nat)
    let s := (if n then -x else x) + (if k then -y else y)
    if s = 0 then (.fin (n && k) 0 lo, false)
    else (.fin (decide (s < 0)) s.natAbs lo, false)

/-- The exact product of two values. -/
def mulVal (a b : FVal) : FVal × Bool :=
  match a, b with
  | .nan _ _, _ => (nanOf [a, b], false)
  | _, .nan _ _ => (nanOf [a, b], false)
  | .inf n, .inf k => (.inf (n != k), false)
  | .inf n, .fin k m _ => if m = 0 then (.nan false false, true) else (.inf (n != k), false)
  | .fin k m _, .inf n => if m = 0 then (.nan false false, true) else (.inf (n != k), false)
  | .fin n m e, .fin k p q => (.fin (n != k) (m * p) (e + q), false)

/-- The exact fused product and sum a × b + c. -/
def fmaVal (a b c : FVal) : FVal × Bool :=
  if a.isNan || b.isNan || c.isNan then (nanOf [a, b, c], false)
  else
    let p := mulVal a b
    if p.2 then p else addVal p.1 c

/-- Bits of quotients and roots that are kept above the sticky bit: more than twice any precision. -/
def divBits : Nat := 160

/-- The quotient of two values with its sticky bit. -/
def divVal (a b : FVal) : Exact × Bool :=
  match a, b with
  | .nan _ _, _ => (⟨nanOf [a, b], false⟩, false)
  | _, .nan _ _ => (⟨nanOf [a, b], false⟩, false)
  | .inf _, .inf _ => (⟨.nan false false, false⟩, true)
  | .inf n, .fin k _ _ => (⟨.inf (n != k), false⟩, false)
  | .fin n _ _, .inf k => (⟨.fin (n != k) 0 0, false⟩, false)
  | .fin n m e, .fin k p q =>
    if p = 0 then (if m = 0 then (⟨.nan false false, false⟩, true) else (⟨.inf (n != k), false⟩, false))
    else
      let sh := divBits + Nat.log2 p
      let t := m * 2 ^ sh
      (⟨.fin (n != k) (t / p) (e - q - sh), t % p != 0⟩, false)

/-- Integer square root by Newton steps, `fuel` of them at most. -/
def isqrtAux (n x : Nat) : Nat → Nat
  | 0 => x
  | fuel + 1 =>
    let y := (x + n / x) / 2
    if y < x then isqrtAux n y fuel else x

/-- floor(√n). -/
def isqrt (n : Nat) : Nat :=
  if n = 0 then 0 else isqrtAux n (2 ^ (Nat.log2 n / 2 + 1)) (Nat.log2 n + 8)

/-- The square root of a value with its sticky bit. -/
def sqrtVal (a : FVal) : Exact × Bool :=
  match a with
  | .nan _ _ => (⟨nanOf [a], false⟩, false)
  | .inf n => if n then (⟨.nan false false, false⟩, true) else (⟨.inf false, false⟩, false)
  | .fin n m e =>
    if m = 0 then (⟨.fin n 0 e, false⟩, false)
    else if n then (⟨.nan false false, false⟩, true)
    else
      let odd := e % 2 = 1
      let m' := (if odd then 2 * m else m) * 2 ^ (2 * divBits)
      let e' := (if odd then e - 1 else e) - 2 * divBits
      let s := isqrt m'
      (⟨.fin false s (e' / 2), s * s != m'⟩, false)

/-- 0, 1 or 2 as a value lies below, at or above another; 3 when one of them is NaN. -/
def cmpVal (a b : FVal) : Nat :=
  match a, b with
  | .nan _ _, _ => 3
  | _, .nan _ _ => 3
  | .inf n, .inf k => if n = k then 1 else if n then 0 else 2
  | .inf n, _ => if n then 0 else 2
  | _, .inf n => if n then 2 else 0
  | .fin n m e, .fin k p q =>
    let lo := min e q
    let x : Int := (m * 2 ^ (e - lo).toNat : Nat)
    let y : Int := (p * 2 ^ (q - lo).toNat : Nat)
    let x := if n then -x else x
    let y := if k then -y else y
    if x < y then 0 else if x = y then 1 else 2

/-- IEEE 754-2019 maximum (R61): NaN operands give NaN, and −0 orders below +0. -/
def maxVal (a b : FVal) : FVal :=
  if a.isNan || b.isNan then nanOf [a, b]
  else match cmpVal a b with
    | 0 => b
    | 2 => a
    | _ => match a with
      | .fin true _ _ => b
      | _ => a

/-- IEEE 754-2019 minimum (R61). -/
def minVal (a b : FVal) : FVal :=
  if a.isNan || b.isNan then nanOf [a, b]
  else match cmpVal a b with
    | 0 => a
    | 2 => b
    | _ => match a with
      | .fin false _ _ => b
      | _ => a

/-! ### Operations of one format, rounded RNE (R60, R61) -/

/-- Deliver an operation's result: the NaN events of R78 with those of the delivery. -/
def deliver (c : Nat) (ops : List FVal) (x : Exact) (made : Bool) : Nat × Events :=
  let r := encodeCode c x .rne false
  (r.1, (evOperands ops).add ((if made then evNan else .zero).add r.2))

/-- An operation on the values of operands, delivered in a format. -/
def addOp (c : Nat) (x y : FVal) : Nat × Events := deliver c [x, y] (addVal x y).1.exact (addVal x y).2

def subOp (c : Nat) (x y : FVal) : Nat × Events := deliver c [x, y] (addVal x y.neg).1.exact (addVal x y.neg).2

def mulOp (c : Nat) (x y : FVal) : Nat × Events := deliver c [x, y] (mulVal x y).1.exact (mulVal x y).2

def fmaOp (c : Nat) (x y z : FVal) : Nat × Events := deliver c [x, y, z] (fmaVal x y z).1.exact (fmaVal x y z).2

def divOp (c : Nat) (x y : FVal) : Nat × Events := deliver c [x, y] (divVal x y).1 (divVal x y).2

def sqrtOp (c : Nat) (x : FVal) : Nat × Events := deliver c [x] (sqrtVal x).1 (sqrtVal x).2

def minOp (c : Nat) (x y : FVal) : Nat × Events := deliver c [x, y] (minVal x y).exact false

def maxOp (c : Nat) (x y : FVal) : Nat × Events := deliver c [x, y] (maxVal x y).exact false

def fAdd (c a b : Nat) : Nat × Events := addOp c (decodeCode c a) (decodeCode c b)

def fSub (c a b : Nat) : Nat × Events := subOp c (decodeCode c a) (decodeCode c b)

def fMul (c a b : Nat) : Nat × Events := mulOp c (decodeCode c a) (decodeCode c b)

def fFma (c a b d : Nat) : Nat × Events := fmaOp c (decodeCode c a) (decodeCode c b) (decodeCode c d)

def fDiv (c a b : Nat) : Nat × Events := divOp c (decodeCode c a) (decodeCode c b)

def fSqrt (c a : Nat) : Nat × Events := sqrtOp c (decodeCode c a)

/-- The magnitude of a binary32 encoding, exact and without events (a sign change is no operation). -/
def fNeg (c a : Nat) : Nat :=
  let top := 2 ^ (fmtBits c - 1)
  if a / top % 2 = 1 then a - top else a + top

/-! ### Stochastic rounding (R64, R65) -/

def mix (z : BitVec 64) : BitVec 64 :=
  let z := (z ^^^ (z >>> 30)) * 0xBF58476D1CE4E5B9#64
  let z := (z ^^^ (z >>> 27)) * 0x94D049BB133111EB#64
  z ^^^ (z >>> 31)

/-- The random value of an element (R65). -/
def srRandom (seed step : BitVec 64) (stream index : Nat) : Nat :=
  let key := seed + step * 0x9E3779B97F4A7C15#64
  let ctr := BitVec.ofNat 64 (stream % 2 ^ 24 * 2 ^ 40 + index % 2 ^ 40)
  (mix (key ^^^ mix ctr) >>> 48).toNat

/-- The wide form, for positions of 2^40 and above (R65). -/
def srRandomWide (seed step : BitVec 64) (stream p : Nat) : Nat :=
  srRandom seed ((step &&& 0xFFFFFFFFFFFF#64) ^^^ BitVec.ofNat 64 (p / 2 ^ 40 * 2 ^ 48)) stream (p % 2 ^ 40)

/-! ### Descriptors (R58, R59) -/

def Desc.of (d : BitVec 16) : Desc :=
  let n := d.toNat
  { elem := n % 32, scaled := n / 32 % 2 == 1, scale := n / 64 % 2 == 1, round := n / 128 % 4,
    ovf := n / 512 % 2 == 1, reservedOk := n / 1024 == 0 }

/-- R58 and R59: what makes a descriptor bad. -/
def Desc.ok (d : Desc) : Bool :=
  d.reservedOk && d.elem ≤ 15 && d.elem != 13 && d.elem != 14 && d.round != 3 &&
  (d.scaled || !d.scale) &&
  (!d.ovf || d.elem ∈ [0, 1, 2, 3, 5, 15]) &&
  (!d.scaled || d.elem ∈ [4, 5, 6, 7, 8, 11, 12]) &&
  (!d.scale || d.elem ∈ [6, 7, 8])

/-- The rounding mode of a descriptor, with the random value that SR uses. -/
def Desc.mode (d : Desc) (r : Nat) : Round :=
  match d.round with
  | 1 => .rz
  | 2 => .sr r
  | _ => .rne

/-! ### Scaled groups (R56, R67 to R71) -/

/-- emax of R68. -/
def emaxOf : Nat → Int
  | 4 => 8
  | 5 => 15
  | 6 => 4
  | 7 => 2
  | 8 => 2
  | _ => 0

/-- The binary point of an integer element of a scaled group (R56): value q × 2^-point. -/
def intPoint : Nat → Nat
  | 11 => 6
  | 12 => 2
  | _ => 0

/-- Multiply an exact value by 2^k. -/
def FVal.scale (v : FVal) (k : Int) : FVal :=
  match v with
  | .fin n m e => .fin n m (e + k)
  | v => v

/-- An element of a scaled group: saturating, integers symmetric (R56, R63). -/
def encodeElem (c : Nat) (x : Exact) (r : Round) : Nat × Events :=
  match fmtOf c with
  | some (.int w) =>
    let t := encodeInt w ⟨x.val.scale (intPoint c), x.sticky⟩ r
    if t.1 = 2 ^ (w - 1) then (2 ^ (w - 1) + 1, if t.2 = .zero then evSat else t.2) else t
  | _ => encodeCode c x r true

/-- The value of an element of a scaled group before its scale (R56). -/
def decodeElem (c bits : Nat) : FVal := (decodeCode c bits).scale (-(intPoint c : Int))

/-- The largest magnitude of finite values. -/
def maxAbs (vs : List FVal) : FVal := vs.foldl (fun a v => maxVal a v.abs) (.fin false 0 0)

/-- floor(log2) of a positive finite value; 0 is never asked. -/
def floorLog2 : FVal → Int
  | .fin _ m e => topExp m e
  | _ => 0

/-- A scale exponent clamped to −127 to 127 (R68, R70). -/
def clampExp (k : Int) : Int := max (-127) (min 127 k)

/-- Encode the elements of a group, each with its own random value. -/
def encodeElems (c : Nat) (div : FVal → Exact) (round : Nat → Round) :
    Nat → List FVal → List Byte × Events
  | _, [] => ([], .zero)
  | i, v :: vs =>
    let x := encodeElem c (div v) (round i)
    let rest := encodeElems c div round (i + 1) vs
    (BitVec.ofNat 8 x.1 :: rest.1, x.2.add rest.2)

/-- The events of a NaN group: one for the group (R69), and one for each signalling operand (R52). -/
def nanGroup (vs : List FVal) : Events := { evNanGrp with invalid := (vs.filter FVal.signalling).length }

/-- Quantize one E8M0 group (R68, R69). `base` is the index of its first element for SR. -/
def quantE8 (c : Nat) (vs : List FVal) (round : Nat → Round) (base : Nat) : Group × Events :=
  if vs.any (fun v => !v.isFin) then (⟨0xFF, vs.map (fun _ => 0)⟩, nanGroup vs)
  else
    let a := maxAbs vs
    if a.isZero then (⟨0, vs.map (fun _ => 0)⟩, .zero)
    else
      let k := clampExp (floorLog2 a - emaxOf c)
      let es := encodeElems c (fun v => (v.scale (-k)).exact) round base vs
      (⟨BitVec.ofNat 8 (k + 127).toNat, es.1⟩, es.2)

/-- The largest element value E of R70. -/
def largestElem : Nat → FVal
  | 8 => .fin false 6 0
  | 7 => .fin false 15 (-1)
  | _ => .fin false 28 0

/-- Quantize one group of a super-block with super-scale 2^k (R70); a group scale that saturates because k was clamped
is counted (R63). -/
def quantUe (c : Nat) (k : Int) (vs : List FVal) (round : Nat → Round) (base : Nat) : Group × Events :=
  if vs.any (fun v => !v.isFin) then (⟨0x7F, vs.map (fun _ => 0)⟩, nanGroup vs)
  else
    let a := maxAbs vs
    let q := divVal a ((largestElem c).scale k)
    let s := encodeUe4m3 q.1 .rne
    if s.1 = 0 then (⟨0, vs.map (fun _ => 0)⟩, s.2)
    else
      let den := (decodeFlt fE4m3 s.1).scale k
      let es := encodeElems c (fun v => (divVal v den).1) round base vs
      (⟨BitVec.ofNat 8 s.1, es.1⟩, s.2.add es.2)

/-- Quantize the groups of a super-block under its super-scale (R70). -/
def quantUes (c : Nat) (k : Int) (round : Nat → Round) : Nat → List (List FVal) → List Group × Events
  | _, [] => ([], .zero)
  | base, g :: gs =>
    let x := quantUe c k g round base
    let rest := quantUes c k round (base + g.length) gs
    (x.1 :: rest.1, x.2.add rest.2)

/-- Quantize one super-block (R69, R70). -/
def quantSuper (c : Nat) (gs : List (List FVal)) (round : Nat → Round) (base : Nat) :
    (Option Byte × List Group) × Events :=
  let good := gs.filter (fun g => g.all FVal.isFin)
  if good.isEmpty then
    ((some 0xFF, gs.map (fun g => ⟨0x7F, g.map (fun _ => 0)⟩)), (gs.map nanGroup).foldl Events.add .zero)
  else
    let a := maxAbs good.flatten
    if a.isZero && good.length = gs.length then
      ((some 0, gs.map (fun g => ⟨0, g.map (fun _ => 0)⟩)), .zero)
    else
      let k := if a.isZero then -127 else clampExp (floorLog2 a - emaxOf c - 7)
      let r := quantUes c k round base gs
      ((some (BitVec.ofNat 8 (k + 127).toNat), r.1), r.2)

/-- Cut a list into pieces of `n`; `fuel` bounds their number. -/
def chunksAux {α : Type} (n : Nat) : Nat → List α → List (List α)
  | 0, _ => []
  | fuel + 1, l => if l.isEmpty then [] else l.take n :: chunksAux n fuel (l.drop n)

/-- Cut a list into pieces of `n` elements, the last one shorter. -/
def chunksOf {α : Type} (n : Nat) (l : List α) : List (List α) := chunksAux n l.length l

/-- Pad a list of values with zeros to a multiple of 32 (R67). -/
def padGroup (vs : List FVal) : List FVal :=
  vs ++ List.replicate ((32 - vs.length % 32) % 32) (.fin false 0 0)

/-- Quantize E8M0 groups one after another. -/
def quantGroups (c : Nat) (round : Nat → Round) : Nat → List (List FVal) → List Group × Events
  | _, [] => ([], .zero)
  | base, g :: gs =>
    let x := quantE8 c g round base
    let rest := quantGroups c round (base + g.length) gs
    (x.1 :: rest.1, x.2.add rest.2)

/-- Quantize super-blocks one after another. -/
def quantSupers (c : Nat) (round : Nat → Round) :
    Nat → List (List (List FVal)) → List (Option Byte × List Group) × Events
  | _, [] => ([], .zero)
  | base, s :: ss =>
    let x := quantSuper c s round base
    let rest := quantSupers c round (base + s.flatten.length) ss
    (x.1 :: rest.1, x.2.add rest.2)

/-- Encode unscaled elements one after another. -/
def encodePlain (d : Desc) (round : Nat → Round) : Nat → List Exact → List W64 × Events
  | _, [] => ([], .zero)
  | i, v :: vs =>
    let x := encodeCode d.elem v (round i) d.ovf
    let rest := encodePlain d round (i + 1) vs
    (BitVec.ofNat 64 x.1 :: rest.1, x.2.add rest.2)

/-- Quantize the elements of a tensor, its first at index `base`, by a descriptor (R58, R62 to R70); `rnd`
gives the random value of an index. -/
def quantize (d : Desc) (rnd : Nat → Nat) (base : Nat) (vs : List FVal) : Tensor × Events :=
  let round := fun i => d.mode (rnd i)
  if !d.scaled then
    let r := encodePlain d round base (vs.map FVal.exact)
    (.plain r.1, r.2)
  else
    let gs := chunksOf 32 (padGroup vs)
    if d.scale then
      let r := quantSupers d.elem round base (chunksOf 8 gs)
      (.scaled r.1, r.2)
    else
      let r := quantGroups d.elem round base gs
      (.scaled [(none, r.1)], r.2)

/-- The scale of a group, in the format in which the device dequantizes: the s × Z of two-level scaling is delivered
there by R63 (R71). None for a NaN group (R69). -/
def groupScale (acc : Nat) (sup : Option Byte) (s : Byte) : Option (FVal × Events) :=
  match sup with
  | none => if s = 0xFF then none else some (.fin false 1 ((s.toNat : Int) - 127), .zero)
  | some z =>
    if z = 0xFF || s.toNat ≥ 0x7F then none
    else
      let r := encodeCode acc ((decodeFlt fE4m3 s.toNat).scale ((z.toNat : Int) - 127)).exact .rne false
      some (decodeCode acc r.1, r.2)

/-- Dequantize one group in the format `acc` (R69, R71): exact, and R63 where a product leaves its range. -/
def dequantGroup (acc c : Nat) (sup : Option Byte) (g : Group) : List FVal × Events :=
  match groupScale acc sup g.scale with
  | none => (g.elems.map (fun _ => .nan false false), .zero)
  | some s => mapEv (fun (e : Byte) =>
      let r := mulOp acc s.1 (decodeElem c e.toNat)
      (decodeCode acc r.1, s.2.add r.2)) g.elems

/-- The values of a tensor's elements, padding included, scaled groups dequantized in the format `acc` (R71). -/
def dequantize (acc : Nat) (d : Desc) : Tensor → List FVal × Events
  | .plain es => (es.map (fun e => decodeCode d.elem e.toNat), .zero)
  | .scaled sbs =>
    let r := mapEv (fun (sb : Option Byte × List Group) =>
      let gs := mapEv (dequantGroup acc d.elem sb.1) sb.2
      (gs.1.flatten, gs.2)) sbs
    (r.1.flatten, r.2)

/-! ### Array sums (R73) -/

/-- One addition in binary32. -/
def addB32 (a b : FVal) : FVal × Events :=
  let r := addOp 1 a b
  (decodeCode 1 r.1, r.2)

/-- One level of the fixed pairwise tree. -/
def treeLevel : List FVal → List FVal × Events
  | a :: b :: rest =>
    let s := addB32 a b
    let r := treeLevel rest
    (s.1 :: r.1, s.2.add r.2)
  | [a] => ([a], .zero)
  | [] => ([], .zero)

/-- `n` levels of the tree. -/
def treeLevels : Nat → List FVal → List FVal × Events
  | 0, l => (l, .zero)
  | n + 1, l =>
    let s := treeLevel l
    let r := treeLevels n s.1
    (r.1, s.2.add r.2)

/-- The sum of a column of products in binary32 by the tree of depth 8; missing leaves are +0. -/
def columnSum (products : List FVal) : FVal × Events :=
  let l := (products ++ List.replicate (256 - products.length) (FVal.fin false 0 0)).take 256
  let r := treeLevels 8 l
  (r.1.headD (FVal.fin false 0 0), r.2)

/-- The product of two elements as it enters the tree: exact, and rounded RNE for binary32 operands. -/
def product (fa fb a b : Nat) : FVal × Events :=
  let x := decodeCode fa a
  let y := decodeCode fb b
  let p := mulVal x y
  if fa = 1 || fb = 1 then
    let r := mulOp 1 x y
    (decodeCode 1 r.1, r.2)
  else (p.1, (evOperands [x, y]).add (if p.2 then evNan else .zero))

end Sys2Proof.Machine
end

