-- ==== Sys2Proof/Machine/Util.lean ====
section
/-! DEFINITION. Small operations used by every chapter: tables by number, bytes and bit fields, runs of
pages, and the model's measure of time. -/

namespace Sys2Proof

/-- The parameter words of a command entry (Table 12.5). -/
def Cmd.w (c : Cmd) : Nat → Nat
  | 0 => c.w0.toNat
  | 1 => c.w1.toNat
  | 2 => c.w2.toNat
  | 3 => c.w3.toNat
  | 4 => c.w4.toNat
  | _ => c.w5.toNat

end Sys2Proof

namespace Sys2Proof.Machine

/-! ### Tables by number -/

/-- The entry of a number. -/
def tblGet {α : Type} : Tbl α → Nat → Option α
  | [], _ => none
  | (k, v) :: t, n => if k = n then some v else tblGet t n

/-- The entry of a number, or a default. -/
def tblGetD {α : Type} (t : Tbl α) (n : Nat) (dflt : α) : α := (tblGet t n).getD dflt

/-- Set the entry of a number; the table stays in rising order. -/
def tblPut {α : Type} : Tbl α → Nat → α → Tbl α
  | [], n, v => [(n, v)]
  | (k, w) :: t, n, v =>
    if k = n then (n, v) :: t
    else if n < k then (n, v) :: (k, w) :: t
    else (k, w) :: tblPut t n v

/-- Remove the entry of a number. -/
def tblDel {α : Type} (t : Tbl α) (n : Nat) : Tbl α := t.filter (fun e => e.1 != n)

/-- Change the entry of a number, if there is one. -/
def tblMod {α : Type} (t : Tbl α) (n : Nat) (f : α → α) : Tbl α :=
  t.map (fun e => if e.1 = n then (e.1, f e.2) else e)

/-- Change every entry. -/
def tblMap {α : Type} (t : Tbl α) (f : Nat → α → α) : Tbl α := t.map (fun e => (e.1, f e.1 e.2))

/-- The lowest number below a bound without an entry. -/
def tblFree {α : Type} (t : Tbl α) (bound : Nat) : Option Nat :=
  (List.range bound).find? (fun k => (tblGet t k).isNone)

/-- Add a number to a list without repeats. -/
def addOnce (l : List Nat) (n : Nat) : List Nat := if n ∈ l then l else l ++ [n]

/-- Change the element of an index. -/
def modAt {α : Type} (l : List α) (i : Nat) (f : α → α) : List α :=
  match l[i]? with
  | some v => l.set i (f v)
  | none => l

/-! ### Bits and bytes (R6: little-endian) -/

/-- Bits [lo + w − 1 : lo] of a number. -/
def bits (n lo w : Nat) : Nat := n / 2 ^ lo % 2 ^ w

/-- Bit `i` of a number. -/
def bit (n i : Nat) : Bool := n / 2 ^ i % 2 == 1

/-- Replace bits [lo + w − 1 : lo] of a number. -/
def putBits (n lo w v : Nat) : Nat := n - bits n lo w * 2 ^ lo + v % 2 ^ w * 2 ^ lo

/-- 1 for true. -/
def b2n (b : Bool) : Nat := if b then 1 else 0

/-- Saturating addition below 2^w. -/
def satAdd (w a b : Nat) : Nat := min (a + b) (2 ^ w - 1)

/-- The `n` little-endian bytes of a number. -/
def le (n v : Nat) : List Byte := (List.range n).map (fun i => BitVec.ofNat 8 (v / 2 ^ (8 * i)))

/-- The number that little-endian bytes spell. -/
def unle : List Byte → Nat
  | [] => 0
  | b :: bs => b.toNat + 256 * unle bs

/-- `n` zero bytes. -/
def zeros (n : Nat) : List Byte := List.replicate n 0

/-- The `n` bytes at an offset, zero beyond the end. -/
def bytesAt (bs : List Byte) (off n : Nat) : List Byte :=
  let t := (bs.drop off).take n
  t ++ zeros (n - t.length)

/-- The little-endian field of `n` bytes at an offset. -/
def fieldAt (bs : List Byte) (off n : Nat) : Nat := unle (bytesAt bs off n)

/-- All bytes of a range are 0. -/
def zeroAt (bs : List Byte) (off n : Nat) : Bool := (bytesAt bs off n).all (· == 0)

/-! ### Runs of pages and banks -/

/-- Number of pages in runs. -/
def runsLen (rs : List (Nat × Nat)) : Nat := (rs.map (·.2)).sum

/-- A number lies in one of the runs. -/
def inRuns (rs : List (Nat × Nat)) (n : Nat) : Bool := rs.any (fun r => r.1 ≤ n && n < r.1 + r.2)

/-- Insert a run by its first page. -/
def runInsert (r : Nat × Nat) : List (Nat × Nat) → List (Nat × Nat)
  | [] => [r]
  | x :: xs => if r.1 ≤ x.1 then r :: x :: xs else x :: runInsert r xs

/-- The runs in order of their first page. -/
def runSort (rs : List (Nat × Nat)) : List (Nat × Nat) := rs.foldr runInsert []

/-- The free runs from `at` to `bound` between sorted used runs. -/
def gaps (bound : Nat) : Nat → List (Nat × Nat) → List (Nat × Nat)
  | pos, [] => if pos < bound then [(pos, bound - pos)] else []
  | pos, (a, n) :: rs =>
    if pos < a then (pos, min a bound - pos) :: gaps bound (max pos (a + n)) rs
    else gaps bound (max pos (a + n)) rs

/-- Take `n` pages from the front of runs; none when they hold fewer. -/
def takeRuns : Nat → List (Nat × Nat) → Option (List (Nat × Nat))
  | 0, _ => some []
  | _, [] => none
  | n, (a, k) :: rs =>
    if n ≤ k then some [(a, n)]
    else match takeRuns (n - k) rs with
      | some t => some ((a, k) :: t)
      | none => none

/-- Remove one page from runs. -/
def runDel (rs : List (Nat × Nat)) (p : Nat) : List (Nat × Nat) :=
  (rs.map (fun r =>
    if r.1 ≤ p && p < r.1 + r.2 then
      (if r.1 < p then [(r.1, p - r.1)] else []) ++
      (if p + 1 < r.1 + r.2 then [(p + 1, r.1 + r.2 - (p + 1))] else [])
    else [r])).flatten

/-! ### Time (DESIGN CHOICE, log 7): TCLK edges are 4 ns apart (Table 1.3) -/

/-- TCLK edges in `n` µs. -/
def usTicks (n : Nat) : Nat := n * 250
/-- TCLK edges in `n` ms. -/
def msTicks (n : Nat) : Nat := n * 250000
/-- TCLK edges in `n` s. -/
def sTicks (n : Nat) : Nat := n * 250000000

/-! ### CRC32C (R258, R350): reflected polynomial 0x82F6_3B78 -/

/-- One bit of a reflected CRC. -/
def crcBit (poly : BitVec 32) (c : BitVec 32) : BitVec 32 :=
  if c.getLsbD 0 then (c >>> 1) ^^^ poly else c >>> 1

/-- `n` bits of a reflected CRC. -/
def crcBits (poly : BitVec 32) : Nat → BitVec 32 → BitVec 32
  | 0, c => c
  | n + 1, c => crcBits poly n (crcBit poly c)

/-- One byte into a reflected CRC. -/
def crcByte (poly : BitVec 32) (c : BitVec 32) (b : Byte) : BitVec 32 :=
  crcBits poly 8 (c ^^^ b.zeroExtend 32)

/-- CRC32C of bytes. -/
def crc32c (bs : List Byte) : BitVec 32 :=
  (bs.foldl (crcByte 0x82F63B78#32) 0xFFFFFFFF#32) ^^^ 0xFFFFFFFF#32

end Sys2Proof.Machine
end

