-- ==== Sys2Proof/Machine/MillMath.lean ====
section
/-! DEFINITION. Arithmetic of the Mill on elements: packing of tensors, the intra-node sum, transforms, error
feedback, low-rank steps, learning rates and the optimizer formulas (03_mill, 04_collectives). -/

namespace Sys2Proof.Machine

/-! ### Elements -/

/-- An element from an encoding. -/
def elOf (n : Nat) (poison : Bool) : El := ⟨BitVec.ofNat 64 n, poison⟩

/-- +0, not poisoned. -/
def El.zero : El := ⟨0, false⟩

/-- The value of an element in a format. -/
def El.val (c : Nat) (e : El) : FVal := decodeCode c e.bits.toNat

/-- Add two elements of a format; poison is passed on. -/
def addEl (c : Nat) (a b : El) : El × Events :=
  let r := fAdd c a.bits.toNat b.bits.toNat
  (elOf r.1 (a.poison || b.poison), r.2)

/-- Replace the elements from a position on. -/
def putEls {α : Type} (l : List α) (pos : Nat) (xs : List α) : List α :=
  l.take pos ++ xs ++ l.drop (pos + xs.length)

/-- A range of a list. -/
def sub {α : Type} (l : List α) (pos n : Nat) : List α := (l.drop pos).take n

/-- A list of a length, padded. -/
def padTo {α : Type} (n : Nat) (d : α) (l : List α) : List α := (l ++ List.replicate (n - l.length) d).take n

/-! ### Layout of tensors in memory (R55, R72) -/

/-- The number that elements of `w` bits spell, the first lowest. -/
def packBits (w : Nat) : List Nat → Nat
  | [] => 0
  | e :: t => e % 2 ^ w + 2 ^ w * packBits w t

/-- `n` elements of `w` bits. -/
def unpackBits (w : Nat) : Nat → Nat → List Nat
  | 0, _ => []
  | n + 1, v => v % 2 ^ w :: unpackBits w n (v / 2 ^ w)

/-- Bytes of `n` elements of `w` bits. -/
def packedLen (w n : Nat) : Nat := (w * n + 7) / 8

/-- Bits of one element alone in memory: K36 stands in a container of 8 B (R55). -/
def elemWidth (c : Nat) : Nat := if c = 15 then 64 else fmtBits c

/-- Bytes of a group of 32. -/
def groupBytes (c : Nat) : Nat := 1 + packedLen (fmtBits c) 32

/-- Bytes of `n` elements of a descriptor. -/
def Desc.bytes (d : Desc) (n : Nat) : Nat :=
  if d.scaled then
    let g := (n + 31) / 32
    g * groupBytes d.elem + (if d.scale then (g + 7) / 8 else 0)
  else packedLen (elemWidth d.elem) n

/-- The bytes of a group. -/
def packGroup (c : Nat) (g : Group) : List Byte :=
  g.scale :: le (packedLen (fmtBits c) 32) (packBits (fmtBits c) (g.elems.map (·.toNat)))

/-- The bytes of a tensor (R72). -/
def packTensor (d : Desc) : Tensor → List Byte
  | .plain es => le (packedLen (elemWidth d.elem) es.length) (packBits (elemWidth d.elem) (es.map (·.toNat)))
  | .scaled sbs => (sbs.map (fun sb =>
      (match sb.1 with
        | some z => [z]
        | none => []) ++ (sb.2.map (packGroup d.elem)).flatten)).flatten

/-- Read a group. -/
def unpackGroup (c : Nat) (bs : List Byte) : Group :=
  ⟨bs.headD 0, (unpackBits (fmtBits c) 32 (unle (bytesAt bs 1 (packedLen (fmtBits c) 32)))).map (BitVec.ofNat 8)⟩

/-- Read `g` groups. -/
def unpackGroups (c : Nat) : Nat → List Byte → List Group
  | 0, _ => []
  | g + 1, bs => unpackGroup c bs :: unpackGroups c g (bs.drop (groupBytes c))

/-- Read super-blocks of `g` groups in all; `fuel` bounds their number. -/
def unpackSupers (c : Nat) : Nat → Nat → List Byte → List (Option Byte × List Group)
  | 0, _, _ => []
  | fuel + 1, g, bs =>
    if g = 0 then []
    else
      let n := min g 8
      (some (bs.headD 0), unpackGroups c n (bs.drop 1)) ::
        unpackSupers c fuel (g - n) (bs.drop (1 + n * groupBytes c))

/-- Read `n` elements of a descriptor. -/
def unpackTensor (d : Desc) (n : Nat) (bs : List Byte) : Tensor :=
  if !d.scaled then
    .plain ((unpackBits (elemWidth d.elem) n (unle (bytesAt bs 0 (d.bytes n)))).map (fun v =>
      BitVec.ofNat 64 (if d.elem = 15 then v % 2 ^ 36 else v)))
  else
    let g := (n + 31) / 32
    if d.scale then .scaled (unpackSupers d.elem g g bs) else .scaled [(none, unpackGroups d.elem g bs)]

/-- An operand in memory, for its descriptor: a matrix of rows whose elements lie along the innermost dimension. The
groups and super-blocks of a scaled one stay inside its rows, each padded to whole groups (R67, R70); the elements of
an unscaled one are packed one after another over all rows, 4- and 6-bit elements as one bit string (DESIGN CHOICE,
log 27: R72 lays out scaled tensors only). -/
structure Shape where
  rows : Nat
  inner : Nat
  deriving DecidableEq, Repr

/-- Bytes of an operand. -/
def Desc.size (f : Desc) (s : Shape) : Nat :=
  if f.scaled then s.rows * f.bytes s.inner else f.bytes (s.rows * s.inner)

/-- The byte ranges that an element's value rests on: its own bytes, or those of its group and, in two-level scaling,
the super-scale of its super-block (R70, R78). -/
def Desc.spans (f : Desc) (s : Shape) (i : Nat) : List (Nat × Nat) :=
  if f.scaled then
    let g := groupBytes f.elem
    let j := i % max 1 s.inner
    let row := i / max 1 s.inner * f.bytes s.inner
    if f.scale then
      let sb := row + j / 256 * (1 + 8 * g)
      [(sb, 1), (sb + 1 + j / 32 % 8 * g, g)]
    else [(row + j / 32 * g, g)]
  else
    let w := elemWidth f.elem
    [(i * w / 8, (i * w % 8 + w + 7) / 8)]

/-- Join the tensors of blocks. -/
def joinTensor : Tensor → Tensor → Tensor
  | .plain a, .plain b => .plain (a ++ b)
  | .scaled a, .scaled b => .scaled (a ++ b)
  | .plain [], t => t
  | t, .plain [] => t
  | t, _ => t

/-- The values of a tensor of `n` elements, dequantized in the format `acc`; padding is left out. -/
def dequantBlocks (acc : Nat) (d : Desc) (n : Nat) (t : Tensor) : List FVal × Events :=
  let r := dequantize acc d t
  (padTo n (.fin false 0 0) r.1, r.2)

/-- Encode a value in a format, rounded RNE. -/
def encVal (c : Nat) (v : FVal) : Nat × Events := encodeCode c v.exact .rne false

/-! ### Intra-node sum (R124, R126) -/

/-- Combine two leaves: an absent one is skipped. -/
def addLeaf (a b : Option El) : Option El × Events :=
  match a, b with
  | some x, some y =>
    let r := addEl 1 x y
    (some r.1, r.2)
  | some x, none => (some x, .zero)
  | none, y => (y, .zero)

/-- The fixed tree over eight leaves. -/
def nodeTree (l : List (Option El)) : El × Events :=
  let g := fun i => (l.getD i none)
  let a := addLeaf (g 0) (g 1)
  let b := addLeaf (g 2) (g 3)
  let c := addLeaf (g 4) (g 5)
  let e := addLeaf (g 6) (g 7)
  let x := addLeaf a.1 b.1
  let y := addLeaf c.1 e.1
  let z := addLeaf x.1 y.1
  (z.1.getD El.zero, (((a.2.add b.2).add (c.2.add e.2)).add (x.2.add y.2)).add z.2)

/-- A part of an accelerator in binary32 (R124). -/
def partB32 (d : Desc) (n : Nat) (m : Marked) : List El × Events :=
  evBind (dequantBlocks 1 d n m.data) (mapIxEv (fun i v =>
    let r := encVal 1 v
    (elOf r.1 (m.poison.getD i false), r.2)) 0)

/-- The leaves of element `i`. -/
def leavesAt (ps : List (Nat × List El)) (i : Nat) : List (Option El) :=
  (List.range 8).map (fun a => match tblGet ps a with
    | some es => es[i]?
    | none => none)

/-- The intra-node sum of `n` elements. -/
def nodeSum (d : Desc) (n : Nat) (parts : List (Nat × Marked)) : List El × Events :=
  let ps := parts.map (fun p => (p.1, partB32 d n p.2))
  let ev := ps.foldl (fun e p => e.add p.2.2) Events.zero
  let r := mapEv (fun i => nodeTree (leavesAt (ps.map (fun p => (p.1, p.2.1))) i)) (List.range n)
  (r.1, ev.add r.2)

/-! ### Transforms (R85, R86, R88) -/

/-- The number of ones of a number below 2^fuel. -/
def popcount : Nat → Nat → Nat
  | 0, _ => 0
  | fuel + 1, n => n % 2 + popcount fuel (n / 2)

/-- h(k, i) × d_i is negative (R85). -/
def hadNeg (t : W64) (k i : Nat) : Bool :=
  (popcount 8 (k &&& i) % 2 == 1) != (mix (t ^^^ mix (BitVec.ofNat 64 i)) >>> 63 == 1)

/-- d_i is −1. -/
def signNeg (t : W64) (i : Nat) : Bool := mix (t ^^^ mix (BitVec.ofNat 64 i)) >>> 63 == 1

/-- Negate when asked. -/
def negIf (b : Bool) (v : FVal) : FVal := if b then v.neg else v

/-- One column of an array operation added to an accumulator of +0 in binary32 (R73). -/
def arrayColumn (products : List FVal) : FVal × Events :=
  let c := columnSum products
  let s := addB32 (.fin false 0 0) c.1
  (s.1, c.2.add s.2)

/-- One pass of the forward transform over a block of encodings in the input format (R85, R86). -/
def forwardPass (x : XformCfg) (inFmt : Nat) (es : List Nat) : List FVal × Events :=
  let b := 2 ^ x.log2b
  mapEv (fun k =>
    let ps := mapIxEv (fun i e =>
      if x.kind = 0 then (negIf (hadNeg x.tseed k i) (decodeCode inFmt e), Events.zero)
      else product x.wfmt inFmt ((x.matrix.getD (k * b + i) 0).toNat) e) 0 es
    let s := arrayColumn ps.1
    (s.1, ps.2.add s.2)) (List.range b)

/-- The forward transform of a block of the intra-node sum, by XPREC (R88); the values are binary32. -/
def forwardBlock (x : XformCfg) (inFmt : Nat) (xprec : Bool) (blk : List El) : List El × Events :=
  let b := 2 ^ x.log2b
  let blk := padTo b El.zero blk
  let poison := blk.any (·.poison)
  let hi := mapEv (fun (e : El) => encVal inFmt (e.val 1)) blk
  let y := forwardPass x inFmt hi.1
  let out := if xprec then
      let lo := zipEv (fun (e : El) (h : Nat) =>
        let s := addVal (e.val 1) (decodeCode inFmt h).neg
        encVal inFmt s.1) blk hi.1
      let z := forwardPass x inFmt lo.1
      let s := zipEv addB32 y.1 z.1
      (s.1, (lo.2.add z.2).add s.2)
    else (y.1, Events.zero)
  (out.1.map (fun v => elOf (encVal 1 v).1 poison), (hi.2.add y.2).add out.2)

/-- One butterfly stage in a format (R86). -/
def butterfly (c s : Nat) (es : List Nat) : List Nat × Events :=
  mapIxEv (fun i _ =>
    let p := i - bits i s 1 * 2 ^ s
    let a := es.getD p 0
    let b := es.getD (p + 2 ^ s) 0
    if bit i s then fSub c a b else fAdd c a b) 0 es

/-- The stages from `s` on, `n` of them. -/
def butterflies (c : Nat) : Nat → Nat → List Nat → List Nat × Events
  | 0, _, es => (es, .zero)
  | n + 1, s, es =>
    let x := butterfly c s es
    let r := butterflies c n (s + 1) x.1
    (r.1, x.2.add r.2)

/-- Butterfly stages over a block of 2^n, then the exact division by 2^n. -/
def inverseHad (c n : Nat) (es : List Nat) : List Nat × Events :=
  let r := butterflies c n 0 es
  let q := mapEv (fun e => encVal c ((decodeCode c e).scale (-(n : Int)))) r.1
  (q.1, r.2.add q.2)

/-- The inverse transform of a block of the reduced values in the ACC format (R85, R86), with its result in a format: binary32
for an optimizer (R140), ACC for an all-reduce (R131). -/
def inverseBlock (x : XformCfg) (acc out : Nat) (blk : List El) : List El × Events :=
  let b := 2 ^ x.log2b
  let blk := padTo b El.zero blk
  let poison := blk.any (·.poison)
  if x.kind = 0 then
    let r := inverseHad acc x.log2b (blk.map (·.bits.toNat))
    let o := mapIxEv (fun i e => encVal out (negIf (signNeg x.tseed i) (decodeCode acc e))) 0 r.1
    (o.1.map (fun n => elOf n poison), r.2.add o.2)
  else
    let ys := mapEv (fun (e : El) => encVal 1 (e.val acc)) blk
    let qs := mapEv (fun (q : W64) => encVal 1 (decodeCode x.wfmt q.toNat)) x.matrix
    let o := mapEv (fun k =>
      let ps := mapIxEv (fun i e => product 1 1 (qs.1.getD (i * b + k) 0) e) 0 ys.1
      let s := arrayColumn ps.1
      let e := encVal out s.1
      (e.1, (ps.2.add s.2).add e.2)) (List.range b)
    (o.1.map (fun n => elOf n poison), ys.2.add o.2)

/-- The limit δ of R87 for a matrix format. -/
def orthoLimit : Nat → FVal
  | 2 => .fin false 1 (-7)
  | 3 => .fin false 1 (-10)
  | _ => .fin false 1 (-20)

/-- A loaded matrix is orthogonal (R87): each element of Q Qᵀ − I, exact and rounded once to binary64, is at
most δ. -/
def orthogonal (x : XformCfg) : Bool :=
  let b := 2 ^ x.log2b
  let rows := chunksOf b (x.matrix.map (fun q => decodeCode x.wfmt q.toNat))
  let ix := List.range b
  ix.all (fun i => ix.all (fun j =>
    let s := (List.zip (rows.getD i []) (rows.getD j [])).foldl
      (fun a p => (addVal a (mulVal p.1 p.2).1).1) (FVal.fin false 0 0)
    let e := if i = j then (addVal s (.fin true 1 0)).1 else s
    let r := decodeCode 0 (encVal 0 e).1
    !r.isNan && cmpVal r.abs (orthoLimit x.wfmt) ≤ 1))

/-! ### Source quantization and error feedback (R90 to R92) -/

/-- A group of 32 holds a poisoned element. -/
def groupPoison (ps : List Bool) (i : Nat) : Bool := (sub ps (i / 32 * 32) 32).any (fun b => b)

/-- Quantize a block at the source: the wire tensor, the own part as it enters the accumulator, and the new
residuals. -/
def sourceBlock (wire : Desc) (rnd : Nat → Nat) (acc : Nat) (resid : Nat) (base : Nat) (ys : List El)
    (es : List Nat) : (Tensor × List El × List Nat) × Events :=
  let zs := zipEv (fun (y : El) (e : Nat) =>
    if resid = 0xFF then ((⟨y.bits, y.poison⟩ : El), Events.zero)
    else
      let s := addVal (y.val 1) (decodeCode resid e)
      let r := deliver 1 [y.val 1, decodeCode resid e] s.1.exact s.2
      (elOf r.1 y.poison, r.2)) ys es
  let q := quantize wire rnd base (zs.1.map (fun z => z.val 1))
  let dq := dequantBlocks acc wire zs.1.length q.1
  let deq := dq.1
  let own := zipEv (fun (z : El) v =>
    let r := encVal acc v
    (elOf r.1 z.poison, r.2)) zs.1 deq
  let marks := zs.1.map (·.poison)
  let res := mapIxEv (fun i (p : El × FVal) =>
    if resid = 0xFF then (0, Events.zero)
    else if (wire.scaled && (p.2.isNan || groupPoison marks i)) || p.1.poison then (0, Events.zero)
    else
      let v := decodeCode 1 (encVal 1 p.2).1
      let s := addVal (p.1.val 1) v.neg
      let r := deliver 1 [p.1.val 1, v] s.1.exact s.2
      let t := encVal resid (decodeCode 1 r.1)
      (t.1, r.2.add t.2)) 0 (List.zip zs.1 deq)
  ((q.1, own.1, res.1), (((zs.2.add q.2).add dq.2).add own.2).add res.2)

/-! ### Low-rank steps (R95) -/

/-- A matrix of values as rows. -/
abbrev Rows := List (List Nat)

/-- The columns of rows of `n` elements. -/
def transpose (n : Nat) (m : Rows) : Rows := (List.range n).map (fun j => m.map (fun r => r.getD j 0))

/-- Round binary32 encodings to bfloat16. -/
def toBf16 (r : List Nat) : List Nat × Events := mapEv (fun e => encVal 2 (decodeCode 1 e)) r

/-- The accumulated product of a row and a column of bfloat16 encodings: columns of 256 products, each added to
the accumulator in binary32 (R73). -/
def dotBf16 (a b : List Nat) : Nat × Events :=
  let ps := zipEv (fun x y => product 2 2 x y) a b
  let r := foldEv (fun acc c =>
    let s := columnSum c
    let t := addB32 acc s.1
    (t.1, s.2.add t.2)) (FVal.fin false 0 0) (chunksOf 256 ps.1)
  ((encVal 1 r.1).1, ps.2.add r.2)

/-- The product of rows (m × k) with columns (n of k), in binary32. -/
def matMul (rows cols : Rows) : Rows × Events :=
  let a := mapEv toBf16 rows
  let b := mapEv toBf16 cols
  let r := mapEv (fun x => mapEv (fun y => dotBf16 x y) b.1) a.1
  (r.1, (a.2.add b.2).add r.2)

/-- The dot product of two columns in binary32, one operation after another. -/
def dotB32 (a b : List Nat) : Nat × Events :=
  foldEv (fun acc (p : Nat × Nat) => fFma 1 p.1 p.2 acc) 0 (List.zip a b)

/-- The smallest norm of a column that is kept (R95): 2^-60. -/
def minNorm : FVal := .fin false 1 (-60)

/-- Normalise a column; one below the limit becomes the identity's column and counts an invalid event. -/
def unitColumn (j : Nat) (c : List Nat) : List Nat × Events :=
  let d := dotB32 c c
  let n := fSqrt 1 d.1
  if cmpVal (decodeCode 1 n.1) minNorm = 0 then
    ((List.range c.length).map (fun i => if i = j then 0x3F800000 else 0), (d.2.add n.2).add evInvalid)
  else
    let r := mapEv (fun e => fDiv 1 e n.1) c
    (r.1, (d.2.add n.2).add r.2)

/-- Take the component along a unit column away from a column. -/
def dropComponent (q c : List Nat) : List Nat × Events :=
  let d := dotB32 q c
  let r := zipEv (fun qi ci => fFma 1 (fNeg 1 d.1) qi ci) q c
  (r.1, d.2.add r.2)

/-- Modified Gram-Schmidt over columns, `j` the number of the first (DESIGN CHOICE, log 37). -/
def gramSchmidt : Nat → Nat → Rows → Rows × Events
  | 0, _, _ => ([], .zero)
  | _, _, [] => ([], .zero)
  | fuel + 1, j, c :: cs =>
    let q := unitColumn j c
    let rest := mapEv (dropComponent q.1) cs
    let r := gramSchmidt fuel (j + 1) rest.1
    (q.1 :: r.1, (q.2.add rest.2).add r.2)

/-- The first factor Q at admission (R95): r columns of the n × n random-sign Hadamard pattern,
orthonormalised, as n rows of r (DESIGN CHOICE, log 37). -/
def initFactor (t : W64) (n r : Nat) : List W32 × Events :=
  let cols := (List.range r).map (fun j => (List.range n).map (fun i =>
    if (popcount 20 (i &&& j) % 2 == 1) != signNeg t j then 0xBF800000 else 0x3F800000))
  let g := gramSchmidt r 0 cols
  (((transpose n g.1).flatten).map (BitVec.ofNat 32), g.2)

/-- The product P̂ Qᵀ of one row of P̂ with the rows of Q, in binary32 on the vector plane: a chain of fused
multiply-adds from +0 by ascending rank index (DESIGN CHOICE, log 37: the manual gives neither their order nor fusing). -/
def lowRow (p : List Nat) (q : Rows) : List Nat × Events := mapEv (fun qr => dotB32 p qr) q

/-! ### Learning rates (R137) -/

/-- π × 2^256, truncated. -/
def piFix : Nat := 0x3243F6A8885A308D313198A2E03707344A4093822299F31D0082EFA98EC4E6C89

/-- Terms of the cosine series in units of 2^-256: `n` of them from term `k` on. -/
def cosTerms (x2 : Nat) : Nat → Nat → Nat → Int
  | 0, _, _ => 0
  | n + 1, k, term =>
    (if k % 2 = 0 then (term : Int) else -(term : Int)) +
      cosTerms x2 n (k + 1) (term * x2 / 2 ^ 256 / ((2 * k + 1) * (2 * k + 2)))

/-- cos(π × x) of a finite x from 0 to 1, with its sticky bit: exact at 0, 1/2 and 1, and at any other dyadic x
irrational. -/
def cosPi (x : FVal) : Exact :=
  match x with
  | .fin _ m e =>
    let fx := if e ≥ 0 then m * 2 ^ (e.toNat + 256) else m * 2 ^ 256 / 2 ^ (-e).toNat
    let half := 2 ^ 255
    if fx = 0 then ⟨.fin false 1 0, decide (m ≠ 0)⟩
    else if fx = half then ⟨.fin false 0 0, false⟩
    else if fx ≥ 2 * half then ⟨.fin true 1 0, false⟩
    else
      let y := if fx < half then fx else 2 * half - fx
      let th := piFix * y / 2 ^ 256
      let c := cosTerms (th * th / 2 ^ 256) 48 0 (2 ^ 256)
      ⟨.fin (decide (fx > half)) c.toNat (-256), true⟩
  | _ => ⟨.nan false false, false⟩

/-- An integer as binary64. -/
def natTo64 (n : Nat) : Nat := (encVal 0 (ofInt n)).1

/-- A binary32 encoding as binary64, with the invalid event of a signalling NaN. -/
def wide (a : W32) : Nat × Events := encVal 0 (decodeCode 1 a.toNat)

/-- A binary64 encoding rounded RNE to binary32. -/
def narrow (a : Nat) : W32 × Events :=
  let r := encVal 1 (decodeCode 0 a)
  (BitVec.ofNat 32 r.1, r.2)

/-- The learning rate η of a group at update count t (R137), with the events of its operations (R78). -/
def learnRate (o : OptCfg) (t : Nat) (lrMul : W32) : W32 × Events :=
  let base : Nat × Events :=
    if o.lrKind = 0 then wide o.lr
    else if t ≤ o.warmup then
      (if o.warmup = 0 then wide o.lr
       else evBind (wide o.lr) fun lr => evBind (fDiv 0 (natTo64 t) (natTo64 o.warmup)) (fMul 0 lr))
    else if t ≥ o.warmup + o.decay then wide o.lrMin
    else
      evBind (wide o.lr) fun lr => evBind (wide o.lrMin) fun lo => evBind (fSub 0 lr lo) fun span =>
      evBind (fDiv 0 (natTo64 (t - o.warmup)) (natTo64 o.decay)) fun x =>
      if o.lrKind = 1 then evBind (fMul 0 span x) (fSub 0 lr)
      else
        let c := (encodeCode 0 (cosPi (decodeCode 0 x)) .rne false).1
        evBind (fMul 0 (encVal 0 (.fin false 1 (-1))).1 span) fun h => evBind (fAdd 0 (natTo64 1) c) fun k =>
          evBind (fMul 0 h k) (fAdd 0 lo)
  evBind (evBind base fun b => evBind (wide lrMul) (fMul 0 b)) narrow

/-! ### Optimizer formulas (R140, R141) -/

/-- β^t in binary64 by squaring: `fuel` bounds the bits of t; each product is rounded RNE (DESIGN CHOICE, log 37). -/
def pow64 : Nat → Nat → Nat → Nat
  | 0, _, _ => natTo64 1
  | fuel + 1, b, t =>
    if t = 0 then natTo64 1
    else
      let h := pow64 fuel (fMul 0 b b).1 (t / 2)
      if t % 2 = 1 then (fMul 0 b h).1 else h

/-- The scalars of an update (R140), in binary32. -/
structure OptScal where
  s : Nat
  lr : Nat
  omb1 : Nat
  omb2 : Nat
  c1 : Nat
  c2 : Nat
  b1 : Nat
  b2 : Nat
  eps : Nat
  wd : Nat
  deriving DecidableEq, Repr

/-- The bias correction 1 / (1 − β^t) in binary64, rounded once to binary32. -/
def biasFactor (b : W32) (t : Nat) : W32 × Events :=
  evBind (wide b) fun x => evBind (fSub 0 (natTo64 1) (pow64 40 x t)) fun y => evBind (fDiv 0 (natTo64 1) y) narrow

/-- 1 − β, rounded once to binary32. -/
def oneMinus (b : W32) : W32 × Events := evBind (wide b) fun x => evBind (fSub 0 (natTo64 1) x) narrow

/-- s = GSCALE × κ, rounded once to binary32. -/
def gradScale (gscale kappa : W32) : W32 × Events :=
  evBind (wide gscale) fun g => evBind (wide kappa) fun k => evBind (fMul 0 g k) narrow

/-- The scalars of a step: s = GSCALE × κ, 1 − β and the bias corrections, in binary64 and rounded once (R140). -/
def optScalars (b1 b2 eps wd gscale kappa lr : W32) (t : Nat) : OptScal × Events :=
  evBind (gradScale gscale kappa) fun s => evBind (oneMinus b1) fun o1 => evBind (oneMinus b2) fun o2 =>
  evBind (biasFactor b1 t) fun c1 => evBind (biasFactor b2 t) fun c2 =>
  ({ s := s.toNat, lr := lr.toNat, omb1 := o1.toNat, omb2 := o2.toNat, c1 := c1.toNat, c2 := c2.toNat, b1 := b1.toNat,
     b2 := b2.toNat, eps := eps.toNat, wd := wd.toNat }, .zero)

/-- sign(u) of the Lion formula: exact, 0 for zeros; a NaN stays NaN. -/
def signB32 (u : Nat) : Nat :=
  match decodeCode 1 u with
  | .nan _ _ => 0x7FC00000
  | .inf n => if n then 0xBF800000 else 0x3F800000
  | .fin n m _ => if m = 0 then 0 else if n then 0xBF800000 else 0x3F800000

/-- One element's update: kind, scalars, g, θ, m, v. -/
def optStep (kind : Nat) (k : OptScal) (g th m v : Nat) : (Nat × Nat × Nat) × Events :=
  let nlr := fNeg 1 k.lr
  let g1 := fMul 1 g k.s
  match kind with
  | 1 =>
    let t1 := fMul 1 k.omb1 g1.1
    let m' := fFma 1 k.b1 m t1.1
    let t2 := fMul 1 g1.1 g1.1
    let t3 := fMul 1 k.omb2 t2.1
    let v' := fFma 1 k.b2 v t3.1
    let d1 := fMul 1 v'.1 k.c2
    let d2 := fSqrt 1 d1.1
    let d3 := fAdd 1 d2.1 k.eps
    let r1 := fMul 1 m'.1 k.c1
    let r2 := fDiv 1 r1.1 d3.1
    let w := fFma 1 k.wd th r2.1
    let th' := fFma 1 nlr w.1 th
    ((th'.1, m'.1, v'.1), [g1.2, t1.2, m'.2, t2.2, t3.2, v'.2, d1.2, d2.2, d3.2, r1.2, r2.2, w.2, th'.2].foldl
      Events.add .zero)
  | 2 =>
    let g2 := fFma 1 k.wd th g1.1
    let th' := fFma 1 nlr g2.1 th
    ((th'.1, m, v), (g1.2.add g2.2).add th'.2)
  | 3 =>
    let g2 := fFma 1 k.wd th g1.1
    let m' := fFma 1 k.b1 m g2.1
    let th' := fFma 1 nlr m'.1 th
    ((th'.1, m'.1, v), ((g1.2.add g2.2).add m'.2).add th'.2)
  | 4 =>
    let g2 := fFma 1 k.wd th g1.1
    let m' := fFma 1 k.b1 m g2.1
    let st := fFma 1 k.b1 m'.1 g2.1
    let th' := fFma 1 nlr st.1 th
    ((th'.1, m'.1, v), (((g1.2.add g2.2).add m'.2).add st.2).add th'.2)
  | 5 =>
    let t1 := fMul 1 k.omb1 g1.1
    let u := fFma 1 k.b1 m t1.1
    let w := fFma 1 k.wd th (signB32 u.1)
    let th' := fFma 1 nlr w.1 th
    let t2 := fMul 1 k.omb2 g1.1
    let m' := fFma 1 k.b2 m t2.1
    ((th'.1, m'.1, v), [g1.2, t1.2, u.2, w.2, th'.2, t2.2, m'.2].foldl Events.add .zero)
  | _ => ((th, m, v), .zero)

/-- The update of one element of a shard (R141): a poisoned one keeps its values and counts as invalid; a NaN or
infinite g counts one invalid event and is updated. -/
def optElem (kind : Nat) (k : OptScal) (g : El) (th m v : W32) : (W32 × W32 × W32) × Events :=
  if g.poison then ((th, m, v), evInvalid)
  else
    let r := optStep kind k g.bits.toNat th.toNat m.toNat v.toNat
    ((BitVec.ofNat 32 r.1.1, BitVec.ofNat 32 r.1.2.1, BitVec.ofNat 32 r.1.2.2),
      r.2.add (if (g.val 1).isFin then Events.zero else evInvalid))

/-- The update of a shard. -/
def optShard (kind : Nat) (k : OptScal) : List El → List W32 → List W32 → List W32 →
    (List W32 × List W32 × List W32) × Events
  | [], _, _, _ => (([], [], []), .zero)
  | g :: gs, ths, ms, vs =>
    let x := optElem kind k g (ths.headD 0) (ms.headD 0) (vs.headD 0)
    let r := optShard kind k gs (ths.drop 1) (ms.drop 1) (vs.drop 1)
    ((x.1.1 :: r.1.1, x.1.2.1 :: r.1.2.1, x.1.2.2 :: r.1.2.2), x.2.add r.2)

/-! ### Parameters and scalars (R138, R139, R143) -/

/-- The sum of squares of GSCALE × g over a shard in binary64, in index order, and the count of non-finite g;
poisoned elements enter neither (R271; DEDUCED, log 23). `c` is the format of the values. -/
def shardScalars (c : Nat) (gscale : W32) (clip : Bool) (gs : List El) (s0 : Nat) : (Nat × Nat) × Events :=
  evBind (wide gscale) fun f => foldEv (fun (a : Nat × Nat) (g : El) =>
    if g.poison then (a, Events.zero)
    else
      let v := evBind (encVal 0 (g.val c)) (fMul 0 f)
      let s := if clip then evBind (fMul 0 v.1 v.1) (fAdd 0 a.1) else (a.1, Events.zero)
      ((s.1, a.2 + b2n (!(g.val c).isFin)), v.2.add s.2)) (s0, 0) gs

/-- The clip factor κ (R139). -/
def clipFactor (clip : W32) (s : Nat) : W32 × Events :=
  if clip = 0 then (0x3F800000, .zero)
  else
    evBind (wide clip) fun c => evBind (fSqrt 0 s) fun r => evBind (maxOp 0 (decodeCode 0 c) (decodeCode 0 r)) fun m =>
      evBind (fDiv 0 c m) narrow

/-- The largest |θ| of a shard, by the maximum of R61. -/
def shardMax (th : List W32) : W32 × Events :=
  let r := foldEv (fun a (x : W32) => maxOp 1 (decodeCode 1 a) (decodeCode 1 x.toNat).abs) 0 th
  (BitVec.ofNat 32 r.1, r.2)

/-- The tensor scale T (R143). -/
def tensorScale (fixed : W32) (elem : Nat) (mx : W32) : W32 :=
  if fixed != 0 then fixed
  else match decodeCode 1 mx.toNat with
    | .nan _ _ => 0x7FC00000
    | .inf _ => 0x7F800000
    | .fin _ m _ =>
      if m = 0 then 0x3F800000
      else
        let q := (evBind (fDiv 0 ((wide mx).1) (natTo64 (if elem = 4 then 448 else 57344))) narrow).1
        if q = 0 then 1 else q

/-- θ converted for the accelerators (R143). -/
def paramConvert (d : Desc) (r : Nat) (t : W32) (th : W32) : Nat × Events :=
  if d.elem = 4 ∨ d.elem = 5 then
    let q := fDiv 1 th.toNat t.toNat
    let e := encodeCode d.elem (decodeCode 1 q.1).exact (d.mode r) d.ovf
    (e.1, q.2.add e.2)
  else encodeCode d.elem (decodeCode 1 th.toNat).exact (d.mode r) d.ovf

end Sys2Proof.Machine
end

