-- ==== Sys2Proof/Machine/PlanImage.lean ====
section
/-! DEFINITION. Plan images: reading one, and the structure checks of admission (03_mill R99 to R105, 04_collectives
R120 to R146, 11_kerf_cores R352 and R353). -/

namespace Sys2Proof.Machine

/-! ### Refusal reasons (Tables 3.12, 4.3, R353) -/

def rsBadStructure : Nat := 0x01
def rsBadCode : Nat := 0x02
def rsBadStream : Nat := 0x03
def rsNotOrthogonal : Nat := 0x04
def rsNoSlot : Nat := 0x05
def rsNoArrays : Nat := 0x06
def rsNoCores : Nat := 0x07
def rsNoSync : Nat := 0x08
def rsNoSram : Nat := 0x09
def rsNoShare : Nat := 0x0A
def rsNoMemory : Nat := 0x0B
def rsDuplicateId : Nat := 0x0C
def rsNotInGroup : Nat := 0x0D
def rsBadSchedule : Nat := 0x0E
def rsHTooSmall : Nat := 0x0F
def rsBadOptimizer : Nat := 0x10
def rsBadEmbedding : Nat := 0x11
def rsNoQp : Nat := 0x12
def rsBadSync : Nat := 0x14
def rsBadProgram : Nat := 0x15
def rsBadTransform : Nat := 0x18
def rsNoRoute : Nat := 0x19

/-! ### Reading (Tables 3.7 to 3.10, 4.2, 4.7 to 4.10, 11.12, 11.13) -/

/-- A section table entry. -/
structure Sect where
  type : Nat
  flags : Nat
  off : Nat
  bytes : Nat
  count : Nat
  deriving DecidableEq, Repr

/-- The section table. -/
def readSects (im : List Byte) (n : Nat) : List Sect :=
  (List.range n).map (fun i =>
    let o := 128 + 16 * i
    ⟨fieldAt im o 2, fieldAt im (o + 2) 2, fieldAt im (o + 4) 4, fieldAt im (o + 8) 4, fieldAt im (o + 12) 4⟩)

/-- The section of a type. -/
def sectOf (ss : List Sect) (t : Nat) : Option Sect := ss.find? (fun s => s.type = t)

/-- The entries of a section, each as its bytes. -/
def entriesOf (im : List Byte) (ss : List Sect) (t size : Nat) : List (List Byte) :=
  match sectOf ss t with
  | none => []
  | some s => (List.range s.count).map (fun i => bytesAt im (s.off + size * i) size)

/-- A 16-bit field. -/
def half (b : List Byte) (o : Nat) : BitVec 16 := BitVec.ofNat 16 (fieldAt b o 2)
/-- A 32-bit field. -/
def word32 (b : List Byte) (o : Nat) : W32 := BitVec.ofNat 32 (fieldAt b o 4)
/-- A 64-bit field. -/
def word64 (b : List Byte) (o : Nat) : W64 := BitVec.ofNat 64 (fieldAt b o 8)

def readStream (b : List Byte) : StreamCfg :=
  { num := bits (fieldAt b 0 4) 0 24, kind := fieldAt b 4 1, xform := fieldAt b 5 1, inFmt := half b 6,
    wireFmt := half b 8, outFmt := half b 10, acc := fieldAt b 12 1, resid := fieldAt b 13 1, h := fieldAt b 14 1,
    xprec := bit (fieldAt b 15 1) 0, elements := bits (fieldAt b 16 8) 0 40, tscale := word32 b 24,
    shapeN := fieldAt b 28 4, source := word64 b 32, dest := word64 b 40, rank := fieldAt b 48 4 }

/-- Reserved bits of a stream entry are 0 (R99, Table 4.4). -/
def streamReserved (b : List Byte) : Bool :=
  let k := fieldAt b 4 1
  fieldAt b 3 1 == 0 && fieldAt b 15 1 < 2 && zeroAt b 21 3 && zeroAt b 0x34 12 &&
  (k > 3 || fieldAt b 47 1 == 0) && (k > 2 || fieldAt b 39 1 == 0) && (k != 3 || zeroAt b 35 5)

def readXform (im b : List Byte) : XformCfg :=
  let n := 2 ^ min (fieldAt b 1 1) 8
  let w := fmtBytes (fieldAt b 2 1)
  let off := fieldAt b 16 4
  { kind := fieldAt b 0 1, log2b := fieldAt b 1 1, wfmt := fieldAt b 2 1, tseed := word64 b 8,
    matrix := if fieldAt b 0 1 = 1 then
        (List.range (n * n)).map (fun i => BitVec.ofNat 64 (fieldAt im (off + w * i) w))
      else [] }

def readLevel (n : Nat) : Level := ⟨bits n 0 32, bits n 32 8, bits n 40 8⟩

def readRegion (b : List Byte) : Region :=
  ⟨BitVec.ofNat 8 (fieldAt b 0 1), fieldAt b 1 1, fieldAt b 8 8, fieldAt b 16 8⟩

/-- The schedule of a plan without one (R120): P = 1, no regions. -/
def Sched.alone (node : Nat) : Sched :=
  { levels := [], skipNonfinite := false, peerTimeout := 1000, startWait := 1, peers := [node], regions := [],
    readyReg := 0, clip := 0 }

def readSched (im : List Byte) (s : Sect) : Sched :=
  let b := (im.drop s.off).take s.bytes
  let p := fieldAt b 0 4
  let n := fieldAt b 4 1
  let ro := fieldAt b 0x34 4
  { levels := ((List.range (min n 4)).map (fun i => readLevel (fieldAt b (0x10 + 8 * i) 8))),
    skipNonfinite := bit (fieldAt b 5 1) 0, peerTimeout := fieldAt b 8 4, startWait := fieldAt b 12 4,
    peers := (List.range (min p 65536)).map (fun i => fieldAt b (fieldAt b 0x30 4 + 2 * i) 2),
    regions := (List.range (fieldAt b 0x38 2)).map (fun i => readRegion (bytesAt b (ro + 32 * i) 32)),
    readyReg := fieldAt b 0x3A 2, clip := word32 b 0x3C }

def readOpt (b : List Byte) : OptCfg :=
  { kind := fieldAt b 0 1, clip := bit (fieldAt b 1 1) 0, init := bit (fieldAt b 1 1) 1, program := fieldAt b 2 2,
    first := fieldAt b 4 4, count := fieldAt b 8 4, lr := word32 b 12, b1 := word32 b 16, b2 := word32 b 20,
    eps := word32 b 24, wd := word32 b 28, gscale := word32 b 32, lrKind := fieldAt b 36 1, warmup := fieldAt b 40 4,
    decay := fieldAt b 44 4, lrMin := word32 b 48, t0 := fieldAt b 52 4, initSrc := word64 b 56 }

def readEmbQ (b : List Byte) : EmbQ :=
  ⟨fieldAt b 0 2, fieldAt b 2 2, fieldAt b 4 4, fieldAt b 8 8, fieldAt b 16 8⟩

def readEmbT (b : List Byte) : EmbTab :=
  { table := fieldAt b 0 2, rowFmt := fieldAt b 2 1, rowOpt := fieldAt b 3 1, dim := fieldAt b 4 4,
    rows := bits (fieldAt b 8 8) 0 40, lr := word32 b 16, b1 := word32 b 20, b2 := word32 b 24, eps := word32 b 28,
    shards := fieldAt b 32 4, firstRank := fieldAt b 36 4, stream := fieldAt b 40 4, sr := bit (fieldAt b 44 1) 0,
    init := word32 b 48 }

def readSync (b : List Byte) : SyncCfg :=
  ⟨fieldAt b 0 1, fieldAt b 1 1, fieldAt b 2 1, fieldAt b 3 1, fieldAt b 4 4, fieldAt b 8 2⟩

def readProg (im b : List Byte) : ProgCfg :=
  let off := fieldAt b 8 4
  { index := fieldAt b 0 2, kind := fieldAt b 2 1, die := fieldAt b 3 1, lcore := fieldAt b 4 1,
    entry := fieldAt b 16 4, stack := fieldAt b 20 4, arrays := fieldAt b 24 1,
    words := (List.range (min (fieldAt b 12 4) 65537)).map (fun i => BitVec.ofNat 36 (fieldAt im (off + 8 * i) 8)) }

/-- The entries of the EMBEDDING section: eight queues, then tables (R144). -/
def embCount (ss : List Sect) : Nat :=
  match sectOf ss 6 with
  | some s => s.count - 8
  | none => 0

def readPlan (im : List Byte) (ss : List Sect) (node : Nat) : PlanCfg :=
  let emb := (sectOf ss 6).map (·.off)
  { planId := half im 4, allowSpill := bit (fieldAt im 6 2) 0, signed := bit (fieldAt im 6 2) 1,
    seed := word64 im 0x10, step0 := word64 im 0x18, sramBytes := fieldAt im 0x20 8, lpddrBytes := fieldAt im 0x28 8,
    spillable := fieldAt im 0x30 8, xgroup := fieldAt im 0x38 1, garrays := fieldAt im 0x39 1,
    seq := fieldAt im 0x3A 1, share := fieldAt im 0x3B 1, contrib := fieldAt im 0x3E 2,
    streams := (entriesOf im ss 1 64).map readStream, xforms := (entriesOf im ss 2 32).map (readXform im),
    sched := match sectOf ss 4 with
      | some s => readSched im s
      | none => Sched.alone node,
    opts := (entriesOf im ss 5 64).map readOpt,
    embQ := match emb with
      | some o => (List.range 8).map (fun i => readEmbQ (bytesAt im (o + 32 * i) 32))
      | none => [],
    embT := match emb with
      | some o => (List.range (embCount ss)).map (fun i => readEmbT (bytesAt im (o + 256 + 64 * i) 64))
      | none => [],
    syncs := (entriesOf im ss 7 16).map readSync, progs := (entriesOf im ss 8 32).map (readProg im),
    skipped := (ss.filter (fun s => s.type ≥ 0x8000)).length }

/-! ### BAD_STRUCTURE (R99, R100) -/

/-- Bytes that the entries of a section of a type take. -/
def sectNeeds (s : Sect) : Nat :=
  match s.type with
  | 1 => 64 * s.count
  | 2 => 32 * s.count
  | 4 => 64
  | 5 => 64 * s.count
  | 6 => 256 + 64 * (s.count - 8)
  | 7 => 16 * s.count
  | 8 => 32 * s.count
  | _ => 0

def schedReserved (im : List Byte) (s : Sect) : Bool :=
  let b := (im.drop s.off).take s.bytes
  fieldAt b 5 1 < 2 && zeroAt b 6 2 && [0, 1, 2, 3].all (fun i => bits (fieldAt b (0x10 + 8 * i) 8) 48 16 == 0) &&
  (List.range (fieldAt b 0x38 2)).all (fun i =>
    let r := fieldAt b 0x34 4 + 32 * i
    zeroAt b (r + 2) 6 && zeroAt b (r + 24) 8)

/-- Header, section table and reserved fields. -/
def structureOk (im : List Byte) : Bool :=
  let n := im.length
  let k := fieldAt im 0x0C 2
  let ss := readSects im k
  128 ≤ n && n ≤ 16777216 && fieldAt im 2 2 == 128 && fieldAt im 6 2 < 4 && fieldAt im 8 4 == n &&
  1 ≤ k && k ≤ 32 && zeroAt im 0x0E 2 && zeroAt im 0x40 64 && 128 + 16 * k ≤ n &&
  fieldAt im 0x38 1 ≤ 4 && fieldAt im 0x39 1 ≤ 4 && 1 ≤ fieldAt im 0x3A 1 && fieldAt im 0x3A 1 ≤ 64 &&
  1 ≤ fieldAt im 0x3B 1 && fieldAt im 0x3B 1 ≤ 100 &&
  ss.all (fun s => s.flags == 0 && (s.type ≥ 0x8000 || (s.off % 64 == 0 && 128 + 16 * k ≤ s.off && s.off + s.bytes ≤ n &&
    1 ≤ s.type && s.type ≤ 9 && sectNeeds s ≤ s.bytes && (s.type != 6 || s.count ≥ 8) && (s.type != 4 || s.count == 1)))) &&
  (ss.filter (fun s => s.type < 0x8000)).all (fun s => (ss.filter (fun u => u.type = s.type)).length == 1) &&
  (entriesOf im ss 1 64).all streamReserved &&
  (entriesOf im ss 2 32).all (fun b => zeroAt b 3 5 && zeroAt b 24 8) &&
  (match sectOf ss 4 with
    | some s => schedReserved im s
    | none => true) &&
  (entriesOf im ss 5 64).all (fun b => fieldAt b 1 1 < 4 && zeroAt b 37 3 && zeroAt b 63 1) &&
  (match sectOf ss 6 with
    | some s => (List.range 8).all (fun i => zeroAt im (s.off + 32 * i + 24) 8) &&
        (List.range (s.count - 8)).all (fun i =>
          let o := s.off + 256 + 64 * i
          zeroAt im (o + 13) 3 && fieldAt im (o + 44) 1 < 2 && zeroAt im (o + 45) 3 && zeroAt im (o + 52) 12)
    | none => true) &&
  (entriesOf im ss 7 16).all (fun b => zeroAt b 10 6) &&
  (entriesOf im ss 8 32).all (fun b => zeroAt b 5 3 && zeroAt b 25 7)

/-! ### The checks of step 2 -/

/-- A positive finite binary32 value. -/
def posB32 (w : W32) : Bool :=
  match decodeCode 1 w.toNat with
  | .fin n m _ => !n && m != 0
  | _ => false

/-- BAD_CODE (R48, R58, R59, R74). -/
def codesOk (p : PlanCfg) : Bool :=
  p.streams.all (fun s => (Desc.of s.inFmt).ok && (Desc.of s.wireFmt).ok && (Desc.of s.outFmt).ok &&
    (s.acc == 1 || s.acc == 15)) && p.xforms.all (fun x => x.wfmt < 16) && p.embT.all (fun t => t.rowFmt < 16)

/-- The optimizer group of a stream ordinal. -/
def PlanCfg.groupOf (p : PlanCfg) (k : Nat) : Option (Nat × OptCfg) :=
  ((List.range p.opts.length).zip p.opts).find? (fun g => g.2.first ≤ k && k < g.2.first + g.2.count)

/-- The KIND of the optimizer group of a stream ordinal; 0 without one. -/
def PlanCfg.groupKind (p : PlanCfg) (k : Nat) : Nat :=
  match p.groupOf k with
  | some g => g.2.kind
  | none => 0

/-- P of a plan. -/
def PlanCfg.np (p : PlanCfg) : Nat := p.sched.peers.length

/-- The transform of a stream. -/
def PlanCfg.xformOf (p : PlanCfg) (s : StreamCfg) : Option XformCfg := p.xforms[s.xform]?

/-- The rules of a kind 3 stream (R143). -/
def paramOk (p : PlanCfg) (s : StreamCfg) : Bool :=
  let o := (Desc.of s.outFmt).elem
  match p.streams[s.source.toNat]? with
  | some g => g.kind ≤ 2 && p.groupKind s.source.toNat != 0 && g.elements == s.elements && (Desc.of s.inFmt).elem == 1 &&
      s.wireFmt == s.outFmt && 1 ≤ o && o ≤ 5 && s.acc == 1 && s.resid == 0xFF && s.h == 1
  | none => false

/-- One stream entry (R101, R103, R143). -/
def streamOk (p : PlanCfg) (s : StreamCfg) : Bool :=
  let i := Desc.of s.inFmt
  let o := Desc.of s.outFmt
  s.kind ≤ 4 && (s.resid == 1 || s.resid == 2 || s.resid == 0xFF) && 1 ≤ s.h && s.h ≤ 15 && !o.scaled &&
  (s.elements == 0) == (s.kind == 4) &&
  (if s.kind == 3 && (o.elem == 4 || o.elem == 5) then s.tscale == 0 || posB32 s.tscale else s.tscale == 0) &&
  (match s.kind with
    | 0 => !i.scaled && (i.elem == 2 || i.elem == 3) && (match p.xformOf s with
        | some x => x.kind != 1 || x.wfmt == 1 || x.wfmt == i.elem
        | none => false) && (p.np == 1 || p.xgroup ≥ 1)
    | 1 => (match p.xformOf s with
        | some x => x.kind == 0
        | none => false) && p.contrib ≥ 1 && 1 ≤ s.shapeN && s.shapeN ≤ 1048576 && s.elements % s.shapeN == 0 &&
        s.elements / s.shapeN ≤ 1048576 && 1 ≤ s.rank && s.rank ≤ 256
    | _ => s.xform == 0xFF) &&
  (s.kind == 1 || (s.shapeN == 0 && s.rank == 0)) && (s.kind != 3 || paramOk p s)

/-- BAD_STREAM. -/
def streamsOk (p : PlanCfg) : Bool :=
  p.streams.length ≤ 262144 && decide ((p.streams.map (·.num)).Nodup) && p.streams.all (streamOk p)

/-- One transform entry as its bytes (R102). -/
def xformOk (n : Nat) (b : List Byte) : Bool :=
  let l := fieldAt b 1 1
  let w := fieldAt b 2 1
  5 ≤ l && l ≤ 8 && (match fieldAt b 0 1 with
    | 0 => w == 0 && fieldAt b 16 4 == 0 && fieldAt b 20 4 == 0
    | 1 => (w == 1 || w == 2 || w == 3) && zeroAt b 8 8 && fieldAt b 20 4 == 2 ^ (2 * l) * fmtBytes w &&
        fieldAt b 16 4 + fieldAt b 20 4 ≤ n
    | _ => false)

/-- BAD_TRANSFORM. -/
def xformsOk (im : List Byte) (ss : List Sect) (p : PlanCfg) : Bool :=
  p.xforms.length ≤ 16 && (entriesOf im ss 2 32).all (xformOk im.length) &&
  p.xforms.all (fun x => x.log2b == (p.xforms.map (·.log2b)).headD 0)

/-- Bits set in a mask. -/
def ones8 (m : BitVec 8) : Nat := popcount 8 m.toNat

/-- Eight region entries in the unicast layout, or for writes the multicast layout (R122, R123). -/
def eightOk (s : Sched) (idx : Nat) (write : Bool) : Bool :=
  let ms := (sub s.regions idx 8).map (·.mask)
  let m := fun i => ms.getD i 0
  ms.length == 8 &&
  ((List.range 8).all (fun k => m k == 0 || m k == BitVec.ofNat 8 (2 ^ k)) ||
   (write && [0, 1, 2, 3].all (fun k => m k == 0 || ones8 (m k) == 2) && [4, 5, 6, 7].all (fun k => m k == 0) &&
    ones8 (m 0 ||| m 1 ||| m 2 ||| m 3) == ones8 (m 0) + ones8 (m 1) + ones8 (m 2) + ones8 (m 3)))

/-- A stream's DEST names regions (Table 4.4). -/
def PlanCfg.writesDest (p : PlanCfg) (k : Nat) (s : StreamCfg) : Bool :=
  s.kind == 3 || (s.kind ≤ 2 && p.groupKind k == 0)

/-- Accelerators that a mask layout reaches. -/
def reaches (s : Sched) (idx : Nat) : BitVec 8 := (sub s.regions idx 8).foldl (fun a r => a ||| r.mask) 0

/-- SOURCE and DEST of a stream, and its part in the ready regions (R123, R132). -/
def regionsOk (p : PlanCfg) (k : Nat) (s : StreamCfg) : Bool :=
  let src := s.source.toNat % 65536
  let dst := s.dest.toNat % 65536
  (s.kind > 2 || eightOk p.sched src false) &&
  (if p.writesDest k s then
    eightOk p.sched dst true && (List.range 8).all (fun a =>
      let r := p.sched.regions.getD (p.sched.readyReg + a) ⟨0, 0, 0, 0⟩
      !(reaches p.sched dst).getLsbD a || (r.mask != 0 && r.bytes ≥ 16 * p.streams.length))
   else s.dest == 0) && (s.kind != 4 || s.source == 0)

/-- The product of the group sizes. -/
def schedSize (ls : List Level) : Nat := ls.foldl (fun a l => a * l.g) 1

/-- A level (R121). -/
def levelOk (l : Level) : Bool :=
  2 ≤ l.g && l.g ≤ 65536 && l.alg ≤ 2 && 1 ≤ l.paths && l.paths ≤ 128 && (l.alg != 1 || 2 ^ Nat.log2 l.g == l.g)

/-- BAD_SCHEDULE (R120 to R123, R132); `inWin` says that a region lies within the slice's DMA windows. -/
def schedOk (im : List Byte) (ss : List Sect) (p : PlanCfg) (inWin : Region → Bool) : Bool :=
  match sectOf ss 4 with
  | none => p.streams.isEmpty && (sectOf ss 6).isNone
  | some s =>
    let b := (im.drop s.off).take s.bytes
    let n := fieldAt b 4 1
    let peers := fieldAt b 0 4
    1 ≤ peers && peers ≤ 65536 && n ≤ 4 && (n != 0 || peers == 1) && 1000 ≤ p.sched.peerTimeout &&
    p.sched.peerTimeout ≤ 60000000 && 1 ≤ p.sched.startWait && p.sched.startWait ≤ 3600000 &&
    p.sched.levels.all levelOk && schedSize p.sched.levels == peers &&
    ((List.range 4).drop n).all (fun i => fieldAt b (0x10 + 8 * i) 8 == 0) &&
    fieldAt b 0x30 4 % 64 == 0 && fieldAt b 0x30 4 + 2 * peers ≤ s.bytes && fieldAt b 0x34 4 % 64 == 0 &&
    fieldAt b 0x34 4 + 32 * fieldAt b 0x38 2 ≤ s.bytes && decide (p.sched.peers.Nodup) &&
    (p.sched.clip == 0 || posB32 p.sched.clip) &&
    p.sched.regions.all (fun r => ones8 r.mask ≤ 2 && (r.mask == 0 || (r.port < 4 && inWin r))) &&
    (p.streams.isEmpty || eightOk p.sched p.sched.readyReg false) &&
    ((List.range p.streams.length).zip p.streams).all (fun e => regionsOk p e.1 e.2)

/-- Wire quantizations of a level (R127). -/
def levelH (l : Level) : Nat := if l.alg = 0 then 1 else if l.alg = 1 then Nat.log2 l.g else l.g - 1

/-- H_TOO_SMALL (R127). -/
def hOk (p : PlanCfg) : Bool :=
  p.streams.all (fun s => s.kind > 2 || (p.sched.levels.map levelH).sum ≤ s.h)

/-- 0 ≤ β < 1. -/
def betaOk (w : W32) : Bool :=
  match decodeCode 1 w.toNat with
  | .fin n m e => (m == 0 || !n) && cmpVal (.fin n m e) (.fin false 1 0) == 0
  | _ => false

/-- Greater than 0, +infinity included. -/
def aboveZero (w : W32) : Bool := cmpVal (decodeCode 1 w.toNat) (.fin false 0 0) == 2

/-- One optimizer group (R135). -/
def optOk (p : PlanCfg) (o : OptCfg) : Bool :=
  o.kind ∈ [0, 1, 2, 3, 4, 5, 15] && o.first + o.count ≤ p.streams.length &&
  (sub p.streams o.first o.count).all (fun s => s.kind ≤ 2) &&
  (if o.kind == 15 then p.progs.any (fun g => g.index == o.program && g.kind == 1) else o.program == 0) &&
  (o.kind != 1 || aboveZero o.eps) && betaOk o.b1 && betaOk o.b2 && o.lrKind ≤ 2 && (o.lrKind == 0 || o.decay != 0) &&
  (!o.init || eightOk p.sched (o.initSrc.toNat % 65536) false)

/-- BAD_OPTIMIZER (R135). -/
def optsOk (p : PlanCfg) : Bool :=
  p.opts.length ≤ 256 && p.opts.all (optOk p) &&
  (List.range p.streams.length).all (fun k =>
    (p.opts.filter (fun o => o.first ≤ k && k < o.first + o.count)).length ≤ 1) &&
  ((List.range p.streams.length).zip p.streams).all (fun e =>
    e.2.kind > 2 || (p.groupOf e.1).isSome || e.2.dest != 0)

/-- One embedding table (R145, R146). -/
def embTabOk (p : PlanCfg) (t : EmbTab) : Bool :=
  1 ≤ t.rowFmt && t.rowFmt ≤ 3 && t.rowOpt ≤ 2 && 1 ≤ t.dim && t.dim ≤ 4096 && 1 ≤ t.shards && t.shards ≤ p.np &&
  t.firstRank + t.shards ≤ p.np && (match p.streams[t.stream]? with
    | some s => s.kind == 4 && !(Desc.of s.wireFmt).scaled && (Desc.of s.wireFmt).elem ∈ [1, 2, 3]
    | none => false)

/-- One embedding queue (Table 4.9): a present unicast region to read descriptors from, since multicast regions are
never read (R122), and a present one for completions. -/
def embQOk (p : PlanCfg) (q : EmbQ) : Bool :=
  q.ringReg == 0xFFFF || ((p.sched.regions[q.ringReg]?).any (fun r => ones8 r.mask == 1) &&
    (p.sched.regions[q.cqReg]?).any (fun r => r.mask != 0) &&
    64 ≤ q.depth && q.depth ≤ 65536 && 2 ^ Nat.log2 q.depth == q.depth)

/-- BAD_EMBEDDING. -/
def embsOk (p : PlanCfg) : Bool :=
  p.embT.length ≤ 1024 && decide ((p.embT.map (·.table)).Nodup) && p.embT.all (embTabOk p) && p.embQ.all (embQOk p)

/-- BAD_SYNC (R353). -/
def syncsOk (im : List Byte) (p : PlanCfg) : Bool :=
  p.syncs.length == fieldAt im 0x3C 2 && decide ((p.syncs.map (fun s => (s.lcore, s.counter))).Nodup) &&
  p.syncs.all (fun s => s.counter ≤ 39 && s.lcore < p.seq && s.role ≤ 5 &&
    (if s.role == 2 then 1 ≤ s.level && s.level ≤ 4 else s.level == 0) &&
    (match s.role with
      | 1 => s.arg < p.streams.length
      | 2 => s.arg < 2 ^ 24
      | 3 => s.arg < p.opts.length
      | 5 => s.arg < p.streams.length
      | _ => s.arg == 0))

/-- BAD_PROGRAM (R352, R353). -/
def progsOk (im : List Byte) (ss : List Sect) (p : PlanCfg) : Bool :=
  (entriesOf im ss 8 32).all (fun b => fieldAt b 8 4 % 64 == 0 && fieldAt b 8 4 + 8 * fieldAt b 12 4 ≤ im.length &&
    (List.range (fieldAt b 12 4)).all (fun i => fieldAt im (fieldAt b 8 4 + 8 * i) 8 < 2 ^ 36)) &&
  decide ((p.progs.map (·.index)).Nodup) && decide ((p.progs.map (fun g => (g.lcore, g.kind))).Nodup) &&
  p.progs.all (fun g => g.kind ≤ 1 && (g.die ≤ 3 || g.die == 0xFF) && g.lcore < p.seq &&
    g.words.length + g.stack ≤ 65536 && g.entry < 2 * g.words.length && g.arrays ≤ 3 &&
    (g.kind == 1 || g.arrays == 0))

/-- The first reason of step 2 that applies to an image (R105) with the optional sections skipped before it (R100; none
where the structure itself fails), or its configuration. -/
def planCheck (im : List Byte) (node : Nat) (inWin : Region → Bool) : (Nat × Nat) ⊕ PlanCfg :=
  if !structureOk im then .inl (rsBadStructure, 0)
  else
    let ss := readSects im (fieldAt im 0x0C 2)
    let p := readPlan im ss node
    if !codesOk p then .inl (rsBadCode, p.skipped)
    else if !streamsOk p then .inl (rsBadStream, p.skipped)
    else if !xformsOk im ss p then .inl (rsBadTransform, p.skipped)
    else if !schedOk im ss p inWin then .inl (rsBadSchedule, p.skipped)
    else if !hOk p then .inl (rsHTooSmall, p.skipped)
    else if !optsOk p then .inl (rsBadOptimizer, p.skipped)
    else if !embsOk p then .inl (rsBadEmbedding, p.skipped)
    else if !syncsOk im p then .inl (rsBadSync, p.skipped)
    else if !progsOk im ss p then .inl (rsBadProgram, p.skipped)
    else if node ∉ p.sched.peers then .inl (rsNotInGroup, p.skipped)
    else .inr p

end Sys2Proof.Machine
end

