-- ==== Sys2Proof/Machine/Exchange.lean ====
section
/-! DEFINITION. The exchange of shards over the levels of a schedule: who holds what, what each round sends and
what it waits for (04_collectives R128 to R131, R138, 13_bark_security R403). -/

namespace Sys2Proof.Machine

/-! ### Coordinates (R129) -/

/-- The product of the group sizes below a level, levels counted from 0. -/
def below (ls : List Level) (i : Nat) : Nat := schedSize (ls.take i)

/-- The coordinate of a rank at a level. -/
def coord (ls : List Level) (i r : Nat) : Nat := r / below ls i % (ls.getD i ⟨1, 0, 1⟩).g

/-- The rank that differs from `r` only in its coordinate at level `i`, which is `j`. -/
def rankAt (ls : List Level) (i r j : Nat) : Nat := r - coord ls i r * below ls i + j * below ls i

/-- log2 of a group size. -/
def lg (g : Nat) : Nat := Nat.log2 g

/-- Rounds of a level: DIRECT 1, HALVING log2 g, RING g − 1. -/
def rounds (l : Level) : Nat := if l.alg = 0 then 1 else if l.alg = 1 then lg l.g else l.g - 1

/-! ### Shards (R128) -/

/-- A tensor under exchange: index of its first element, elements, and block size. -/
structure Ten where
  base : Nat
  n : Nat
  b : Nat
  deriving DecidableEq, Repr

/-- First element and count of shard `r` of `p`. -/
def Ten.shard (t : Ten) (p r : Nat) : Nat × Nat :=
  let bb := (t.n + t.b - 1) / t.b
  let lo := min t.n (r * bb / p * t.b)
  let hi := min t.n ((r + 1) * bb / p * t.b)
  (lo, hi - lo)

/-- Shards that are not empty among ranks. -/
def Ten.full (t : Ten) (p : Nat) (rs : List Nat) : List Nat := rs.filter (fun r => (t.shard p r).2 != 0)

/-! ### Reduce-scatter (R129) -/

/-- The ranks whose shards a device holds before level `i`: those that agree with it below. -/
def heldRed (ls : List Level) (p i r : Nat) : List Nat :=
  (List.range p).filter (fun q => q % below ls i = r % below ls i)

/-- What round `k` of level `i` sends: destination coordinate and shards. -/
def sendsRed (ls : List Level) (p i k r : Nat) : List (Nat × List Nat) :=
  let l := ls.getD i ⟨1, 0, 1⟩
  let c := coord ls i r
  let held := heldRed ls p i r
  let part := fun j => held.filter (fun q => coord ls i q = j)
  match l.alg with
  | 0 => ((List.range l.g).filter (fun j => j != c)).map (fun j => (j, part j))
  | 1 =>
    let b := 2 ^ (lg l.g - 1 - k)
    [(c ^^^ b, held.filter (fun q =>
      let j := coord ls i q
      j / (2 * b) = c / (2 * b) && j / b != c / b))]
  | _ => [((c + 1) % l.g, part ((c + l.g - 1 - k) % l.g))]

/-- What round `k` of level `i` waits for: sender's coordinate and shard. -/
def waitsRed (ls : List Level) (p i k r : Nat) : List (Nat × Nat) :=
  let l := ls.getD i ⟨1, 0, 1⟩
  let c := coord ls i r
  let held := heldRed ls p i r
  let part := fun j => held.filter (fun q => coord ls i q = j)
  match l.alg with
  | 0 => (((List.range l.g).filter (fun j => j != c)).map (fun j => (part c).map (fun q => (j, q)))).flatten
  | 1 =>
    let b := 2 ^ (lg l.g - 1 - k)
    (held.filter (fun q => coord ls i q / b = c / b)).map (fun q => (c ^^^ b, q))
  | _ => (part ((c + 2 * l.g - 2 - k) % l.g)).map (fun q => ((c + l.g - 1) % l.g, q))

/-! ### All-gather (R131) -/

/-- The ranks whose shards member `j` of the level-`i` group holds before that level of GATHER. -/
def heldGat (ls : List Level) (p i r j : Nat) : List Nat :=
  (List.range p).filter (fun q => q % below ls i = r % below ls i && coord ls i q = j)

/-- What round `k` of level `i` of GATHER sends. -/
def sendsGat (ls : List Level) (p i k r : Nat) : List (Nat × List Nat) :=
  let l := ls.getD i ⟨1, 0, 1⟩
  let c := coord ls i r
  match l.alg with
  | 0 => ((List.range l.g).filter (fun j => j != c)).map (fun j => (j, heldGat ls p i r c))
  | 1 =>
    let b := 2 ^ k
    [(c ^^^ b, (((List.range l.g).filter (fun j => j / b = c / b)).map (heldGat ls p i r)).flatten)]
  | _ => [((c + 1) % l.g, heldGat ls p i r ((c + l.g - k) % l.g))]

/-- What round `k` of level `i` of GATHER waits for. -/
def waitsGat (ls : List Level) (p i k r : Nat) : List (Nat × Nat) :=
  let l := ls.getD i ⟨1, 0, 1⟩
  let c := coord ls i r
  match l.alg with
  | 0 => (((List.range l.g).filter (fun j => j != c)).map (fun j => (heldGat ls p i r j).map (fun q => (j, q)))).flatten
  | 1 =>
    let b := 2 ^ k
    let s := c ^^^ b
    ((((List.range l.g).filter (fun j => j / b = s / b)).map (heldGat ls p i r)).flatten).map (fun q => (s, q))
  | _ => (heldGat ls p i r ((c + 2 * l.g - 1 - k) % l.g)).map (fun q => ((c + l.g - 1) % l.g, q))

/-! ### Plan peers (R403) -/

/-- Coordinates of the plan peers at a level. -/
def peerCoords (l : Level) (c : Nat) : List Nat :=
  match l.alg with
  | 0 => (List.range l.g).filter (fun j => j != c)
  | 1 => (List.range (lg l.g)).map (fun k => c ^^^ 2 ^ k)
  | _ => if l.g = 2 then [(c + 1) % 2] else [(c + l.g - 1) % l.g, (c + 1) % l.g]

/-- The level at which each plan peer is met and its rank. -/
def peerRanks (s : Sched) (r : Nat) : List (Nat × Nat) :=
  ((List.range s.levels.length).map (fun i =>
    (peerCoords (s.levels.getD i ⟨1, 0, 1⟩) (coord s.levels i r)).map (fun j => (i, rankAt s.levels i r j)))).flatten

/-- Node IDs of the plan peers, each once, with PATHS of the level. -/
def planPeers (s : Sched) (r : Nat) : List (Nat × Nat) :=
  (peerRanks s r).map (fun e => (s.peers.getD e.2 0, (s.levels.getD e.1 ⟨1, 0, 1⟩).paths))

/-- What round `k` of a level sends of scalars: destination coordinates. -/
def scalDests (l : Level) (c k : Nat) : List Nat :=
  match l.alg with
  | 0 => (List.range l.g).filter (fun j => j != c)
  | 1 => [c ^^^ 2 ^ (lg l.g - 1 - k)]
  | _ => [(c + 1) % l.g]

/-- The coordinates whose values a member holds after `k` rounds of a scalar exchange (R138). -/
def scalHeld (l : Level) (c k : Nat) : List Nat :=
  match l.alg with
  | 0 => if k = 0 then [c] else List.range l.g
  | 1 =>
    let m := 2 ^ (lg l.g - k)
    (List.range l.g).filter (fun j => j % m = c % m)
  | _ => (List.range (k + 1)).map (fun x => (c + l.g - x) % l.g)

end Sys2Proof.Machine
end

