-- ==== Sys2Proof/Machine/Parts/Bark.lean ====
section
/-! DEFINITION. State of Bark: key slots, sessions, internal keys and measurements (13_bark_security). -/

namespace Sys2Proof.Machine

/-- States of a key slot (R392). -/
inductive SlotState where
  | free
  | allocated
  | loaded
  | locked
  deriving DecidableEq, Repr

/-- The code of a slot state. -/
def SlotState.code : SlotState → Nat
  | .free => 0
  | .allocated => 1
  | .loaded => 2
  | .locked => 3

/-- The owner of a key slot (R392). -/
inductive SlotOwner where
  | slice (s : Nat)
  | device
  | session (id : Nat)
  deriving DecidableEq, Repr

/-- A key slot that is not FREE (R392 to R394). -/
structure KeySlot where
  state : SlotState
  use : Nat
  owner : SlotOwner
  held : Bool
  refs : Nat
  challenge : Option (BitVec 128)
  key : BitVec 512
  salt : BitVec 48
  limit : Nat
  /-- First counter value not leased. -/
  next : Nat
  /-- Leased values not used of West and of East: first, and the first beyond. -/
  leaseW : Nat × Nat
  leaseE : Nat × Nat
  deriving DecidableEq, Repr

/-- A session with a peer, or the handshake of one (R399 to R403). -/
structure Session where
  peer : Nat
  /-- The slice whose quota holds the slots. -/
  slice : Nat
  plan : Option Nat
  peerSlice : Nat
  requester : Bool
  /-- Steps of R399 done; 9 once established. -/
  step : Nat
  owner : Option Owner
  tx : Nat
  rx : Nat
  peerRx : Nat
  /-- The highest IVCTR that has verified on the SESSION_RX slot (R401). -/
  highIv : Nat
  /-- QPN of the peer's collective queue pair, and the agreed collective message version (R399). -/
  peerQpn : Nat
  version : BitVec 16
  /-- The session that this one replaces (R402). -/
  replaces : Option Nat
  /-- Replaced: its slots are freed 1 s after the move. -/
  old : Bool
  /-- Its replacement could not be opened: the session runs on (R402). -/
  stuck : Bool
  deriving DecidableEq, Repr

/-- A key that is no slot, in its two generations (R395). -/
structure InternalKey where
  active : Bool
  used : Nat
  key0 : Option (BitVec 256)
  key1 : Option (BitVec 256)
  resealing : Bool
  deriving DecidableEq, Repr

/-- What a requester negotiated with the SPDM responder (R390). -/
structure SpdmConn where
  /-- 1 after GET_VERSION, 2 after GET_CAPABILITIES, 3 after NEGOTIATE_ALGORITHMS. -/
  step : Nat
  version : Nat
  /-- The slice that a VENDOR_DEFINED_REQUEST named, or the plan slot with 512 added (R399). -/
  target : Option Nat
  deriving DecidableEq, Repr

/-- What West's Bark derives at a cold reset and never gives out (R385): the seed S, and the private scalars of the identity
key and of the key-agreement key. -/
structure Identity where
  seed : BitVec 256
  idk : Nat
  kak : Nat
  deriving DecidableEq, Repr

/-- Bark. -/
structure Bark where
  /-- The identity, from stage APPLY of a cold reset on. -/
  ident : Option Identity
  /-- Key slots that are not FREE. -/
  slots : Tbl KeySlot
  sessions : Tbl Session
  nextSession : Nat
  /-- Internal keys: 0 and 1 the backing-store keys of the dies, 2 journal, 3 handoff, 16 + slice spill. -/
  internal : Tbl InternalKey
  /-- Measurements by index (Table 13.2). -/
  meas : Tbl (BitVec 256)
  /-- SPDM requesters by transport. -/
  conns : Tbl SpdmConn
  /-- Values drawn from the DRBG so far. -/
  drbgCtr : Nat
  /-- TCLK counts of requests that ended in CIPHER_FAULT, by die (R406). -/
  cipherFaults : List (Nat × Nat)
  deriving DecidableEq, Repr

end Sys2Proof.Machine
end

