-- ==== Sys2Proof/Machine/Parts/Flt.lean ====
section
/-! DEFINITION. State of the fault collector, Tally and node telemetry (15_faults_telemetry). -/

namespace Sys2Proof.Machine

/-- A fault record (Tables 15.2 and 15.3, TYPE 1). -/
structure FaultRec where
  src : Nat
  cls : FClass
  code : Nat
  unit : Nat
  count : Nat
  addr : Nat
  forced : Bool
  ringState : Nat
  node : Nat
  seq : Nat
  stamp : W64
  deriving DecidableEq, Repr

/-- Any 64 B record of Table 15.3 that waits for the telemetry stream. -/
structure TelRec where
  type : Nat
  src : Nat
  seq : Nat
  lostBefore : Bool
  ringState : Nat
  stamp : W64
  body : List Byte
  deriving DecidableEq, Repr

/-- The fault collector (R428 to R436). -/
structure Flt where
  /-- The fault log: (sequence position, record), newest first, at most 4,096. -/
  log : List (Nat × FaultRec)
  /-- Sequence position of the next log record. -/
  next : Nat
  /-- Next sequence number of each record source, by TYPE × 65,536 + SOURCE (R435). -/
  seqs : Tbl Nat
  /-- The FAULT_N pulse is in progress. -/
  pulse : Bool
  /-- FAULT_N is held low after a pulse by FLT_PIN_CTRL.DRIVE (R433). -/
  pinHeld : Bool
  /-- The sixteen words latched into FLT_LOG_DATA, by manager function. -/
  latched : Tbl (List W32)
  /-- Merged corrected-error records not yet written: last record time and count by source key (R169). -/
  merge : Tbl (Nat × Nat)
  deriving DecidableEq, Repr

/-- Tally (R437 to R441). -/
structure Tally where
  /-- Counts by event number; an unlisted counter is 0. -/
  counts : Tbl Nat
  /-- The snapshot bank. -/
  bank : Tbl Nat
  snapStamp : W64
  snapBusy : Bool
  snapSeq : Nat
  /-- Policer counts, by die × 16,384 + policer: green, yellow, red, dropped. -/
  pol : Tbl (List Nat)
  /-- Policer counts latched by a write of TLY_POL_SEL, by manager function. -/
  polLatch : Tbl (List Nat)
  deriving DecidableEq, Repr

/-- An MCTP endpoint of a port (R442). -/
structure Endpoint where
  port : Nat
  eid : Nat
  present : Bool
  misses : Nat
  /-- The poll that waits for an answer. -/
  polling : Bool
  sensors : List Nat
  pdrStale : Bool
  deriving DecidableEq, Repr

/-- Node telemetry (R442, R443). -/
structure Telemetry where
  endpoints : Tbl Endpoint
  queue : List TelRec
  dgramSeq : Tbl Nat
  /-- Sources, as TYPE × 65,536 + SOURCE, of which a record was dropped since the last one delivered. -/
  lost : List Nat
  /-- The stream stopped because its key slot was locked or absent (R443). -/
  stopped : Bool
  deriving DecidableEq, Repr

end Sys2Proof.Machine
end

