-- ==== Sys2Proof/Machine/Parts/Lanes.lean ====
section
/-! DEFINITION. State of the network lanes and of the module's input pins (16_module_pins). -/

namespace Sys2Proof.Machine

/-- The network lanes (R456 to R458). -/
structure Lanes where
  /-- GROUP[0..3] of the LANES section in force (Table 16.10). -/
  group : List Nat
  /-- TX_INV and RX_INV in force: a lane's bit inverts its polarity. -/
  txInv : W32
  rxInv : W32
  /-- The macro that serves each lane 0 to 31, by its number on the lane's die. -/
  macros : Tbl Nat
  /-- Macros retired in service or failed in self-test, as die × 18 + macro. -/
  lost : List Nat
  /-- Ethernet ports whose link is up, by first lane. -/
  up : List Nat
  deriving DecidableEq, Repr

/-- The input pins whose level the device keeps (Table 16.4). -/
structure Pins where
  mrstLow : Bool
  wrstLow : Bool
  perstLow : BitVec 4
  xclkA : Bool
  xclkB : Bool
  deriving DecidableEq, Repr

end Sys2Proof.Machine
end

