-- ==== Sys2Proof/Machine/Parts/Nvme.lean ====
section
/-! DEFINITION. State of the NVMe front ends: controllers, queues, volumes and the writes in them (09_storage). -/

namespace Sys2Proof.Machine

/-- An NVMe status: code type and code (Table 9.4). -/
structure NvStatus where
  sct : Nat
  sc : Nat
  deriving DecidableEq, Repr

/-- A completion queue entry of a controller less its phase. -/
structure NvCqe where
  result : W32
  sq : Nat
  cid : BitVec 16
  status : NvStatus
  deriving DecidableEq, Repr

/-- A submission queue (R284, R304). -/
structure NvSq where
  cq : Nat
  base : Nat
  depth : Nat
  /-- Tail written by the doorbell. -/
  tail : Nat
  /-- Entries fetched, and of those the ones that have arrived, as ring indices. -/
  head : Nat
  arrived : Nat
  frozen : Bool
  deriving DecidableEq, Repr

/-- A completion queue. -/
structure NvCq where
  base : Nat
  depth : Nat
  ien : Bool
  vector : Nat
  /-- Entries written and entries consumed, free-running. -/
  written : Nat
  head : Nat
  held : List NvCqe
  deriving DecidableEq, Repr

/-- An Error Information entry (R306). -/
structure NvError where
  count : Nat
  sq : Nat
  cid : BitVec 16
  status : NvStatus
  lba : Nat
  nsid : Nat
  target : Nat
  stamp : W64
  deriving DecidableEq, Repr

/-- A part of a read in one unit (R298): the unit, the map entry it took, the first block in the unit and the number
of blocks, the cached blocks of completed writes as they were, and the answer of the target: per block, the
data and whether its tag failed. -/
structure ReadPart where
  unit : Nat
  entry : MapEntry
  first : Nat
  count : Nat
  cached : Tbl Block
  got : Option (List (Block × Bool))
  retries : Nat
  deriving DecidableEq, Repr

/-- What a fetched command that has not completed does. -/
inductive NvWork where
  /-- A write, Write Zeroes or Deallocate: the numbers of its unit jobs that have not ended. -/
  | write (jobs : List Nat)
  /-- A flush: the numbers of the unit jobs it waits for. -/
  | flush (jobs : List Nat)
  | read (vol : Nat) (segs : List (Nat × Nat)) (parts : List ReadPart)
  deriving DecidableEq, Repr

/-- A fetched command that has not completed. -/
structure NvCmd where
  sq : Nat
  cid : BitVec 16
  nsid : Nat
  lba : Nat
  work : NvWork
  /-- The first failure of a part of it. -/
  fail : Option (NvStatus × Nat)
  deriving DecidableEq, Repr

/-- A controller: slice × 4 + port (R284). -/
structure Ctrl where
  cc : W32
  rdy : Bool
  /-- CSTS.SHST: 0 normal, 1 occurring, 2 complete. -/
  shst : Nat
  /-- A reset by CC.EN waits until the fetched writes are done (R287). -/
  disabling : Bool
  aqa : W32
  asq : W64
  acq : W64
  /-- Queues by number; 0 is the admin queue. -/
  sqs : Tbl NvSq
  cqs : Tbl NvCq
  cmds : List NvCmd
  /-- Outstanding Asynchronous Event Requests: their command IDs. -/
  aers : List (BitVec 16)
  /-- Events not reported yet: type, information, log page. -/
  events : List (Nat × Nat × Nat)
  /-- Error log, newest first, at most 256. -/
  errors : List NvError
  errCount : Nat
  /-- Features 06h, 07h, 08h and 0Bh as set. -/
  features : Tbl W32
  deriving DecidableEq, Repr

/-- How far a unit write is (the steps of R296). -/
inductive JobStep where
  /-- It waits for the unit's earlier writes or for its start. -/
  | queued
  /-- Steps 1 and 2 are under way: an extent is taken, the old blocks are read. -/
  | reading
  /-- Step 3: the extent is being written. -/
  | writing
  /-- Step 4: the target is being flushed. -/
  | flushing
  /-- Step 5: the swap is issued. -/
  | swapping
  /-- Step 6: the FLUSH with PERSIST is issued. -/
  | persisting
  deriving DecidableEq, Repr

/-- One unit of a write, Write Zeroes or Deallocate (R296, R303). -/
structure UnitJob where
  num : Nat
  unit : Nat
  /-- Blocks it writes, by index in the unit; a swap to VALID 0 writes none. -/
  blocks : Tbl Block
  invalidate : Bool
  /-- It comes from Deallocate, which a Flush does not wait for (R302). -/
  dealloc : Bool
  /-- Its command has completed: the data stand in the cache (R301). -/
  done : Bool
  /-- The controller that fetched it, with the submission queue and command ID. -/
  ctrl : Nat
  sq : Nat
  cid : BitVec 16
  step : JobStep
  tgt : Nat
  ext : Nat
  retries : Nat
  deriving DecidableEq, Repr

/-- An attached volume (R288 to R301). -/
structure Volume where
  desc : VolDesc
  /-- The owner word that the attach swapped in (R295). -/
  ownerWord : Nat
  fenced : Bool
  wce : Bool
  /-- The held map: entries that differ from never written. -/
  map : Tbl MapEntry
  /-- Extents of each target. -/
  extents : List Nat
  /-- Unit jobs in the order of their fetch. -/
  jobs : List UnitJob
  nextJob : Nat
  /-- Queue pairs to the map store and to the targets. -/
  qps : List Nat
  detach : Option Owner
  tagFail : Nat
  retried : Nat
  freezes : Nat
  conflicts : Nat
  deriving DecidableEq, Repr

/-- An operation on a target or on the map store (R290). -/
inductive TgtOp where
  | read (tgt lba n : Nat)
  | write (tgt lba : Nat) (blocks : List Block) (trailer : List Byte)
  | flush (tgt : Nat)
  | deallocate (tgt lba n : Nat)
  | swap (addr old new : Nat)
  | persist
  deriving DecidableEq, Repr

/-- The NVMe front ends. -/
structure Nvme where
  /-- Controllers that differ from their state after reset, by slice × 4 + port. -/
  ctrls : Tbl Ctrl
  /-- Attached volumes by attachment index. -/
  vols : Tbl Volume
  deriving DecidableEq, Repr

end Sys2Proof.Machine
end

