-- ==== Sys2Proof/Machine/Parts/Pcie.lean ====
section
/-! DEFINITION. State of the PCIe endpoint and the slices (08_host_endpoint). -/

namespace Sys2Proof.Machine

/-- Who waits for the data of a read that the device issued. -/
inductive Initiator where
  | cmdRing (iss : Issuer)
  | wqe (qpn : Nat)
  | rqe (qpn : Nat)
  | context (qpn : Nat)
  | nvmeSq (slice q : Nat)
  | emb (slot acc : Nat)
  | intake (slot stream acc : Nat)
  | init (slot stream : Nat)
  | spill (slot block : Nat)
  | core (core : Nat)
  | fence (id : Nat)
  | buffer
  deriving DecidableEq, Repr

/-- A PCIe AtomicOp of 64 bits: Swap, FetchAdd, or CAS with its compare value (R206). -/
inductive PcieAtomic where
  | swap (v : W64)
  | fetchAdd (v : W64)
  | cas (cmp v : W64)
  deriving DecidableEq, Repr

/-- A non-posted request of the device (R260, R265): its port, function, slice (none for the device's own),
initiator, address and length, and the operation of an AtomicOp. -/
structure ReadReq where
  port : Nat
  kind : FnKind
  slice : Option Nat
  ini : Initiator
  addr : Nat
  len : Nat
  atomic : Option PcieAtomic
  deriving DecidableEq, Repr

/-- A read slot of a port (R265, R267): an outstanding request, the bytes received and its tag; or a quarantine. -/
inductive SlotUse where
  | out (req : ReadReq) (got tag : Nat)
  | quarantined (kind : FnKind)
  deriving DecidableEq, Repr

/-- A posted write of the device: bytes with the poison marks of their granules (R264, R270). -/
structure Dma where
  port : Nat
  kind : FnKind
  slice : Option Nat
  pasid : Option Nat
  addr : Nat
  bytes : List Byte
  poison : List Bool
  relaxed : Bool
  deriving DecidableEq, Repr

/-- AER errors that the functions log (Table 8.9). -/
inductive Aer where
  | completionTimeout
  | unexpectedCompletion
  | poisonedTlp
  | malformed
  | ecrc
  | flitError
  | unsupportedRequest
  | surpriseDown
  deriving DecidableEq, Repr

/-- A function of a port (R252, R262 to R266, R273). -/
structure Fn where
  bme : Bool
  /-- The function was reset, by FLR or with its port, and has not been able to issue requests since (R276). -/
  wasReset : Bool
  /-- The Bus Master Enable value to restore when the function leaves D3hot. -/
  d3Saved : Option Bool
  tagBits : Nat
  ctoEnc : BitVec 4
  maxPayload : Nat
  maxRead : Nat
  relaxed : Bool
  ats : Bool
  aer : List Aer
  /-- Reads abandoned by a clear of Bus Master Enable, to be issued again (R273). -/
  abandoned : List ReadReq
  /-- Requests queued and not issued while Bus Master Enable is 0. -/
  heldReads : List ReadReq
  heldWrites : List Dma
  deriving DecidableEq, Repr

/-- A PCIe port (R251, R265 to R275). -/
structure Port where
  up : Bool
  speed : Nat
  width : Nat
  flit : Bool
  pf0 : Fn
  tenant : Fn
  /-- Outstanding and quarantined read slots. -/
  slots : Tbl SlotUse
  /-- Generation of the last issue of each slot. -/
  gens : Tbl Nat
  /-- Requests that wait for a usable slot. -/
  waiting : List ReadReq
  /-- Translation cache entries: (requester kind, PASID, page) (R262). -/
  atc : List (FnKind × Option Nat × Nat)
  /-- ATS invalidations that wait, and the slots of the outstanding reads that they wait for. -/
  invals : List ((FnKind × Option Nat × Nat) × List Nat)
  deriving DecidableEq, Repr

/-- Slice states (Table 8.10). -/
inductive SliceState where
  | unbound
  | active
  | quiescing
  | quiesced
  | resetting
  deriving DecidableEq, Repr

/-- The code of a slice state (Table 8.10). -/
def SliceState.code : SliceState → Nat
  | .unbound => 0
  | .active => 1
  | .quiescing => 2
  | .quiesced => 3
  | .resetting => 4

/-- A DMA window of a slice (Table 8.11). -/
structure Window where
  en : Bool
  port : Nat
  read : Bool
  write : Bool
  base : Nat
  size : Nat
  deriving DecidableEq, Repr

/-- A slice (R277 to R282). -/
structure Slice where
  state : SliceState
  kind : FnKind
  home : Nat
  ports : BitVec 4
  pasidEn : Bool
  pasid : Nat
  vecBase : Nat
  vecCount : Nat
  qpQuota : Nat
  cellQuota : Nat
  share : Nat
  pages : Nat
  nvq : Nat
  windows : Tbl Window
  /-- The last quiesce ended by its deadline. -/
  forced : Bool
  /-- The SLICE_QUIESCE that runs (R282). -/
  owner : Option Owner
  deriving DecidableEq, Repr

end Sys2Proof.Machine
end

