-- ==== Sys2Proof/Machine/Parts/Out.lean ====
section
/-! DEFINITION. What the device gives to the outside: register read data, PCIe requests, completions,
interrupts, packets, frames, messages and pins. -/

namespace Sys2Proof.Machine

/-- The payload of a collective message after its header (Table 4.5): elements in the layout of R72 with their marks, values
of a scalar or a start exchange, the 16 B of an ABORT, or a part of the embedding service. -/
inductive CollBody where
  | data (m : Marked)
  | scalars (post : Bool) (vals : List (Nat × Scalars))
  | start (vals : List StartVal)
  | abort (bytes : List Byte)
  | emb (p : EmbPart)
  deriving DecidableEq, Repr

/-- One output of the device. -/
inductive Out where
  /-- Data of a register read (4 B, or 8 B of a pair), or of a directory read. -/
  | regData (v : Nat)
  /-- Unsupported Request as the completion of a read (R254). -/
  | regUr
  /-- A posted write (R264). -/
  | dma (w : Dma)
  /-- A non-posted request in a slot, with its tag (R265), and the time in microseconds after which the device times it out
  (R266). -/
  | read (r : ReadReq) (tag timeout : Nat)
  /-- A completion entry written to a ring, a mailbox or the sideband, with its ring position and phase. -/
  | completion (iss : Issuer) (pos : Nat) (phase : Bool) (c : Cpl) (stamp : W64)
  /-- A translation request (R262). -/
  | ats (port : Nat) (kind : FnKind) (pasid : Option Nat) (page : Nat)
  /-- Bytes of a read handed to its initiator, some of them poisoned (R267 to R269). -/
  | delivered (r : ReadReq) (bytes : Nat) (poisoned : Bool)
  /-- An MSI-X message of a function. -/
  | msix (port : Nat) (kind : FnKind) (vector : Nat)
  /-- An error logged in AER. -/
  | aer (port : Nat) (kind : FnKind) (e : Aer)
  /-- An ATS invalidation completed (R262). -/
  | atsDone (port : Nat) (kind : FnKind)
  /-- PPS_OUT edge. -/
  | pps (level : Bool)
  /-- A frame that a port sends, and a RoCEv2 frame passed to Skid with the slice of its entry (R229). -/
  | frame (port : Nat) (f : BFrame)
  | toSkid (die : Die) (slice : Nat) (f : Frame) (stamp : BitVec 80)
  /-- The egress stamp of a frame whose descriptor requested it (R41). -/
  | egressStamp (port : Nat) (f : BFrame) (stamp : BitVec 80)
  /-- A queue's notice of a complete frame to a stream core: die and queue (R236). -/
  | notice (die : Die) (queue : Nat)
  /-- A PTP frame delivered to the Scaler with its full stamp (R233). -/
  | ptp (port : Nat) (f : Frame) (stamp : BitVec 80)
  /-- A collective message to a node: its 32 B header and its payload (R133). -/
  | coll (node : Nat) (header : List Byte) (body : CollBody)
  /-- A PLDM or MCTP message of the device: endpoint EID and what it is (R442, R374). -/
  | mctp (port : Nat) (eid : Nat) (what : Nat) (data : List Nat)
  /-- An SPDM message: transport, request or response code, numbers of its body, measurement blocks (R388 to
  R391), signature. -/
  | spdm (via : SpdmVia) (code : Nat) (data : List Nat) (blocks : List (Nat × BitVec 256))
      (sig : Option (BitVec 512))
  /-- The 16 B result of a cipher request (R405): die, operation, status and the counter value taken. -/
  | cipher (die : Die) (op status ctr : Nat)
  /-- An answer of the update agent: command code, completion code, state. -/
  | pldm (command code state : Nat)
  /-- An operation of a volume on a target or on its map store (R290, R296). -/
  | target (vol : Nat) (op : TgtOp)
  /-- A completion entry of an NVMe controller (slice × 4 + port) in its completion queue: position and phase. -/
  | nvmeCqe (ctrl cq pos : Nat) (phase : Bool) (e : NvCqe)
  /-- The first 128 B of a commit record that Cord writes for a slot (Table 10.3). -/
  | commitRecord (slot : Nat) (bytes : List Byte)
  /-- A flash copy written: true for B (R362, R374). -/
  | flashWrite (toB : Bool)
  /-- The device starts the stages again from power or a reset pin: FAULT_N and the power stages. -/
  | stagesOff
  deriving DecidableEq, Repr

end Sys2Proof.Machine
end

