-- ==== Sys2Proof/Machine/Parts/Skid.lean ====
section
/-! DEFINITION. State of Skid: queue pairs, completion queues, regions, address handles, miss chains and the
trigger table (06_skid_transport). -/

namespace Sys2Proof.Machine

/-- Progress of a send work queue entry. -/
inductive SqState where
  | held
  | active
  | done
  deriving DecidableEq, Repr

/-- A packet of a send queue before it is sealed: BTH opcode, solicited event, extension headers, payload and the SXH
fields of its message (R194, R195). -/
structure SPkt where
  bth : Nat
  se : Bool
  ext : List Byte
  payload : List Byte
  poison : List Bool
  msn : Nat
  msgLen : Nat
  offset : Nat
  deriving DecidableEq, Repr

/-- A fetched send work queue entry that has not completed (R185, R205). -/
structure SqEnt where
  op : Nat
  w : Wqe
  src : SrcData
  st : SqState
  msn : Nat
  /-- First PSN, PSNs it takes, and how many are assigned and have left the device. -/
  psn : Nat
  npkt : Nat
  assigned : Nat
  departed : Nat
  /-- Response bytes placed, of a READ, and the offsets of the response packets that brought them. -/
  got : Nat
  seen : List Nat
  /-- Placed data carried poison marks. -/
  poison : Bool
  status : Nat
  reported : Bool
  deriving DecidableEq, Repr

/-- A tracked packet in the retransmit store (R202, R204). -/
structure Sent where
  psn : Nat
  pkt : SPkt
  path : Nat
  /-- TCLK count and Ring stamp of the last transmission, and transmissions so far. -/
  at_ : Nat
  stamp : W64
  times : Nat
  /-- Its PSN is acknowledged; a READ, atomic or FLUSH request stays until it is answered (R202). -/
  sacked : Bool
  /-- A transmission of it has left the device. -/
  left : Bool
  deriving DecidableEq, Repr

/-- A message in flight at the receiver (R200). -/
structure RxMsg where
  msn : Nat
  len : Nat
  got : Nat
  isWrite : Bool
  /-- The RETH of a WRITE. -/
  reth : Option Reth
  imm : Option W32
  poison : Bool
  /-- PCIe ports that carried the data (R207). -/
  ports : List Nat
  rqe : Option Rqe
  deriving DecidableEq, Repr

/-- A request that the responder answers once every earlier MSN is complete (R206). -/
structure RxReq where
  pkt : RxPkt
  msn : Nat
  psn : Nat
  deriving DecidableEq, Repr

/-- A send entry that completed with OK and is not acknowledged (R205): WR_ID, first and last PSN, opcode. -/
structure Late where
  wrId : W64
  first : Nat
  last : Nat
  op : Nat
  deriving DecidableEq, Repr

/-- A queue pair. -/
structure Qp where
  /-- The context of Table 6.3, byte 0 lowest. -/
  ctx : BitVec 2048
  /-- Slot of the die's context cache; none while it is not cached. -/
  cache : Option Nat
  /-- The context is being written back (R193). -/
  writeback : Bool
  sqTail : Nat
  rqTail : Nat
  sq : List SqEnt
  sent : List Sent
  /-- WQEs completed with OK and not acknowledged. -/
  late : List Late
  /-- The path after that of the last new packet of the send queue, and of the last response packet (R199). -/
  rr : Nat
  rrResp : Nat
  /-- PSNs held beyond EPSN (R201), and requests not answered yet. -/
  held : List Nat
  msgs : List RxMsg
  reqs : List RxReq
  /-- In standard mode, the MSN of the message that the next packet belongs to. -/
  rxMsn : Nat
  /-- The zero-length reads that the completion or answer of the next MSN waits for (R206, R207). -/
  fence : Option Nat
  /-- Posted receive entries by the MSN that selects them, and the MSN of the next one posted. -/
  rq : Tbl Rqe
  rqNext : Nat
  /-- Packets since the last acknowledgement. -/
  unacked : Nat
  /-- PCIe ports that carried data placed since the last FLUSH was answered (R206). -/
  placed : List Nat
  /-- Original values of atomics answered, by PSN (duplicates, R204). -/
  atomics : List (Nat × W64)
  /-- The PSN that waits for the RNR timer (R182). -/
  rnr : Option Nat
  /-- TCLK count of the last CNP sent (R216). -/
  cnpAt : Option Nat
  /-- Consecutive timeouts of each path, and paths with a probe under way (R203). -/
  tmos : Tbl Nat
  probes : List Nat
  /-- TCLK count of the last cut of the rate (R217). -/
  cutAt : Option Nat
  /-- Doorbells not acted on while the context is fetched: receive queue, index, receive entries (R192). -/
  bells : List (Bool × Nat × List Rqe)
  deriving DecidableEq, Repr

/-- A completion queue entry (Table 6.7) less its phase and stamp. -/
structure Cqe where
  wrId : W64
  bytes : Nat
  imm : Option W32
  qpn : Nat
  status : Nat
  op : Nat
  poison : Bool
  late : Bool
  reported : Bool
  deriving DecidableEq, Repr

/-- A completion queue (R208). -/
structure Cq where
  slice : Nat
  addr : Nat
  log2 : Nat
  vector : Nat
  written : Nat
  head : Nat
  armed : Bool
  held : List Cqe
  deriving DecidableEq, Repr

/-- A memory region (R187). -/
structure Mr where
  slice : Nat
  tag : Nat
  base : Nat
  len : Nat
  rights : Nat
  port : Nat
  lpddr : Bool
  persist : Bool
  pd : Nat
  deriving DecidableEq, Repr

/-- An address handle (Table 12.8). -/
structure Ah where
  slice : Nat
  dgid : BitVec 128
  dmac : BitVec 48
  vlan : Nat
  dscp : Nat
  port : Nat
  dstNode : Nat
  deriving DecidableEq, Repr

/-- An entry of a trigger table (R212). -/
structure Trig where
  die : Die
  slot : Nat
  name : W32
  count : Nat
  deriving DecidableEq, Repr

/-- Skid. -/
structure Skid where
  qps : Tbl Qp
  cqs : Tbl Cq
  /-- Regions by index, and the last tag of each index. -/
  mrs : Tbl Mr
  mrTags : Tbl Nat
  ahs : Tbl Ah
  trig : List Trig
  /-- Miss chains by die × 2^24 + QPN, oldest packet first (R192). -/
  chains : Tbl (List RxPkt)
  /-- QPNs treated as absent after a failed fetch (R193). -/
  absent : List Nat
  /-- The cache slot at which the clock sweep of each die goes on (R190). -/
  hand : Tbl Nat
  /-- The number of the next group of zero-length reads. -/
  nextFence : Nat
  /-- Pages of LPDDR5X regions: slice × 2^20 + page of the slice to page of the pool. -/
  pages : Tbl Nat
  deriving DecidableEq, Repr

end Sys2Proof.Machine
end

