-- ==== Sys2Proof/Machine/Parts/Power.lean ====
section
/-! DEFINITION. State of power (14_power_reset). -/

namespace Sys2Proof.Machine

/-- A transition of the power state that runs or waits for Cord (R413, R414). -/
structure PowerMove where
  target : Nat
  owner : Option Owner
  /-- It waits until Cord is IDLE. -/
  waiting : Bool
  deriving DecidableEq, Repr

/-- Power (R412 to R422). -/
structure Power where
  /-- W0 to W4. -/
  state : Nat
  move : Option PowerMove
  /-- Input power is present; the power stages are on. -/
  input : Bool
  stages : Bool
  /-- The trip that turned the stages off: 1 UV_RESET, 2 overvoltage, 3 thermal. -/
  trip : Nat
  /-- A dip is in progress; the clamp of a dip holds after it. -/
  dip : Bool
  dipHold : Bool
  /-- TCLK counts of the dips of the last 10 minutes. -/
  dips : List Nat
  /-- A junction is at or above 95 °C (R381). -/
  hot : Bool
  /-- Clock of each compute die as the Ranger loop set it, in MHz. -/
  mclk : Tbl Nat
  /-- A cold reset runs: from its trigger to HOST_WAIT. -/
  cold : Bool
  deriving DecidableEq, Repr

end Sys2Proof.Machine
end

