-- ==== Sys2Proof/Machine/Parts/Dev.lean ====
section
/-! DEFINITION. The device: everything the manual gives the WRE-7160 but the queue of waiting commands. -/

namespace Sys2Proof.Machine

/-- Latched high words and staged low words of 64-bit register pairs (R8, R9), by reader and offset. -/
structure HostIf where
  /-- Latched high word, by path key and offset of the low word. -/
  latch : Tbl Nat
  /-- Staged low word, by path key and offset of the low word. -/
  staged : Tbl Nat
  deriving DecidableEq, Repr

/-- The device. -/
structure Dev where
  /-- TCLK edges since power was applied: the model's measure of time (DESIGN CHOICE, log 7). -/
  clk : Nat
  /-- Counter that gives every fresh free value its own argument (DESIGN CHOICE, log 3). -/
  freeCtr : Nat
  regs : Tbl RegEnt
  host : HostIf
  ring : Ring
  links : Links
  flt : Flt
  tally : Tally
  tel : Telemetry
  ports : Tbl Port
  slices : Tbl Slice
  scaler : Scaler
  mill : Mill
  mem : Mem
  skid : Skid
  path : Path
  bark : Bark
  kerf : Kerf
  nvm : Nvme
  cord : Cord
  pwr : Power
  lanes : Lanes
  pins : Pins
  /-- Outputs, newest first. -/
  out : List Out
  deriving DecidableEq, Repr

end Sys2Proof.Machine
end

