-- ==== Sys2Proof/Machine/RegMap.lean ====
section
/-! DEFINITION. The register map: every field of the register tables of the manual, with its offset, bits,
access code (Table 0.5), reset value and retention class (Table 0.6). Registers of a slice page (Table 12.14)
stand at 0x1000_0000 + page offset. -/

namespace Sys2Proof.Machine.F

/-! ### Table 0.10 (R22) -/

def GEN_ID_PART : Fld := ⟨0x0, false, 0, 16, .ro, .val 29024, .c⟩
def GEN_ID_STEP : Fld := ⟨0x0, false, 16, 8, .ro, .val 176, .c⟩
def GEN_ID_GEN : Fld := ⟨0x0, false, 24, 4, .ro, .val 8, .c⟩
def GEN_VERSION_ROM : Fld := ⟨0x4, false, 0, 16, .ro, .val 1792, .c⟩
def GEN_VERSION_BAR0 : Fld := ⟨0x4, false, 16, 16, .ro, .val 256, .c⟩
def GEN_CAP_NET_LANES : Fld := ⟨0x8, false, 0, 6, .ro, .val 32, .c⟩
def GEN_CAP_PCIE_PORTS : Fld := ⟨0x8, false, 6, 3, .ro, .val 4, .c⟩
def GEN_CAP_MILLS : Fld := ⟨0x8, false, 9, 3, .ro, .val 4, .c⟩
def GEN_CAP_LPDDR_GIB : Fld := ⟨0x8, false, 12, 10, .ro, .val 512, .c⟩
def GEN_SUFFIX_PLATE : Fld := ⟨0xC, false, 0, 8, .ro, .val 0, .w⟩
def GEN_SUFFIX_SCREEN : Fld := ⟨0xC, false, 8, 8, .ro, .val 0, .w⟩
def GEN_SERIAL_SN : Fld := ⟨0x10, true, 0, 64, .ro, .val 0, .w⟩
def GEN_FUNC_PORT : Fld := ⟨0x18, false, 0, 2, .ro, .perPort, .c⟩
def GEN_SCRATCH_DATA : Fld := ⟨0x1C, false, 0, 32, .rw, .val 0, .f⟩
/-! ### Table 1.9 (R47) -/

def TIM_CTRL_SRC : Fld := ⟨0x40000, false, 0, 2, .rw, .val 0, .w⟩
def TIM_CTRL_PPS_OUT_EN : Fld := ⟨0x40000, false, 2, 1, .rw, .val 0, .w⟩
def TIM_CTRL_PPS_IN_EN : Fld := ⟨0x40000, false, 3, 1, .rw, .val 0, .w⟩
def TIM_CTRL_PPS_IN_EDGE : Fld := ⟨0x40000, false, 4, 1, .rw, .val 0, .w⟩
/-! ### Table 1.10 (R47) -/

def TIM_STATUS_STATE : Fld := ⟨0x40004, false, 0, 2, .ro, .val 0, .c⟩
def TIM_STATUS_SET : Fld := ⟨0x40004, false, 2, 1, .ro, .val 0, .c⟩
def TIM_STATUS_SLEW_BUSY : Fld := ⟨0x40004, false, 3, 1, .ro, .val 0, .c⟩
def TIM_STATUS_STEP_PEND : Fld := ⟨0x40004, false, 4, 1, .ro, .val 0, .c⟩
def TIM_STATUS_PPS_CAP_VALID : Fld := ⟨0x40004, false, 5, 1, .ro, .val 0, .w⟩
def TIM_STATUS_PPS_OVERRUN : Fld := ⟨0x40004, false, 6, 1, .w1c, .val 0, .w⟩
def TIM_STATUS_PPS_SKIP : Fld := ⟨0x40004, false, 7, 1, .w1c, .val 0, .w⟩
def TIM_STATUS_ADDEND_CLAMP : Fld := ⟨0x40004, false, 8, 1, .w1c, .val 0, .w⟩
def TIM_STATUS_REPLICA_ERR : Fld := ⟨0x40004, false, 9, 1, .w1c, .val 0, .w⟩
/-! ### Table 1.11 (R47) -/

def TIM_NOW_NS : Fld := ⟨0x40010, true, 0, 64, .ro, .val 0, .c⟩
def TIM_NOW_FRAC_FRAC : Fld := ⟨0x40018, false, 0, 16, .ro, .val 0, .c⟩
def TIM_ADDEND_VAL : Fld := ⟨0x40020, true, 0, 40, .rw, .val 17179869184, .c⟩
def TIM_SET_NS : Fld := ⟨0x40028, true, 0, 64, .wo, .val 0, .n⟩
def TIM_STEP_NS : Fld := ⟨0x40030, true, 0, 64, .wo, .val 0, .n⟩
def TIM_SLEW_AMT : Fld := ⟨0x40038, true, 0, 64, .rw, .val 0, .c⟩
def TIM_SLEW_RATE_PPM : Fld := ⟨0x40040, false, 0, 10, .rw, .val 100, .w⟩
def TIM_PPS_CAP_NS : Fld := ⟨0x40048, true, 0, 64, .ro, .val 0, .w⟩
def TIM_PPS_CAP_FRAC_FRAC : Fld := ⟨0x40050, false, 0, 16, .ro, .val 0, .w⟩
def TIM_PPS_OUT_WIDTH : Fld := ⟨0x40054, false, 0, 19, .rw, .val 1000, .w⟩
def TIM_PPS_OUT_DELAY : Fld := ⟨0x40054, false, 19, 13, .rw, .image, .w⟩
def TIM_PORT_LAT_EGRESS (i : Nat) : Fld := ⟨0x40100 + 4 * i, false, 0, 16, .rw, .image, .w⟩
def TIM_PORT_LAT_INGRESS (i : Nat) : Fld := ⟨0x40100 + 4 * i, false, 16, 16, .rw, .image, .w⟩
def TIM_REPLICA_ERR (i : Nat) : Fld := ⟨0x40200 + 4 * i, false, 0, 16, .ro, .val 0, .c⟩
def TIM_REPLICA_COUNT (i : Nat) : Fld := ⟨0x40200 + 4 * i, false, 16, 16, .ro, .val 0, .c⟩
/-! ### Table 3.16 (R115) -/

def MIL_CAP_ARRAYS : Fld := ⟨0x800000, false, 0, 4, .ro, .val 8, .c⟩
def MIL_CAP_VECTORS : Fld := ⟨0x800000, false, 4, 4, .ro, .val 8, .c⟩
def MIL_CAP_SEQ : Fld := ⟨0x800000, false, 8, 8, .ro, .val 64, .c⟩
def MIL_CAP_SLOTS : Fld := ⟨0x800000, false, 16, 7, .ro, .val 64, .c⟩
def MIL_CAP_MAX_LOG2B : Fld := ⟨0x800000, false, 23, 4, .ro, .val 8, .c⟩
/-! ### Table 3.17 (R115) -/

def MIL_STATUS_UNIT_UP : Fld := ⟨0x800004, false, 0, 16, .ro, .val 65535, .w⟩
def MIL_STATUS_CLAMP : Fld := ⟨0x800004, false, 16, 1, .ro, .val 0, .w⟩
def MIL_STATUS_ADMIT_BUSY : Fld := ⟨0x800004, false, 17, 1, .ro, .val 0, .w⟩
def MIL_STATUS_DEGRADED : Fld := ⟨0x800004, false, 18, 1, .w1c, .val 0, .w⟩
/-! ### Table 3.18 (R115) -/

def MIL_PLAN_SEL_SLOT : Fld := ⟨0x800008, false, 0, 6, .rw, .val 0, .f⟩
/-! ### Table 3.19 (R115) -/

def MIL_PLAN_STATE_STATE : Fld := ⟨0x80000C, false, 0, 3, .ro, .val 0, .s⟩
def MIL_PLAN_STATE_SLICE : Fld := ⟨0x80000C, false, 4, 9, .ro, .val 0, .s⟩
def MIL_PLAN_STATE_SPILL : Fld := ⟨0x80000C, false, 13, 1, .ro, .val 0, .s⟩
def MIL_PLAN_STATE_DEGRADED : Fld := ⟨0x80000C, false, 14, 1, .ro, .val 0, .s⟩
def MIL_PLAN_STATE_EF_STALE : Fld := ⟨0x80000C, false, 15, 1, .ro, .val 0, .s⟩
def MIL_PLAN_STATE_PLAN_ID : Fld := ⟨0x80000C, false, 16, 16, .ro, .val 0, .s⟩
/-! ### Table 3.20 (R115) -/

def MIL_STEP_NUM : Fld := ⟨0x800010, true, 0, 64, .ro, .val 0, .s⟩
def MIL_SPILL_BYTES : Fld := ⟨0x800018, true, 0, 64, .ro, .val 0, .s⟩
def MIL_EVT_SAT_COUNT : Fld := ⟨0x800020, true, 0, 48, .ro, .val 0, .s⟩
def MIL_EVT_INF_COUNT : Fld := ⟨0x800028, true, 0, 48, .ro, .val 0, .s⟩
def MIL_EVT_NAN_COUNT : Fld := ⟨0x800030, true, 0, 48, .ro, .val 0, .s⟩
def MIL_EVT_NANGRP_COUNT : Fld := ⟨0x800038, true, 0, 48, .ro, .val 0, .s⟩
def MIL_EVT_NANLOST_COUNT : Fld := ⟨0x800040, true, 0, 48, .ro, .val 0, .s⟩
def MIL_EVT_INVALID_COUNT : Fld := ⟨0x800048, true, 0, 48, .ro, .val 0, .s⟩
def MIL_EVT_CLR_CLR : Fld := ⟨0x800050, false, 0, 1, .wo, .val 0, .n⟩
/-! ### Table 3.21 (R115) -/

def MIL_UNIT_STATE (i : Nat) : Fld := ⟨0x800080 + 4 * i, false, 0, 2, .ro, .val 1, .w⟩
def MIL_UNIT_ROLE (i : Nat) : Fld := ⟨0x800080 + 4 * i, false, 2, 2, .ro, .val 0, .w⟩
def MIL_UNIT_LAST_SLOT (i : Nat) : Fld := ⟨0x800080 + 4 * i, false, 4, 6, .ro, .val 0, .w⟩
def MIL_UNIT_DIE (i : Nat) : Fld := ⟨0x800080 + 4 * i, false, 10, 4, .ro, .idxHalf, .c⟩
/-! ### Table 5.6 (R181) -/

def MEM_CAP_DATA_GIB : Fld := ⟨0xC00000, false, 0, 9, .ro, .image, .w⟩
def MEM_CAP_STAGING_GIB : Fld := ⟨0xC00000, false, 9, 9, .ro, .image, .w⟩
def MEM_CAP_SYS_GIB : Fld := ⟨0xC00000, false, 18, 4, .ro, .val 8, .w⟩
def MEM_CAP_SPARING : Fld := ⟨0xC00000, false, 22, 1, .ro, .image, .w⟩
/-! ### Table 5.7 (R181) -/

def MEM_CTRL_SCRUB_LP : Fld := ⟨0xC00008, false, 0, 8, .rwl, .image, .w⟩
def MEM_CTRL_SCRUB_SR : Fld := ⟨0xC00008, false, 8, 8, .rwl, .image, .w⟩
def MEM_CTRL_MIG_SHARE : Fld := ⟨0xC00008, false, 16, 2, .rwl, .val 1, .w⟩
def MEM_CTRL_LOCK : Fld := ⟨0xC00008, false, 31, 1, .w1s, .val 0, .w⟩
/-! ### Table 5.8 (R181) -/

def MEM_STATUS_CH_UP : Fld := ⟨0xC0000C, false, 0, 16, .ro, .val 65535, .c⟩
def MEM_STATUS_ZERO_BUSY : Fld := ⟨0xC0000C, false, 16, 1, .ro, .val 1, .w⟩
def MEM_STATUS_CE_THR : Fld := ⟨0xC0000C, false, 17, 1, .w1c, .val 0, .w⟩
def MEM_STATUS_ROWREP_FULL : Fld := ⟨0xC0000C, false, 18, 1, .w1c, .val 0, .w⟩
/-! ### Table 5.9 (R181) -/

def MEM_SPARE_CHANNEL : Fld := ⟨0xC00010, false, 0, 4, .rw, .val 0, .c⟩
def MEM_SPARE_START : Fld := ⟨0xC00010, false, 4, 1, .wo, .val 0, .n⟩
def MEM_SPARE_ACTIVE : Fld := ⟨0xC00010, false, 5, 1, .ro, .val 0, .c⟩
def MEM_SPARE_DONE : Fld := ⟨0xC00010, false, 6, 1, .ro, .val 0, .c⟩
def MEM_SPARE_WATERMARK : Fld := ⟨0xC00010, false, 8, 23, .ro, .val 0, .c⟩
/-! ### Table 5.10 (R181) -/

def MEM_CH_STATE (i : Nat) : Fld := ⟨0xC00100 + 4 * i, false, 0, 2, .ro, .val 1, .c⟩
def MEM_CH_ROWREP_USED (i : Nat) : Fld := ⟨0xC00100 + 4 * i, false, 2, 7, .ro, .val 0, .c⟩
def MEM_CH_CE_HOUR (i : Nat) : Fld := ⟨0xC00100 + 4 * i, false, 9, 16, .ro, .val 0, .c⟩
/-! ### Table 5.11 (R181) -/

def MEM_SRAM_AVAIL_BANKS_OK (i : Nat) : Fld := ⟨0xC00020 + 4 * i, false, 0, 10, .ro, .test, .c⟩
def MEM_SRAM_AVAIL_SPARES_LEFT (i : Nat) : Fld := ⟨0xC00020 + 4 * i, false, 10, 10, .ro, .test, .c⟩
def MEM_SRAM_AVAIL_COLS_REPAIRED (i : Nat) : Fld := ⟨0xC00020 + 4 * i, false, 20, 12, .ro, .test, .c⟩
/-! ### Table 5.12 (R181) -/

def MEM_POOL_PAGES_PAGES : Fld := ⟨0xC00004, false, 0, 32, .ro, .image, .w⟩
def MEM_ROWREP_SEL_CHANNEL : Fld := ⟨0xC00014, false, 0, 4, .rw, .val 0, .f⟩
def MEM_ROWREP_SEL_ENTRY : Fld := ⟨0xC00014, false, 4, 6, .rw, .val 0, .f⟩
def MEM_ROWREP_DATA_ROW : Fld := ⟨0xC00018, false, 0, 22, .ro, .val 0, .c⟩
def MEM_ROWREP_DATA_VALID : Fld := ⟨0xC00018, false, 22, 1, .ro, .val 0, .c⟩
def MEM_ROWREP_DATA_FROM_LIST : Fld := ⟨0xC00018, false, 23, 1, .ro, .val 0, .c⟩
def MEM_SLICE_SEL_SLICE : Fld := ⟨0xC00040, false, 0, 9, .rw, .val 0, .f⟩
def MEM_SLICE_QUOTA_PAGES : Fld := ⟨0xC00044, false, 0, 32, .ro, .val 0, .s⟩
def MEM_SLICE_USED_PAGES : Fld := ⟨0xC00048, false, 0, 32, .ro, .val 0, .s⟩
def MEM_SPILL_BASE_ADDR : Fld := ⟨0xC00050, true, 0, 64, .rw, .val 0, .s⟩
def MEM_SPILL_SIZE_PAGES : Fld := ⟨0xC00058, false, 0, 18, .rw, .val 0, .s⟩
def MEM_SPILL_CTRL_EN : Fld := ⟨0xC0005C, false, 0, 1, .rw, .val 0, .s⟩
def MEM_SPILL_CTRL_PORT : Fld := ⟨0xC0005C, false, 1, 2, .rw, .val 0, .s⟩
def MEM_SPILL_CTRL_BW : Fld := ⟨0xC0005C, false, 3, 16, .rw, .val 768, .s⟩
def MEM_SPILL_USED_PAGES : Fld := ⟨0xC00060, false, 0, 18, .ro, .val 0, .s⟩
/-! ### Table 6.10 (R219) -/

def SKD_CAP_TVER : Fld := ⟨0x200000, false, 0, 8, .ro, .val 1, .c⟩
def SKD_CAP_MAX_PATHS : Fld := ⟨0x200000, false, 8, 8, .ro, .val 128, .c⟩
def SKD_CAP_QPN_BITS : Fld := ⟨0x200000, false, 16, 5, .ro, .val 24, .c⟩
def SKD_CAP_SEAL : Fld := ⟨0x200000, false, 21, 1, .ro, .val 1, .c⟩
def SKD_CAP_MP : Fld := ⟨0x200000, false, 22, 1, .ro, .val 1, .c⟩
def SKD_CTRL_BS_EN : Fld := ⟨0x200004, false, 0, 1, .rwl, .val 0, .w⟩
def SKD_CTRL_CNP_EN : Fld := ⟨0x200004, false, 1, 1, .rwl, .val 1, .w⟩
def SKD_CTRL_ECT_EN : Fld := ⟨0x200004, false, 2, 1, .rwl, .val 1, .w⟩
def SKD_CTRL_LOCK : Fld := ⟨0x200004, false, 31, 1, .w1s, .val 0, .w⟩
/-! ### Table 6.11 (R219) -/

def SKD_BS_BASE_ADDR : Fld := ⟨0x200008, true, 0, 64, .rwl, .val 0, .w⟩
def SKD_BS_CTRL_COUNT : Fld := ⟨0x200010, false, 0, 25, .rwl, .val 0, .w⟩
def SKD_BS_CTRL_PORT : Fld := ⟨0x200010, false, 25, 2, .rwl, .val 0, .w⟩
def SKD_NODE_NODE : Fld := ⟨0x200014, false, 0, 16, .ro, .image, .w⟩
/-! ### Table 6.12 (R219) -/

def SKD_CC_CNP_CNP_INT : Fld := ⟨0x200020, false, 0, 8, .rwl, .val 4, .w⟩
def SKD_CC_CNP_PATH_HOLD : Fld := ⟨0x200020, false, 8, 8, .rwl, .val 20, .w⟩
def SKD_CC_CUT_CUT_STEP : Fld := ⟨0x200024, false, 0, 8, .rwl, .val 32, .w⟩
def SKD_CC_CUT_CUT_INT : Fld := ⟨0x200024, false, 8, 8, .rwl, .val 8, .w⟩
def SKD_CC_CUT_PR_DECAY : Fld := ⟨0x200024, false, 16, 12, .rwl, .val 60, .w⟩
def SKD_CC_RECOVER_TIMER : Fld := ⟨0x200028, false, 0, 10, .rwl, .val 40, .w⟩
def SKD_CC_RECOVER_BYTES : Fld := ⟨0x200028, false, 10, 10, .rwl, .val 32, .w⟩
def SKD_CC_RECOVER_F : Fld := ⟨0x200028, false, 20, 4, .rwl, .val 3, .w⟩
def SKD_CC_INC_R_AI : Fld := ⟨0x20002C, false, 0, 16, .rwl, .val 25, .w⟩
def SKD_CC_INC_R_LOG : Fld := ⟨0x20002C, false, 16, 4, .rwl, .val 5, .w⟩
/-! ### Table 6.13 (R219) -/

def SKD_RETX_ACK_COALESCE : Fld := ⟨0x200030, false, 0, 8, .rwl, .val 16, .w⟩
def SKD_RETX_ACK_DELAY : Fld := ⟨0x200030, false, 8, 8, .rwl, .val 20, .w⟩
def SKD_RETX_REORDER_WIN : Fld := ⟨0x200030, false, 16, 8, .rwl, .val 4, .w⟩
def SKD_MISS_CFG_CELLS : Fld := ⟨0x200034, false, 0, 16, .rwl, .val 16384, .w⟩
def SKD_MISS_CFG_CHAIN_MAX : Fld := ⟨0x200034, false, 16, 8, .rwl, .val 64, .w⟩
/-! ### Table 6.14 (R219) -/

def SKD_DIE_STATUS_CACHED (i : Nat) : Fld := ⟨0x201000 + 4096 * i, false, 0, 17, .ro, .val 0, .w⟩
def SKD_DIE_STATUS_PINNED (i : Nat) : Fld := ⟨0x201000 + 4096 * i, false, 17, 15, .ro, .val 0, .w⟩
def SKD_DIE_MISS_CELLS_USED (i : Nat) : Fld := ⟨0x201004 + 4096 * i, false, 0, 16, .ro, .val 0, .w⟩
def SKD_DIE_MISS_CHAINS (i : Nat) : Fld := ⟨0x201004 + 4096 * i, false, 16, 12, .ro, .val 0, .w⟩
def SKD_DIE_TRK_RX (i : Nat) : Fld := ⟨0x201008 + 4096 * i, false, 0, 14, .ro, .val 0, .w⟩
def SKD_DIE_TRK_TX (i : Nat) : Fld := ⟨0x201008 + 4096 * i, false, 14, 14, .ro, .val 0, .w⟩
/-! ### Table 7.10 (R248) -/

def BKR_CAP_WAYS : Fld := ⟨0x300000, false, 0, 3, .ro, .val 4, .c⟩
def BKR_CAP_INDEX_BITS : Fld := ⟨0x300000, false, 3, 5, .ro, .val 17, .c⟩
def BKR_CAP_KEY_BYTES : Fld := ⟨0x300000, false, 8, 6, .ro, .val 48, .c⟩
def BKR_CTRL_FRAG_EARLY : Fld := ⟨0x300004, false, 0, 1, .rwl, .val 1, .w⟩
def BKR_CTRL_VXLAN_EN : Fld := ⟨0x300004, false, 1, 1, .rwl, .val 1, .w⟩
def BKR_CTRL_VXLAN_PORT : Fld := ⟨0x300004, false, 2, 16, .rwl, .val 4789, .w⟩
def BKR_CTRL_LOCK : Fld := ⟨0x300004, false, 31, 1, .w1s, .val 0, .w⟩
def BKR_FRAG_CFG_TMO : Fld := ⟨0x300008, false, 0, 16, .rwl, .val 2000, .w⟩
def BKR_HASH_SEED_SEED (i : Nat) : Fld := ⟨0x300010 + 4 * i, false, 0, 32, .rwl, .image, .w⟩
def BKR_EXC_RATE (i : Nat) : Fld := ⟨0x300020 + 4 * i, false, 0, 16, .rwl, .excRate, .w⟩
def BKR_EXC_BURST (i : Nat) : Fld := ⟨0x300020 + 4 * i, false, 16, 16, .rwl, .val 256, .w⟩
def BKR_TBL_ADDR_WORD : Fld := ⟨0x300040, false, 0, 4, .rw, .val 0, .f⟩
def BKR_TBL_ADDR_INDEX : Fld := ⟨0x300040, false, 4, 17, .rw, .val 0, .f⟩
def BKR_TBL_ADDR_WAY : Fld := ⟨0x300040, false, 21, 2, .rw, .val 0, .f⟩
def BKR_TBL_ADDR_DIE : Fld := ⟨0x300040, false, 23, 1, .rw, .val 0, .f⟩
def BKR_TBL_DATA_DATA : Fld := ⟨0x300044, false, 0, 32, .rw, .val 0, .w⟩
def BKR_DIE_STATUS_USED (i : Nat) : Fld := ⟨0x301000 + 4096 * i, false, 0, 20, .ro, .val 0, .w⟩
def BKR_DIE_STATUS_DUP (i : Nat) : Fld := ⟨0x301000 + 4096 * i, false, 20, 1, .w1c, .val 0, .w⟩
def BKR_DIE_FRAG_USED (i : Nat) : Fld := ⟨0x301004 + 4096 * i, false, 0, 11, .ro, .val 0, .w⟩
def BKR_DIE_FRAG_FULL (i : Nat) : Fld := ⟨0x301004 + 4096 * i, false, 11, 1, .w1c, .val 0, .w⟩
/-! ### Table 7.12 (R249) -/

def BOM_CAP_CELLS : Fld := ⟨0x500000, false, 0, 18, .ro, .val 131072, .c⟩
def BOM_QSEL_QUEUE : Fld := ⟨0x500004, false, 0, 17, .rw, .val 0, .f⟩
def BOM_QSEL_DIE : Fld := ⟨0x500004, false, 17, 1, .rw, .val 0, .f⟩
def BOM_QCFG_LIMIT : Fld := ⟨0x500008, false, 0, 18, .rw, .val 0, .w⟩
def BOM_QCFG_FLUSH : Fld := ⟨0x500008, false, 18, 1, .rw, .val 0, .w⟩
def BOM_QSTAT_CELLS : Fld := ⟨0x50000C, false, 0, 18, .ro, .val 0, .w⟩
def BOM_QSTAT_FRAMES : Fld := ⟨0x50000C, false, 18, 14, .ro, .val 0, .w⟩
def BOM_DIE_FREE_FREE (i : Nat) : Fld := ⟨0x501000 + 4096 * i, false, 0, 18, .ro, .val 131072, .w⟩
def BOM_DIE_MINFREE_MIN (i : Nat) : Fld := ⟨0x501004 + 4096 * i, false, 0, 18, .rc, .val 131072, .w⟩
def BOM_DIE_ECC_CE (i : Nat) : Fld := ⟨0x501008 + 4096 * i, false, 0, 16, .rc, .val 0, .w⟩
def BOM_DIE_ECC_UE (i : Nat) : Fld := ⟨0x501008 + 4096 * i, false, 16, 16, .rc, .val 0, .w⟩
/-! ### Table 7.14 (R250) -/

def FLU_CAP_QUEUES : Fld := ⟨0x600000, false, 0, 17, .ro, .val 65536, .c⟩
def FLU_CAP_CLASSES : Fld := ⟨0x600000, false, 17, 4, .ro, .val 8, .c⟩
def FLU_SHAPE_BURST : Fld := ⟨0x600004, false, 0, 8, .rwl, .val 16, .w⟩
def FLU_SHAPE_SAMPLE : Fld := ⟨0x600004, false, 8, 16, .rwl, .val 100, .w⟩
def FLU_SHAPE_LOCK : Fld := ⟨0x600004, false, 31, 1, .w1s, .val 0, .w⟩
def FLU_PORT_SEL_PORT : Fld := ⟨0x600008, false, 0, 5, .rw, .val 0, .f⟩
def FLU_PORT_STATUS_QUEUES : Fld := ⟨0x60000C, false, 0, 17, .ro, .val 0, .w⟩
def FLU_PORT_STATUS_SAMPLING : Fld := ⟨0x60000C, false, 17, 1, .ro, .val 1, .w⟩
def FLU_TC_STRICT (i : Nat) : Fld := ⟨0x600010 + 4 * i, false, 0, 1, .rw, .class7, .w⟩
def FLU_TC_WEIGHT (i : Nat) : Fld := ⟨0x600010 + 4 * i, false, 1, 8, .rw, .val 16, .w⟩
def FLU_SLICE_SEL_SLICE : Fld := ⟨0x600040, false, 0, 9, .rw, .val 0, .f⟩
def FLU_SLICE_W_WEIGHT : Fld := ⟨0x600044, false, 0, 8, .rw, .val 16, .s⟩
def FLU_QSEL_QUEUE : Fld := ⟨0x600048, false, 0, 16, .rw, .val 0, .f⟩
def FLU_QSEL_DIE : Fld := ⟨0x600048, false, 16, 1, .rw, .val 0, .f⟩
def FLU_QSTAT_HWM : Fld := ⟨0x60004C, false, 0, 20, .rc, .val 0, .w⟩
def FLU_QINFO_PORT : Fld := ⟨0x600050, false, 0, 5, .ro, .val 0, .w⟩
def FLU_QINFO_TC : Fld := ⟨0x600050, false, 5, 3, .ro, .val 0, .w⟩
def FLU_QINFO_BOUND : Fld := ⟨0x600050, false, 8, 1, .ro, .val 0, .w⟩
def FLU_QINFO_WHEEL : Fld := ⟨0x600050, false, 9, 1, .ro, .val 0, .w⟩
def FLU_POL_SEL_POLICER : Fld := ⟨0x600080, false, 0, 14, .rw, .val 0, .f⟩
def FLU_POL_SEL_DIE : Fld := ⟨0x600080, false, 14, 1, .rw, .val 0, .f⟩
def FLU_POL_CFG_EN : Fld := ⟨0x600084, false, 0, 1, .rw, .val 0, .w⟩
def FLU_POL_CFG_MODE : Fld := ⟨0x600084, false, 1, 1, .rw, .val 0, .w⟩
def FLU_POL_CFG_AWARE : Fld := ⟨0x600084, false, 2, 1, .rw, .val 0, .w⟩
def FLU_POL_CFG_YELLOW : Fld := ⟨0x600084, false, 3, 2, .rw, .val 0, .w⟩
def FLU_POL_CFG_RED : Fld := ⟨0x600084, false, 5, 2, .rw, .val 0, .w⟩
def FLU_POL_CFG_Y_DSCP : Fld := ⟨0x600084, false, 7, 6, .rw, .val 0, .w⟩
def FLU_POL_CFG_R_DSCP : Fld := ⟨0x600084, false, 13, 6, .rw, .val 0, .w⟩
def FLU_POL_CIR_MBPS : Fld := ⟨0x600088, false, 0, 21, .rw, .val 0, .w⟩
def FLU_POL_PIR_MBPS : Fld := ⟨0x60008C, false, 0, 21, .rw, .val 0, .w⟩
def FLU_POL_CBS_BYTES : Fld := ⟨0x600090, false, 0, 24, .rw, .val 0, .w⟩
def FLU_POL_EBS_BYTES : Fld := ⟨0x600094, false, 0, 24, .rw, .val 0, .w⟩
def FLU_CMAP_COLOUR (i : Nat) : Fld := ⟨0x6000C0 + 4 * i, false, 0, 32, .rw, .val 0, .w⟩
/-! ### Table 8.13 (R283) -/

def EPX_CAP_PORTS : Fld := ⟨0x100000, false, 0, 3, .ro, .val 4, .c⟩
def EPX_CAP_SLICES : Fld := ⟨0x100000, false, 3, 10, .ro, .val 512, .c⟩
def EPX_CAP_WINDOWS : Fld := ⟨0x100000, false, 13, 5, .ro, .val 16, .c⟩
def EPX_TAGCFG_RSV : Fld := ⟨0x100004, false, 0, 11, .rwl, .val 256, .w⟩
def EPX_TAGCFG_LOCK : Fld := ⟨0x100004, false, 31, 1, .w1s, .val 0, .w⟩
def EPX_PORT_STATUS_UP (i : Nat) : Fld := ⟨0x100010 + 16 * i, false, 0, 1, .ro, .val 0, .c⟩
def EPX_PORT_STATUS_SPEED (i : Nat) : Fld := ⟨0x100010 + 16 * i, false, 1, 3, .ro, .val 0, .c⟩
def EPX_PORT_STATUS_WIDTH (i : Nat) : Fld := ⟨0x100010 + 16 * i, false, 4, 5, .ro, .val 0, .c⟩
def EPX_PORT_STATUS_FLIT (i : Nat) : Fld := ⟨0x100010 + 16 * i, false, 9, 1, .ro, .val 0, .c⟩
def EPX_PORT_STATUS_HOTRST (i : Nat) : Fld := ⟨0x100010 + 16 * i, false, 10, 1, .w1c, .val 0, .c⟩
def EPX_PORT_STATUS_BME0 (i : Nat) : Fld := ⟨0x100010 + 16 * i, false, 11, 1, .ro, .val 0, .c⟩
def EPX_PORT_STATUS_BME1 (i : Nat) : Fld := ⟨0x100010 + 16 * i, false, 12, 1, .ro, .val 0, .c⟩
def EPX_PORT_STATUS_DOWNS (i : Nat) : Fld := ⟨0x100010 + 16 * i, false, 16, 16, .ro, .val 0, .c⟩
def EPX_TAG_STATUS_OUT (i : Nat) : Fld := ⟨0x100014 + 16 * i, false, 0, 13, .ro, .val 0, .w⟩
def EPX_TAG_STATUS_QUAR (i : Nat) : Fld := ⟨0x100014 + 16 * i, false, 13, 13, .ro, .val 0, .w⟩
def EPX_ERR_CTO (i : Nat) : Fld := ⟨0x100018 + 16 * i, false, 0, 16, .rc, .val 0, .w⟩
def EPX_ERR_UNEXP (i : Nat) : Fld := ⟨0x100018 + 16 * i, false, 16, 16, .rc, .val 0, .w⟩
def EPX_ERR2_POISON (i : Nat) : Fld := ⟨0x10001C + 16 * i, false, 0, 16, .rc, .val 0, .w⟩
def EPX_ERR2_URCA (i : Nat) : Fld := ⟨0x10001C + 16 * i, false, 16, 16, .rc, .val 0, .w⟩
def EPX_SLICE_SEL_SLICE : Fld := ⟨0x100100, false, 0, 9, .rw, .val 0, .f⟩
def EPX_SLICE_BIND_STATE : Fld := ⟨0x100104, false, 0, 3, .ro, .val 0, .w⟩
def EPX_SLICE_BIND_HOME : Fld := ⟨0x100104, false, 3, 2, .ro, .val 0, .w⟩
def EPX_SLICE_BIND_FUNC : Fld := ⟨0x100104, false, 5, 1, .ro, .val 0, .w⟩
def EPX_SLICE_BIND_PORTS : Fld := ⟨0x100104, false, 6, 4, .ro, .val 0, .w⟩
def EPX_SLICE_BIND_PASID_EN : Fld := ⟨0x100104, false, 10, 1, .ro, .val 0, .w⟩
def EPX_SLICE_BIND_FORCED : Fld := ⟨0x100104, false, 11, 1, .ro, .val 0, .s⟩
def EPX_SLICE_PASID_PASID : Fld := ⟨0x100108, false, 0, 20, .ro, .val 0, .w⟩
def EPX_SLICE_QP_QUOTA : Fld := ⟨0x10010C, false, 0, 25, .ro, .val 0, .w⟩
def EPX_SLICE_CELLS_QUOTA : Fld := ⟨0x100110, false, 0, 18, .ro, .val 0, .w⟩
def EPX_SLICE_MISC_SHARE : Fld := ⟨0x100114, false, 0, 7, .ro, .val 0, .w⟩
def EPX_SLICE_MISC_NVQ : Fld := ⟨0x100114, false, 7, 13, .ro, .val 0, .w⟩
def EPX_SLICE_VEC_BASE : Fld := ⟨0x100118, false, 0, 11, .ro, .val 0, .w⟩
def EPX_SLICE_VEC_COUNT : Fld := ⟨0x100118, false, 11, 12, .ro, .val 0, .w⟩
def EPX_WIN_SEL_WINDOW : Fld := ⟨0x100120, false, 0, 4, .rw, .val 0, .f⟩
def EPX_WIN_CTRL_EN : Fld := ⟨0x100124, false, 0, 1, .ro, .val 0, .w⟩
def EPX_WIN_CTRL_PORT : Fld := ⟨0x100124, false, 1, 2, .ro, .val 0, .w⟩
def EPX_WIN_CTRL_READ : Fld := ⟨0x100124, false, 3, 1, .ro, .val 0, .w⟩
def EPX_WIN_CTRL_WRITE : Fld := ⟨0x100124, false, 4, 1, .ro, .val 0, .w⟩
def EPX_WIN_BASE_ADDR : Fld := ⟨0x100128, true, 0, 64, .ro, .val 0, .w⟩
def EPX_WIN_SIZE_BYTES : Fld := ⟨0x100130, true, 0, 64, .ro, .val 0, .w⟩
/-! ### Table 9.6 (R309) -/

def NVE_CAP_VOLUMES : Fld := ⟨0xE00000, false, 0, 11, .ro, .val 1024, .c⟩
def NVE_CAP_NS : Fld := ⟨0xE00000, false, 11, 7, .ro, .val 64, .c⟩
def NVE_CAP_TARGETS : Fld := ⟨0xE00000, false, 18, 5, .ro, .val 16, .c⟩
def NVE_CTRL_RETRIES : Fld := ⟨0xE00004, false, 0, 3, .rwl, .val 3, .w⟩
def NVE_CTRL_TGT_TMO : Fld := ⟨0xE00004, false, 3, 16, .rwl, .val 2000, .w⟩
def NVE_CTRL_LOCK : Fld := ⟨0xE00004, false, 31, 1, .w1s, .val 0, .w⟩
def NVE_VOL_SEL_VOL : Fld := ⟨0xE00010, false, 0, 10, .rw, .val 0, .f⟩
def NVE_VOL_STATE_STATE : Fld := ⟨0xE00014, false, 0, 2, .ro, .val 0, .w⟩
def NVE_VOL_STATE_SLICE : Fld := ⟨0xE00014, false, 2, 9, .ro, .val 0, .w⟩
def NVE_VOL_STATE_NSID : Fld := ⟨0xE00014, false, 11, 7, .ro, .val 0, .w⟩
def NVE_VOL_STATE_DIE : Fld := ⟨0xE00014, false, 18, 1, .ro, .val 0, .w⟩
def NVE_VOL_STATE_WCE : Fld := ⟨0xE00014, false, 19, 1, .ro, .val 0, .w⟩
def NVE_VOL_STATE_ID : Fld := ⟨0xE00014, false, 20, 12, .ro, .val 0, .w⟩
def NVE_VOL_UNITS_UNITS : Fld := ⟨0xE00018, false, 0, 32, .ro, .val 0, .w⟩
def NVE_VOL_DIRTY_UNITS : Fld := ⟨0xE0001C, false, 0, 24, .ro, .val 0, .w⟩
def NVE_VOL_ERR_TAG_FAIL : Fld := ⟨0xE00020, false, 0, 16, .rc, .val 0, .w⟩
def NVE_VOL_ERR_RETRIES : Fld := ⟨0xE00020, false, 16, 16, .rc, .val 0, .w⟩
def NVE_VOL_ERR2_FREEZES : Fld := ⟨0xE00024, false, 0, 16, .rc, .val 0, .w⟩
def NVE_VOL_ERR2_CONFLICTS : Fld := ⟨0xE00024, false, 16, 16, .rc, .val 0, .w⟩
def NVE_DIE_STATUS_INFLIGHT (i : Nat) : Fld := ⟨0xE01000 + 4096 * i, false, 0, 16, .ro, .val 0, .w⟩
def NVE_DIE_STATUS_QP_ERR (i : Nat) : Fld := ⟨0xE01000 + 4096 * i, false, 16, 16, .ro, .val 0, .w⟩
/-! ### Table 10.8 (R331) -/

def CRD_CAP_AVAIL : Fld := ⟨0xD00000, false, 0, 1, .ro, .image, .w⟩
def CRD_CAP_CHUNK_LOG2 : Fld := ⟨0xD00000, false, 1, 5, .ro, .val 16, .c⟩
def CRD_CAP_REGIONS : Fld := ⟨0xD00000, false, 6, 9, .ro, .val 256, .c⟩
def CRD_CTRL_SHARE : Fld := ⟨0xD00004, false, 0, 7, .rwl, .val 25, .w⟩
def CRD_CTRL_WARN_EN : Fld := ⟨0xD00004, false, 7, 1, .rwl, .val 1, .w⟩
def CRD_CTRL_WARN_HOLD : Fld := ⟨0xD00004, false, 8, 16, .rwl, .val 2000, .w⟩
def CRD_CTRL_QUIET : Fld := ⟨0xD00004, false, 24, 7, .rwl, .val 6, .w⟩
def CRD_CTRL_LOCK : Fld := ⟨0xD00004, false, 31, 1, .w1s, .val 0, .w⟩
def CRD_WARN_CE_RATE : Fld := ⟨0xD00008, false, 0, 12, .rwl, .val 256, .w⟩
def CRD_WARN_FEC_EXP : Fld := ⟨0xD00008, false, 12, 4, .rwl, .val 4, .w⟩
def CRD_WARN_THERM : Fld := ⟨0xD00008, false, 16, 4, .rwl, .val 7, .w⟩
def CRD_VOL_VOL : Fld := ⟨0xD0000C, false, 0, 10, .rw, .val 0, .w⟩
def CRD_VOL_VALID : Fld := ⟨0xD0000C, false, 10, 1, .rw, .val 0, .w⟩
def CRD_STATUS_PHASE : Fld := ⟨0xD00010, false, 0, 3, .ro, .val 0, .w⟩
def CRD_STATUS_NEXT_SLOT : Fld := ⟨0xD00010, false, 3, 1, .ro, .val 0, .w⟩
def CRD_STATUS_SLOT0_OK : Fld := ⟨0xD00010, false, 4, 1, .ro, .val 0, .w⟩
def CRD_STATUS_SLOT1_OK : Fld := ⟨0xD00010, false, 5, 1, .ro, .val 0, .w⟩
def CRD_STATUS_WARN : Fld := ⟨0xD00010, false, 6, 4, .w1c, .val 0, .w⟩
def CRD_STATUS_SUPPRESSED : Fld := ⟨0xD00010, false, 10, 1, .w1c, .val 0, .w⟩
def CRD_STATUS_ABANDONED : Fld := ⟨0xD00010, false, 11, 1, .w1c, .val 0, .w⟩
def CRD_STATUS_HALF_SLOT : Fld := ⟨0xD00010, false, 12, 1, .w1c, .val 0, .w⟩
def CRD_KEY_SLOT : Fld := ⟨0xD00014, false, 0, 12, .rw, .val 0, .w⟩
def CRD_SEQ_SEQ : Fld := ⟨0xD00018, true, 0, 64, .ro, .val 0, .w⟩
def CRD_DONE_BYTES : Fld := ⟨0xD00020, true, 0, 64, .ro, .val 0, .w⟩
def CRD_TOTAL_BYTES : Fld := ⟨0xD00028, true, 0, 64, .ro, .val 0, .w⟩
def CRD_STALL_COUNT : Fld := ⟨0xD00030, false, 0, 16, .rc, .val 0, .w⟩
def CRD_STALL_MAX_US : Fld := ⟨0xD00030, false, 16, 16, .rc, .val 0, .w⟩
def CRD_REGIONS_COUNT : Fld := ⟨0xD00034, false, 0, 9, .ro, .val 0, .w⟩
def CRD_REGIONS_GIB : Fld := ⟨0xD00034, false, 9, 10, .ro, .val 0, .w⟩
/-! ### Table 11.15 (R356) -/

def KRF_CAP_CORES : Fld := ⟨0x1000000, false, 0, 8, .ro, .val 202, .c⟩
def KRF_CAP_COUNTERS : Fld := ⟨0x1000000, false, 8, 6, .ro, .val 48, .c⟩
def KRF_CAP_CLUSTERS : Fld := ⟨0x1000000, false, 14, 5, .ro, .val 30, .c⟩
def KRF_CORE_SEL_CORE : Fld := ⟨0x1000004, false, 0, 8, .rw, .val 0, .f⟩
def KRF_CORE_STATE_STATE : Fld := ⟨0x1000008, false, 0, 3, .ro, .val 0, .w⟩
def KRF_CORE_STATE_ECAUSE : Fld := ⟨0x1000008, false, 3, 5, .ro, .val 0, .w⟩
def KRF_CORE_STATE_EXC : Fld := ⟨0x1000008, false, 8, 16, .ro, .val 0, .w⟩
def KRF_CORE_CTRL_DEBUG : Fld := ⟨0x100000C, false, 0, 1, .rw, .val 0, .w⟩
def KRF_CORE_PC_PC : Fld := ⟨0x1000010, false, 0, 19, .ro, .val 0, .w⟩
def KRF_SYNC_SEL_COUNTER : Fld := ⟨0x1000014, false, 0, 6, .rw, .val 0, .f⟩
def KRF_SYNC_VAL_COUNT : Fld := ⟨0x1000018, false, 0, 16, .ro, .val 0, .w⟩
def KRF_SYNC_VAL_SAT_HI : Fld := ⟨0x1000018, false, 16, 1, .ro, .val 0, .w⟩
def KRF_SYNC_VAL_SAT_LO : Fld := ⟨0x1000018, false, 17, 1, .ro, .val 0, .w⟩
def KRF_SYNC_VAL_WAITERS : Fld := ⟨0x1000018, false, 18, 4, .ro, .val 0, .w⟩
def KRF_DUMP_ADDR_ADDR : Fld := ⟨0x1000020, true, 0, 64, .rw, .val 0, .w⟩
def KRF_DUMP_CTRL_START : Fld := ⟨0x1000028, false, 0, 1, .wo, .val 0, .n⟩
def KRF_DUMP_CTRL_BUSY : Fld := ⟨0x1000028, false, 1, 1, .ro, .val 0, .w⟩
def KRF_DUMP_CTRL_PORT : Fld := ⟨0x1000028, false, 2, 2, .rw, .val 0, .w⟩
def KRF_DUMP_CTRL_ALL : Fld := ⟨0x1000028, false, 4, 1, .rw, .val 0, .w⟩
def KRF_DL_CTRL_EN : Fld := ⟨0x1000030, false, 0, 1, .rw, .val 0, .w⟩
def KRF_DL_CTRL_DUMP : Fld := ⟨0x1000030, false, 1, 1, .rw, .val 1, .w⟩
def KRF_DL_CTRL_WINDOW : Fld := ⟨0x1000030, false, 2, 16, .rw, .val 10000, .w⟩
def KRF_DL_WATCH_LO_MASK : Fld := ⟨0x1000034, false, 0, 32, .rw, .val 0, .w⟩
def KRF_DL_WATCH_HI_MASK : Fld := ⟨0x1000038, false, 0, 16, .rw, .val 0, .w⟩
def KRF_DL_STATUS_FIRED : Fld := ⟨0x100003C, false, 0, 1, .w1c, .val 0, .w⟩
def KRF_DL_STATUS_CORE : Fld := ⟨0x100003C, false, 1, 8, .ro, .val 0, .w⟩
/-! ### Table 12.13 (R383) -/

def SCL_CAP_ROM : Fld := ⟨0x10000, false, 0, 16, .ro, .val 1792, .c⟩
def SCL_CAP_MAX_LOG2 : Fld := ⟨0x10000, false, 16, 4, .ro, .val 12, .c⟩
def SCL_STATUS_BOOT : Fld := ⟨0x10004, false, 0, 3, .ro, .val 0, .w⟩
def SCL_STATUS_LEAD_DIE : Fld := ⟨0x10004, false, 3, 1, .ro, .val 0, .w⟩
def SCL_STATUS_NEGOTIATED : Fld := ⟨0x10004, false, 4, 1, .ro, .val 0, .f⟩
def SCL_STATUS_EXT : Fld := ⟨0x10004, false, 5, 1, .ro, .val 0, .w⟩
def SCL_STATUS_EMERG : Fld := ⟨0x10004, false, 6, 1, .ro, .val 0, .w⟩
def SCL_LEASE_EPOCH : Fld := ⟨0x10008, false, 0, 32, .ro, .val 1, .c⟩
def SCL_BOOT_ERR_STATUS : Fld := ⟨0x1000C, false, 0, 16, .ro, .val 0, .c⟩
def SCL_BOOT_ERR_A_FAIL : Fld := ⟨0x1000C, false, 16, 1, .ro, .val 0, .c⟩
def SCL_BOOT_ERR_B_FAIL : Fld := ⟨0x1000C, false, 17, 1, .ro, .val 0, .c⟩
def SCL_BOOT_ERR_COPY : Fld := ⟨0x1000C, false, 18, 1, .ro, .val 0, .c⟩
def SCL_BOOT_ERR_SECTION : Fld := ⟨0x1000C, false, 19, 13, .ro, .val 0, .c⟩
def SCL_SQ_BASE_ADDR : Fld := ⟨0x10010, true, 0, 64, .rw, .val 0, .f⟩
def SCL_SQ_CTRL_EN : Fld := ⟨0x10018, false, 0, 1, .rw, .val 0, .f⟩
def SCL_SQ_CTRL_LOG2 : Fld := ⟨0x10018, false, 1, 4, .rw, .val 6, .f⟩
def SCL_SQ_CTRL_VECTOR : Fld := ⟨0x10018, false, 16, 11, .rw, .val 0, .f⟩
def SCL_SQ_TAIL_TAIL : Fld := ⟨0x1001C, false, 0, 16, .rw, .val 0, .f⟩
def SCL_CQ_BASE_ADDR : Fld := ⟨0x10020, true, 0, 64, .rw, .val 0, .f⟩
def SCL_CQ_HEAD_HEAD : Fld := ⟨0x10028, false, 0, 16, .rw, .val 0, .f⟩
def SCL_RESTARTS_SCALER : Fld := ⟨0x1002C, false, 0, 8, .rc, .val 0, .w⟩
def SCL_RESTARTS_RANGER : Fld := ⟨0x1002C, false, 8, 8, .rc, .val 0, .w⟩
def SCL_RESTARTS_STREAM : Fld := ⟨0x1002C, false, 16, 16, .rc, .val 0, .w⟩
def SCL_MBOX_DATA (i : Nat) : Fld := ⟨0x10040 + 4 * i, false, 0, 32, .rw, .val 0, .f⟩
def SCL_MBOX_CTRL_GO : Fld := ⟨0x10080, false, 0, 1, .w1s, .val 0, .f⟩
/-! ### Table 12.14 (R384) -/

def PG_SQ_BASE_ADDR : Fld := ⟨0x10000000, true, 0, 64, .rw, .val 0, .s⟩
def PG_SQ_CTRL_EN : Fld := ⟨0x10000008, false, 0, 1, .rw, .val 0, .s⟩
def PG_SQ_CTRL_LOG2 : Fld := ⟨0x10000008, false, 1, 4, .rw, .val 6, .s⟩
def PG_SQ_CTRL_VECTOR : Fld := ⟨0x10000008, false, 16, 11, .rw, .val 0, .s⟩
def PG_SQ_TAIL_TAIL : Fld := ⟨0x1000000C, false, 0, 16, .rw, .val 0, .s⟩
def PG_CQ_BASE_ADDR : Fld := ⟨0x10000010, true, 0, 64, .rw, .val 0, .s⟩
def PG_CQ_HEAD_HEAD : Fld := ⟨0x10000018, false, 0, 16, .rw, .val 0, .s⟩
def PG_STATUS_NEGOTIATED : Fld := ⟨0x1000001C, false, 0, 1, .ro, .val 0, .s⟩
def PG_STATUS_ACTIVE : Fld := ⟨0x1000001C, false, 1, 1, .ro, .val 0, .s⟩
/-! ### Table 13.11 (R411) -/

def BRK_CAP_SLOTS : Fld := ⟨0x90000, false, 0, 13, .ro, .val 4096, .c⟩
def BRK_CAP_MEAS_MAX : Fld := ⟨0x90000, false, 13, 7, .ro, .val 79, .c⟩
def BRK_STATUS_ID_MATCH : Fld := ⟨0x90004, false, 0, 1, .ro, .val 0, .c⟩
def BRK_STATUS_TRNG_OK : Fld := ⟨0x90004, false, 1, 1, .ro, .val 1, .c⟩
def BRK_STATUS_SESSIONS : Fld := ⟨0x90004, false, 16, 12, .ro, .val 0, .w⟩
def BRK_SLICE_SEL_SLICE : Fld := ⟨0x90008, false, 0, 9, .rw, .val 0, .f⟩
def BRK_SLICE_SLOTS_QUOTA : Fld := ⟨0x9000C, false, 0, 13, .rw, .val 0, .w⟩
def BRK_SLICE_SLOTS_ACCEPT : Fld := ⟨0x9000C, false, 13, 1, .rw, .val 0, .w⟩
def BRK_SLICE_SLOTS_USED : Fld := ⟨0x9000C, false, 16, 13, .ro, .val 0, .w⟩
def BRK_SLOT_SEL_SLOT : Fld := ⟨0x90010, false, 0, 12, .rw, .val 0, .f⟩
def BRK_SLOT_INFO_STATE : Fld := ⟨0x90014, false, 0, 2, .ro, .val 0, .w⟩
def BRK_SLOT_INFO_USE : Fld := ⟨0x90014, false, 2, 3, .ro, .val 0, .w⟩
def BRK_SLOT_INFO_DEVICE : Fld := ⟨0x90014, false, 5, 1, .ro, .val 0, .w⟩
def BRK_SLOT_INFO_HELD : Fld := ⟨0x90014, false, 6, 1, .ro, .val 0, .w⟩
def BRK_SLOT_INFO_SLICE : Fld := ⟨0x90014, false, 7, 9, .ro, .val 0, .w⟩
def BRK_SLOT_INFO_REFS : Fld := ⟨0x90014, false, 16, 16, .ro, .val 0, .w⟩
def BRK_SLOT_CTR_NEXT : Fld := ⟨0x90018, true, 0, 48, .ro, .val 0, .w⟩
def BRK_DIE_ERR_MISMATCH (i : Nat) : Fld := ⟨0x90020 + 4 * i, false, 0, 16, .rc, .val 0, .w⟩
def BRK_DIE_ERR_AUTH_FAIL (i : Nat) : Fld := ⟨0x90020 + 4 * i, false, 16, 16, .rc, .val 0, .w⟩
/-! ### Table 14.11 (R427) -/

def PWR_STATE_STATE : Fld := ⟨0x30000, false, 0, 3, .ro, .val 0, .w⟩
def PWR_STATE_TARGET : Fld := ⟨0x30000, false, 3, 3, .ro, .val 0, .w⟩
def PWR_STATE_BUSY : Fld := ⟨0x30000, false, 6, 1, .ro, .val 0, .w⟩
def PWR_STATE_DEFER : Fld := ⟨0x30000, false, 7, 1, .ro, .val 0, .w⟩
def PWR_CTRL_CAP : Fld := ⟨0x30004, false, 0, 16, .ro, .image, .w⟩
def PWR_CTRL_T_TARGET : Fld := ⟨0x30004, false, 16, 7, .rwl, .val 95, .w⟩
def PWR_CTRL_LOCK : Fld := ⟨0x30004, false, 31, 1, .w1s, .val 0, .w⟩
def PWR_LIMIT_UV_WARN : Fld := ⟨0x30008, false, 0, 9, .rwl, .image, .w⟩
def PWR_LIMIT_CEILING : Fld := ⟨0x30008, false, 16, 10, .ro, .image, .w⟩
def PWR_STATUS_DIP : Fld := ⟨0x3000C, false, 0, 1, .ro, .val 0, .w⟩
def PWR_STATUS_THERM_CLAMP : Fld := ⟨0x3000C, false, 1, 1, .ro, .val 0, .w⟩
def PWR_STATUS_POWER_CLAMP : Fld := ⟨0x3000C, false, 2, 1, .ro, .val 0, .w⟩
def PWR_STATUS_CAP_UNMET : Fld := ⟨0x3000C, false, 3, 1, .w1c, .val 0, .w⟩
def PWR_STATUS_LOW_IN : Fld := ⟨0x3000C, false, 4, 1, .ro, .val 0, .w⟩
def PWR_STATUS_HIGH_IN : Fld := ⟨0x3000C, false, 5, 1, .ro, .val 0, .w⟩
def PWR_STATUS_EMERG : Fld := ⟨0x3000C, false, 6, 1, .ro, .val 0, .w⟩
def PWR_INPUT_VOLT : Fld := ⟨0x30010, false, 0, 16, .ro, .val 0, .w⟩
def PWR_INPUT_CURRENT : Fld := ⟨0x30010, false, 16, 16, .ro, .val 0, .w⟩
def PWR_METER_POWER : Fld := ⟨0x30014, false, 0, 16, .ro, .val 0, .w⟩
def PWR_METER_PEAK : Fld := ⟨0x30014, false, 16, 16, .rc, .val 0, .w⟩
def PWR_DIPS_WINDOW : Fld := ⟨0x30018, false, 0, 8, .ro, .val 0, .c⟩
def PWR_DIPS_TOTAL : Fld := ⟨0x30018, false, 8, 24, .ro, .val 0, .c⟩
def PWR_RESET_CAUSE_POWER_ON : Fld := ⟨0x3001C, false, 0, 1, .ro, .val 1, .c⟩
def PWR_RESET_CAUSE_MRST : Fld := ⟨0x3001C, false, 1, 1, .ro, .val 0, .c⟩
def PWR_RESET_CAUSE_UV_RESET : Fld := ⟨0x3001C, false, 2, 1, .ro, .val 0, .c⟩
def PWR_RESET_CAUSE_OV_TRIP : Fld := ⟨0x3001C, false, 3, 1, .ro, .val 0, .c⟩
def PWR_RESET_CAUSE_THERM_TRIP : Fld := ⟨0x3001C, false, 4, 1, .ro, .val 0, .c⟩
def PWR_RESET_CAUSE_WARM : Fld := ⟨0x3001C, false, 5, 1, .ro, .val 0, .c⟩
def PWR_TEMP_NOW (i : Nat) : Fld := ⟨0x30020 + 4 * i, false, 0, 8, .ro, .val 0, .w⟩
def PWR_TEMP_MAX (i : Nat) : Fld := ⟨0x30020 + 4 * i, false, 8, 8, .rc, .val 0, .w⟩
/-! ### Table 15.6 (R444) -/

def FLT_CAP_SOURCES : Fld := ⟨0x20000, false, 0, 6, .ro, .val 46, .c⟩
def FLT_STATUS_V : Fld := ⟨0x20008, true, 0, 64, .w1c, .val 0, .c⟩
def FLT_CE_V : Fld := ⟨0x20010, true, 0, 64, .w1c, .val 0, .c⟩
def FLT_LINE_V : Fld := ⟨0x20018, true, 0, 64, .ro, .val 0, .n⟩
def FLT_FORCE_V : Fld := ⟨0x20020, true, 0, 64, .wo, .val 0, .n⟩
def FLT_FORCE_CLASS_CLASS : Fld := ⟨0x20028, false, 0, 2, .rw, .val 1, .w⟩
def FLT_PIN_CTRL_DRIVE : Fld := ⟨0x2002C, false, 0, 1, .rw, .val 0, .w⟩
def FLT_IRQ_CE : Fld := ⟨0x20030, false, 0, 1, .rw, .val 0, .f⟩
def FLT_IRQ_CONT : Fld := ⟨0x20030, false, 1, 1, .rw, .val 0, .f⟩
def FLT_IRQ_FATAL : Fld := ⟨0x20030, false, 2, 1, .rw, .val 0, .f⟩
def FLT_IRQ_VECTOR : Fld := ⟨0x20030, false, 3, 11, .rw, .val 0, .f⟩
def FLT_SUMMARY_FATAL : Fld := ⟨0x20034, false, 0, 1, .ro, .val 0, .w⟩
def FLT_SUMMARY_RECORDS : Fld := ⟨0x20034, false, 1, 31, .ro, .val 0, .c⟩
def FLT_LOG_HEAD_NEXT : Fld := ⟨0x20038, false, 0, 32, .ro, .val 0, .c⟩
def FLT_LOG_IDX_POS : Fld := ⟨0x2003C, false, 0, 32, .rw, .val 0, .f⟩
def FLT_LOG_DATA_V (i : Nat) : Fld := ⟨0x20040 + 4 * i, false, 0, 32, .ro, .val 0, .f⟩
def FLT_LOG_LOST_COUNT : Fld := ⟨0x20080, false, 0, 32, .rc, .val 0, .c⟩
/-! ### Table 15.7 (R445) -/

def TLY_CAP_EVENTS : Fld := ⟨0x50000, false, 0, 12, .ro, .val 2048, .c⟩
def TLY_CTRL_SNAP : Fld := ⟨0x50004, false, 0, 1, .wo, .val 0, .n⟩
def TLY_CTRL_SNAP_BUSY : Fld := ⟨0x50004, false, 1, 1, .ro, .val 0, .w⟩
def TLY_CTRL_SNAP_SEQ : Fld := ⟨0x50004, false, 16, 16, .ro, .val 0, .c⟩
def TLY_SEL_EVENT : Fld := ⟨0x50008, false, 0, 11, .rw, .val 0, .f⟩
def TLY_SEL_BANK : Fld := ⟨0x50008, false, 11, 1, .rw, .val 0, .f⟩
def TLY_CNT_COUNT : Fld := ⟨0x50010, true, 0, 48, .ro, .val 0, .c⟩
def TLY_SNAP_STAMP_V : Fld := ⟨0x50018, true, 0, 64, .ro, .val 0, .c⟩
def TLY_PAIR_V (i : Nat) : Fld := ⟨0x50020 + 4 * i, false, 0, 32, .rw, .val 0, .c⟩
def TLY_SMP_SEL_CORE : Fld := ⟨0x500A0, false, 0, 8, .rw, .val 0, .f⟩
def TLY_SMP_CFG_EVENT : Fld := ⟨0x500A4, false, 0, 11, .rw, .val 0, .w⟩
def TLY_SMP_CFG_LOG2P : Fld := ⟨0x500A4, false, 11, 6, .rw, .val 20, .w⟩
def TLY_SMP_CFG_EN : Fld := ⟨0x500A4, false, 17, 1, .rw, .val 0, .w⟩
def TLY_POL_SEL_POLICER : Fld := ⟨0x500B0, false, 0, 14, .rw, .val 0, .f⟩
def TLY_POL_SEL_DIE : Fld := ⟨0x500B0, false, 14, 1, .rw, .val 0, .f⟩
def TLY_POL_CNT_V (i : Nat) : Fld := ⟨0x500C0 + 8 * i, true, 0, 48, .ro, .val 0, .c⟩
def TLY_TEL_CTRL_EN : Fld := ⟨0x50100, false, 0, 1, .rw, .val 0, .w⟩
def TLY_TEL_CTRL_MASK : Fld := ⟨0x50100, false, 1, 5, .rw, .val 1, .w⟩
def TLY_TEL_CTRL_SEAL : Fld := ⟨0x50100, false, 6, 1, .rw, .val 0, .w⟩
def TLY_TEL_CTRL_SNAP : Fld := ⟨0x50100, false, 7, 1, .rw, .val 0, .w⟩
def TLY_TEL_CTRL_SLOT : Fld := ⟨0x50100, false, 8, 12, .rw, .val 0, .w⟩
def TLY_TEL_CTRL_POLL : Fld := ⟨0x50100, false, 20, 12, .rw, .val 100, .w⟩
def TLY_TEL_SEL_ENTRY : Fld := ⟨0x50104, false, 0, 3, .rw, .val 0, .f⟩
def TLY_TEL_SEL_VALID : Fld := ⟨0x50104, false, 3, 1, .rw, .val 0, .w⟩
def TLY_TEL_IP_V (i : Nat) : Fld := ⟨0x50108 + 4 * i, false, 0, 32, .rw, .val 0, .w⟩
def TLY_TEL_MAC_V : Fld := ⟨0x50118, true, 0, 48, .rw, .val 0, .w⟩
def TLY_TEL_ROUTE_UDP : Fld := ⟨0x50120, false, 0, 16, .rw, .val 0, .w⟩
def TLY_TEL_ROUTE_PORT : Fld := ⟨0x50120, false, 16, 5, .rw, .val 0, .w⟩
def TLY_TEL_ROUTE_RATE : Fld := ⟨0x50120, false, 21, 11, .rw, .val 1000, .w⟩

end Sys2Proof.Machine.F

namespace Sys2Proof.Machine

/-! ### The tables, block by block -/

/-- The rows of the GEN registers. -/
def rowsGen : List Row := [
  ⟨F.GEN_ID_PART, 1, 0⟩,
  ⟨F.GEN_ID_STEP, 1, 0⟩,
  ⟨F.GEN_ID_GEN, 1, 0⟩,
  ⟨F.GEN_VERSION_ROM, 1, 0⟩,
  ⟨F.GEN_VERSION_BAR0, 1, 0⟩,
  ⟨F.GEN_CAP_NET_LANES, 1, 0⟩,
  ⟨F.GEN_CAP_PCIE_PORTS, 1, 0⟩,
  ⟨F.GEN_CAP_MILLS, 1, 0⟩,
  ⟨F.GEN_CAP_LPDDR_GIB, 1, 0⟩,
  ⟨F.GEN_SUFFIX_PLATE, 1, 0⟩,
  ⟨F.GEN_SUFFIX_SCREEN, 1, 0⟩,
  ⟨F.GEN_SERIAL_SN, 1, 0⟩,
  ⟨F.GEN_FUNC_PORT, 1, 0⟩,
  ⟨F.GEN_SCRATCH_DATA, 1, 0⟩]

/-- The rows of the TIM registers. -/
def rowsTim : List Row := [
  ⟨F.TIM_CTRL_SRC, 1, 0⟩,
  ⟨F.TIM_CTRL_PPS_OUT_EN, 1, 0⟩,
  ⟨F.TIM_CTRL_PPS_IN_EN, 1, 0⟩,
  ⟨F.TIM_CTRL_PPS_IN_EDGE, 1, 0⟩,
  ⟨F.TIM_STATUS_STATE, 1, 0⟩,
  ⟨F.TIM_STATUS_SET, 1, 0⟩,
  ⟨F.TIM_STATUS_SLEW_BUSY, 1, 0⟩,
  ⟨F.TIM_STATUS_STEP_PEND, 1, 0⟩,
  ⟨F.TIM_STATUS_PPS_CAP_VALID, 1, 0⟩,
  ⟨F.TIM_STATUS_PPS_OVERRUN, 1, 0⟩,
  ⟨F.TIM_STATUS_PPS_SKIP, 1, 0⟩,
  ⟨F.TIM_STATUS_ADDEND_CLAMP, 1, 0⟩,
  ⟨F.TIM_STATUS_REPLICA_ERR, 1, 0⟩,
  ⟨F.TIM_NOW_NS, 1, 0⟩,
  ⟨F.TIM_NOW_FRAC_FRAC, 1, 0⟩,
  ⟨F.TIM_ADDEND_VAL, 1, 0⟩,
  ⟨F.TIM_SET_NS, 1, 0⟩,
  ⟨F.TIM_STEP_NS, 1, 0⟩,
  ⟨F.TIM_SLEW_AMT, 1, 0⟩,
  ⟨F.TIM_SLEW_RATE_PPM, 1, 0⟩,
  ⟨F.TIM_PPS_CAP_NS, 1, 0⟩,
  ⟨F.TIM_PPS_CAP_FRAC_FRAC, 1, 0⟩,
  ⟨F.TIM_PPS_OUT_WIDTH, 1, 0⟩,
  ⟨F.TIM_PPS_OUT_DELAY, 1, 0⟩,
  ⟨F.TIM_PORT_LAT_EGRESS 0, 32, 4⟩,
  ⟨F.TIM_PORT_LAT_INGRESS 0, 32, 4⟩,
  ⟨F.TIM_REPLICA_ERR 0, 5, 4⟩,
  ⟨F.TIM_REPLICA_COUNT 0, 5, 4⟩]

/-- The rows of the MIL registers. -/
def rowsMil : List Row := [
  ⟨F.MIL_CAP_ARRAYS, 1, 0⟩,
  ⟨F.MIL_CAP_VECTORS, 1, 0⟩,
  ⟨F.MIL_CAP_SEQ, 1, 0⟩,
  ⟨F.MIL_CAP_SLOTS, 1, 0⟩,
  ⟨F.MIL_CAP_MAX_LOG2B, 1, 0⟩,
  ⟨F.MIL_STATUS_UNIT_UP, 1, 0⟩,
  ⟨F.MIL_STATUS_CLAMP, 1, 0⟩,
  ⟨F.MIL_STATUS_ADMIT_BUSY, 1, 0⟩,
  ⟨F.MIL_STATUS_DEGRADED, 1, 0⟩,
  ⟨F.MIL_PLAN_SEL_SLOT, 1, 0⟩,
  ⟨F.MIL_PLAN_STATE_STATE, 1, 0⟩,
  ⟨F.MIL_PLAN_STATE_SLICE, 1, 0⟩,
  ⟨F.MIL_PLAN_STATE_SPILL, 1, 0⟩,
  ⟨F.MIL_PLAN_STATE_DEGRADED, 1, 0⟩,
  ⟨F.MIL_PLAN_STATE_EF_STALE, 1, 0⟩,
  ⟨F.MIL_PLAN_STATE_PLAN_ID, 1, 0⟩,
  ⟨F.MIL_STEP_NUM, 1, 0⟩,
  ⟨F.MIL_SPILL_BYTES, 1, 0⟩,
  ⟨F.MIL_EVT_SAT_COUNT, 1, 0⟩,
  ⟨F.MIL_EVT_INF_COUNT, 1, 0⟩,
  ⟨F.MIL_EVT_NAN_COUNT, 1, 0⟩,
  ⟨F.MIL_EVT_NANGRP_COUNT, 1, 0⟩,
  ⟨F.MIL_EVT_NANLOST_COUNT, 1, 0⟩,
  ⟨F.MIL_EVT_INVALID_COUNT, 1, 0⟩,
  ⟨F.MIL_EVT_CLR_CLR, 1, 0⟩,
  ⟨F.MIL_UNIT_STATE 0, 16, 4⟩,
  ⟨F.MIL_UNIT_ROLE 0, 16, 4⟩,
  ⟨F.MIL_UNIT_LAST_SLOT 0, 16, 4⟩,
  ⟨F.MIL_UNIT_DIE 0, 16, 4⟩]

/-- The rows of the MEM registers. -/
def rowsMem : List Row := [
  ⟨F.MEM_CAP_DATA_GIB, 1, 0⟩,
  ⟨F.MEM_CAP_STAGING_GIB, 1, 0⟩,
  ⟨F.MEM_CAP_SYS_GIB, 1, 0⟩,
  ⟨F.MEM_CAP_SPARING, 1, 0⟩,
  ⟨F.MEM_CTRL_SCRUB_LP, 1, 0⟩,
  ⟨F.MEM_CTRL_SCRUB_SR, 1, 0⟩,
  ⟨F.MEM_CTRL_MIG_SHARE, 1, 0⟩,
  ⟨F.MEM_CTRL_LOCK, 1, 0⟩,
  ⟨F.MEM_STATUS_CH_UP, 1, 0⟩,
  ⟨F.MEM_STATUS_ZERO_BUSY, 1, 0⟩,
  ⟨F.MEM_STATUS_CE_THR, 1, 0⟩,
  ⟨F.MEM_STATUS_ROWREP_FULL, 1, 0⟩,
  ⟨F.MEM_SPARE_CHANNEL, 1, 0⟩,
  ⟨F.MEM_SPARE_START, 1, 0⟩,
  ⟨F.MEM_SPARE_ACTIVE, 1, 0⟩,
  ⟨F.MEM_SPARE_DONE, 1, 0⟩,
  ⟨F.MEM_SPARE_WATERMARK, 1, 0⟩,
  ⟨F.MEM_CH_STATE 0, 16, 4⟩,
  ⟨F.MEM_CH_ROWREP_USED 0, 16, 4⟩,
  ⟨F.MEM_CH_CE_HOUR 0, 16, 4⟩,
  ⟨F.MEM_SRAM_AVAIL_BANKS_OK 0, 6, 4⟩,
  ⟨F.MEM_SRAM_AVAIL_SPARES_LEFT 0, 6, 4⟩,
  ⟨F.MEM_SRAM_AVAIL_COLS_REPAIRED 0, 6, 4⟩,
  ⟨F.MEM_POOL_PAGES_PAGES, 1, 0⟩,
  ⟨F.MEM_ROWREP_SEL_CHANNEL, 1, 0⟩,
  ⟨F.MEM_ROWREP_SEL_ENTRY, 1, 0⟩,
  ⟨F.MEM_ROWREP_DATA_ROW, 1, 0⟩,
  ⟨F.MEM_ROWREP_DATA_VALID, 1, 0⟩,
  ⟨F.MEM_ROWREP_DATA_FROM_LIST, 1, 0⟩,
  ⟨F.MEM_SLICE_SEL_SLICE, 1, 0⟩,
  ⟨F.MEM_SLICE_QUOTA_PAGES, 1, 0⟩,
  ⟨F.MEM_SLICE_USED_PAGES, 1, 0⟩,
  ⟨F.MEM_SPILL_BASE_ADDR, 1, 0⟩,
  ⟨F.MEM_SPILL_SIZE_PAGES, 1, 0⟩,
  ⟨F.MEM_SPILL_CTRL_EN, 1, 0⟩,
  ⟨F.MEM_SPILL_CTRL_PORT, 1, 0⟩,
  ⟨F.MEM_SPILL_CTRL_BW, 1, 0⟩,
  ⟨F.MEM_SPILL_USED_PAGES, 1, 0⟩]

/-- The rows of the SKD registers. -/
def rowsSkd : List Row := [
  ⟨F.SKD_CAP_TVER, 1, 0⟩,
  ⟨F.SKD_CAP_MAX_PATHS, 1, 0⟩,
  ⟨F.SKD_CAP_QPN_BITS, 1, 0⟩,
  ⟨F.SKD_CAP_SEAL, 1, 0⟩,
  ⟨F.SKD_CAP_MP, 1, 0⟩,
  ⟨F.SKD_CTRL_BS_EN, 1, 0⟩,
  ⟨F.SKD_CTRL_CNP_EN, 1, 0⟩,
  ⟨F.SKD_CTRL_ECT_EN, 1, 0⟩,
  ⟨F.SKD_CTRL_LOCK, 1, 0⟩,
  ⟨F.SKD_BS_BASE_ADDR, 1, 0⟩,
  ⟨F.SKD_BS_CTRL_COUNT, 1, 0⟩,
  ⟨F.SKD_BS_CTRL_PORT, 1, 0⟩,
  ⟨F.SKD_NODE_NODE, 1, 0⟩,
  ⟨F.SKD_CC_CNP_CNP_INT, 1, 0⟩,
  ⟨F.SKD_CC_CNP_PATH_HOLD, 1, 0⟩,
  ⟨F.SKD_CC_CUT_CUT_STEP, 1, 0⟩,
  ⟨F.SKD_CC_CUT_CUT_INT, 1, 0⟩,
  ⟨F.SKD_CC_CUT_PR_DECAY, 1, 0⟩,
  ⟨F.SKD_CC_RECOVER_TIMER, 1, 0⟩,
  ⟨F.SKD_CC_RECOVER_BYTES, 1, 0⟩,
  ⟨F.SKD_CC_RECOVER_F, 1, 0⟩,
  ⟨F.SKD_CC_INC_R_AI, 1, 0⟩,
  ⟨F.SKD_CC_INC_R_LOG, 1, 0⟩,
  ⟨F.SKD_RETX_ACK_COALESCE, 1, 0⟩,
  ⟨F.SKD_RETX_ACK_DELAY, 1, 0⟩,
  ⟨F.SKD_RETX_REORDER_WIN, 1, 0⟩,
  ⟨F.SKD_MISS_CFG_CELLS, 1, 0⟩,
  ⟨F.SKD_MISS_CFG_CHAIN_MAX, 1, 0⟩,
  ⟨F.SKD_DIE_STATUS_CACHED 0, 2, 4096⟩,
  ⟨F.SKD_DIE_STATUS_PINNED 0, 2, 4096⟩,
  ⟨F.SKD_DIE_MISS_CELLS_USED 0, 2, 4096⟩,
  ⟨F.SKD_DIE_MISS_CHAINS 0, 2, 4096⟩,
  ⟨F.SKD_DIE_TRK_RX 0, 2, 4096⟩,
  ⟨F.SKD_DIE_TRK_TX 0, 2, 4096⟩]

/-- The rows of the BKR registers. -/
def rowsBkr : List Row := [
  ⟨F.BKR_CAP_WAYS, 1, 0⟩,
  ⟨F.BKR_CAP_INDEX_BITS, 1, 0⟩,
  ⟨F.BKR_CAP_KEY_BYTES, 1, 0⟩,
  ⟨F.BKR_CTRL_FRAG_EARLY, 1, 0⟩,
  ⟨F.BKR_CTRL_VXLAN_EN, 1, 0⟩,
  ⟨F.BKR_CTRL_VXLAN_PORT, 1, 0⟩,
  ⟨F.BKR_CTRL_LOCK, 1, 0⟩,
  ⟨F.BKR_FRAG_CFG_TMO, 1, 0⟩,
  ⟨F.BKR_HASH_SEED_SEED 0, 4, 4⟩,
  ⟨F.BKR_EXC_RATE 0, 8, 4⟩,
  ⟨F.BKR_EXC_BURST 0, 8, 4⟩,
  ⟨F.BKR_TBL_ADDR_WORD, 1, 0⟩,
  ⟨F.BKR_TBL_ADDR_INDEX, 1, 0⟩,
  ⟨F.BKR_TBL_ADDR_WAY, 1, 0⟩,
  ⟨F.BKR_TBL_ADDR_DIE, 1, 0⟩,
  ⟨F.BKR_TBL_DATA_DATA, 1, 0⟩,
  ⟨F.BKR_DIE_STATUS_USED 0, 2, 4096⟩,
  ⟨F.BKR_DIE_STATUS_DUP 0, 2, 4096⟩,
  ⟨F.BKR_DIE_FRAG_USED 0, 2, 4096⟩,
  ⟨F.BKR_DIE_FRAG_FULL 0, 2, 4096⟩]

/-- The rows of the BOM registers. -/
def rowsBom : List Row := [
  ⟨F.BOM_CAP_CELLS, 1, 0⟩,
  ⟨F.BOM_QSEL_QUEUE, 1, 0⟩,
  ⟨F.BOM_QSEL_DIE, 1, 0⟩,
  ⟨F.BOM_QCFG_LIMIT, 1, 0⟩,
  ⟨F.BOM_QCFG_FLUSH, 1, 0⟩,
  ⟨F.BOM_QSTAT_CELLS, 1, 0⟩,
  ⟨F.BOM_QSTAT_FRAMES, 1, 0⟩,
  ⟨F.BOM_DIE_FREE_FREE 0, 2, 4096⟩,
  ⟨F.BOM_DIE_MINFREE_MIN 0, 2, 4096⟩,
  ⟨F.BOM_DIE_ECC_CE 0, 2, 4096⟩,
  ⟨F.BOM_DIE_ECC_UE 0, 2, 4096⟩]

/-- The rows of the FLU registers. -/
def rowsFlu : List Row := [
  ⟨F.FLU_CAP_QUEUES, 1, 0⟩,
  ⟨F.FLU_CAP_CLASSES, 1, 0⟩,
  ⟨F.FLU_SHAPE_BURST, 1, 0⟩,
  ⟨F.FLU_SHAPE_SAMPLE, 1, 0⟩,
  ⟨F.FLU_SHAPE_LOCK, 1, 0⟩,
  ⟨F.FLU_PORT_SEL_PORT, 1, 0⟩,
  ⟨F.FLU_PORT_STATUS_QUEUES, 1, 0⟩,
  ⟨F.FLU_PORT_STATUS_SAMPLING, 1, 0⟩,
  ⟨F.FLU_TC_STRICT 0, 8, 4⟩,
  ⟨F.FLU_TC_WEIGHT 0, 8, 4⟩,
  ⟨F.FLU_SLICE_SEL_SLICE, 1, 0⟩,
  ⟨F.FLU_SLICE_W_WEIGHT, 1, 0⟩,
  ⟨F.FLU_QSEL_QUEUE, 1, 0⟩,
  ⟨F.FLU_QSEL_DIE, 1, 0⟩,
  ⟨F.FLU_QSTAT_HWM, 1, 0⟩,
  ⟨F.FLU_QINFO_PORT, 1, 0⟩,
  ⟨F.FLU_QINFO_TC, 1, 0⟩,
  ⟨F.FLU_QINFO_BOUND, 1, 0⟩,
  ⟨F.FLU_QINFO_WHEEL, 1, 0⟩,
  ⟨F.FLU_POL_SEL_POLICER, 1, 0⟩,
  ⟨F.FLU_POL_SEL_DIE, 1, 0⟩,
  ⟨F.FLU_POL_CFG_EN, 1, 0⟩,
  ⟨F.FLU_POL_CFG_MODE, 1, 0⟩,
  ⟨F.FLU_POL_CFG_AWARE, 1, 0⟩,
  ⟨F.FLU_POL_CFG_YELLOW, 1, 0⟩,
  ⟨F.FLU_POL_CFG_RED, 1, 0⟩,
  ⟨F.FLU_POL_CFG_Y_DSCP, 1, 0⟩,
  ⟨F.FLU_POL_CFG_R_DSCP, 1, 0⟩,
  ⟨F.FLU_POL_CIR_MBPS, 1, 0⟩,
  ⟨F.FLU_POL_PIR_MBPS, 1, 0⟩,
  ⟨F.FLU_POL_CBS_BYTES, 1, 0⟩,
  ⟨F.FLU_POL_EBS_BYTES, 1, 0⟩,
  ⟨F.FLU_CMAP_COLOUR 0, 4, 4⟩]

/-- The rows of the EPX registers. -/
def rowsEpx : List Row := [
  ⟨F.EPX_CAP_PORTS, 1, 0⟩,
  ⟨F.EPX_CAP_SLICES, 1, 0⟩,
  ⟨F.EPX_CAP_WINDOWS, 1, 0⟩,
  ⟨F.EPX_TAGCFG_RSV, 1, 0⟩,
  ⟨F.EPX_TAGCFG_LOCK, 1, 0⟩,
  ⟨F.EPX_PORT_STATUS_UP 0, 4, 16⟩,
  ⟨F.EPX_PORT_STATUS_SPEED 0, 4, 16⟩,
  ⟨F.EPX_PORT_STATUS_WIDTH 0, 4, 16⟩,
  ⟨F.EPX_PORT_STATUS_FLIT 0, 4, 16⟩,
  ⟨F.EPX_PORT_STATUS_HOTRST 0, 4, 16⟩,
  ⟨F.EPX_PORT_STATUS_BME0 0, 4, 16⟩,
  ⟨F.EPX_PORT_STATUS_BME1 0, 4, 16⟩,
  ⟨F.EPX_PORT_STATUS_DOWNS 0, 4, 16⟩,
  ⟨F.EPX_TAG_STATUS_OUT 0, 4, 16⟩,
  ⟨F.EPX_TAG_STATUS_QUAR 0, 4, 16⟩,
  ⟨F.EPX_ERR_CTO 0, 4, 16⟩,
  ⟨F.EPX_ERR_UNEXP 0, 4, 16⟩,
  ⟨F.EPX_ERR2_POISON 0, 4, 16⟩,
  ⟨F.EPX_ERR2_URCA 0, 4, 16⟩,
  ⟨F.EPX_SLICE_SEL_SLICE, 1, 0⟩,
  ⟨F.EPX_SLICE_BIND_STATE, 1, 0⟩,
  ⟨F.EPX_SLICE_BIND_HOME, 1, 0⟩,
  ⟨F.EPX_SLICE_BIND_FUNC, 1, 0⟩,
  ⟨F.EPX_SLICE_BIND_PORTS, 1, 0⟩,
  ⟨F.EPX_SLICE_BIND_PASID_EN, 1, 0⟩,
  ⟨F.EPX_SLICE_BIND_FORCED, 1, 0⟩,
  ⟨F.EPX_SLICE_PASID_PASID, 1, 0⟩,
  ⟨F.EPX_SLICE_QP_QUOTA, 1, 0⟩,
  ⟨F.EPX_SLICE_CELLS_QUOTA, 1, 0⟩,
  ⟨F.EPX_SLICE_MISC_SHARE, 1, 0⟩,
  ⟨F.EPX_SLICE_MISC_NVQ, 1, 0⟩,
  ⟨F.EPX_SLICE_VEC_BASE, 1, 0⟩,
  ⟨F.EPX_SLICE_VEC_COUNT, 1, 0⟩,
  ⟨F.EPX_WIN_SEL_WINDOW, 1, 0⟩,
  ⟨F.EPX_WIN_CTRL_EN, 1, 0⟩,
  ⟨F.EPX_WIN_CTRL_PORT, 1, 0⟩,
  ⟨F.EPX_WIN_CTRL_READ, 1, 0⟩,
  ⟨F.EPX_WIN_CTRL_WRITE, 1, 0⟩,
  ⟨F.EPX_WIN_BASE_ADDR, 1, 0⟩,
  ⟨F.EPX_WIN_SIZE_BYTES, 1, 0⟩]

/-- The rows of the NVE registers. -/
def rowsNve : List Row := [
  ⟨F.NVE_CAP_VOLUMES, 1, 0⟩,
  ⟨F.NVE_CAP_NS, 1, 0⟩,
  ⟨F.NVE_CAP_TARGETS, 1, 0⟩,
  ⟨F.NVE_CTRL_RETRIES, 1, 0⟩,
  ⟨F.NVE_CTRL_TGT_TMO, 1, 0⟩,
  ⟨F.NVE_CTRL_LOCK, 1, 0⟩,
  ⟨F.NVE_VOL_SEL_VOL, 1, 0⟩,
  ⟨F.NVE_VOL_STATE_STATE, 1, 0⟩,
  ⟨F.NVE_VOL_STATE_SLICE, 1, 0⟩,
  ⟨F.NVE_VOL_STATE_NSID, 1, 0⟩,
  ⟨F.NVE_VOL_STATE_DIE, 1, 0⟩,
  ⟨F.NVE_VOL_STATE_WCE, 1, 0⟩,
  ⟨F.NVE_VOL_STATE_ID, 1, 0⟩,
  ⟨F.NVE_VOL_UNITS_UNITS, 1, 0⟩,
  ⟨F.NVE_VOL_DIRTY_UNITS, 1, 0⟩,
  ⟨F.NVE_VOL_ERR_TAG_FAIL, 1, 0⟩,
  ⟨F.NVE_VOL_ERR_RETRIES, 1, 0⟩,
  ⟨F.NVE_VOL_ERR2_FREEZES, 1, 0⟩,
  ⟨F.NVE_VOL_ERR2_CONFLICTS, 1, 0⟩,
  ⟨F.NVE_DIE_STATUS_INFLIGHT 0, 2, 4096⟩,
  ⟨F.NVE_DIE_STATUS_QP_ERR 0, 2, 4096⟩]

/-- The rows of the CRD registers. -/
def rowsCrd : List Row := [
  ⟨F.CRD_CAP_AVAIL, 1, 0⟩,
  ⟨F.CRD_CAP_CHUNK_LOG2, 1, 0⟩,
  ⟨F.CRD_CAP_REGIONS, 1, 0⟩,
  ⟨F.CRD_CTRL_SHARE, 1, 0⟩,
  ⟨F.CRD_CTRL_WARN_EN, 1, 0⟩,
  ⟨F.CRD_CTRL_WARN_HOLD, 1, 0⟩,
  ⟨F.CRD_CTRL_QUIET, 1, 0⟩,
  ⟨F.CRD_CTRL_LOCK, 1, 0⟩,
  ⟨F.CRD_WARN_CE_RATE, 1, 0⟩,
  ⟨F.CRD_WARN_FEC_EXP, 1, 0⟩,
  ⟨F.CRD_WARN_THERM, 1, 0⟩,
  ⟨F.CRD_VOL_VOL, 1, 0⟩,
  ⟨F.CRD_VOL_VALID, 1, 0⟩,
  ⟨F.CRD_STATUS_PHASE, 1, 0⟩,
  ⟨F.CRD_STATUS_NEXT_SLOT, 1, 0⟩,
  ⟨F.CRD_STATUS_SLOT0_OK, 1, 0⟩,
  ⟨F.CRD_STATUS_SLOT1_OK, 1, 0⟩,
  ⟨F.CRD_STATUS_WARN, 1, 0⟩,
  ⟨F.CRD_STATUS_SUPPRESSED, 1, 0⟩,
  ⟨F.CRD_STATUS_ABANDONED, 1, 0⟩,
  ⟨F.CRD_STATUS_HALF_SLOT, 1, 0⟩,
  ⟨F.CRD_KEY_SLOT, 1, 0⟩,
  ⟨F.CRD_SEQ_SEQ, 1, 0⟩,
  ⟨F.CRD_DONE_BYTES, 1, 0⟩,
  ⟨F.CRD_TOTAL_BYTES, 1, 0⟩,
  ⟨F.CRD_STALL_COUNT, 1, 0⟩,
  ⟨F.CRD_STALL_MAX_US, 1, 0⟩,
  ⟨F.CRD_REGIONS_COUNT, 1, 0⟩,
  ⟨F.CRD_REGIONS_GIB, 1, 0⟩]

/-- The rows of the KRF registers. -/
def rowsKrf : List Row := [
  ⟨F.KRF_CAP_CORES, 1, 0⟩,
  ⟨F.KRF_CAP_COUNTERS, 1, 0⟩,
  ⟨F.KRF_CAP_CLUSTERS, 1, 0⟩,
  ⟨F.KRF_CORE_SEL_CORE, 1, 0⟩,
  ⟨F.KRF_CORE_STATE_STATE, 1, 0⟩,
  ⟨F.KRF_CORE_STATE_ECAUSE, 1, 0⟩,
  ⟨F.KRF_CORE_STATE_EXC, 1, 0⟩,
  ⟨F.KRF_CORE_CTRL_DEBUG, 1, 0⟩,
  ⟨F.KRF_CORE_PC_PC, 1, 0⟩,
  ⟨F.KRF_SYNC_SEL_COUNTER, 1, 0⟩,
  ⟨F.KRF_SYNC_VAL_COUNT, 1, 0⟩,
  ⟨F.KRF_SYNC_VAL_SAT_HI, 1, 0⟩,
  ⟨F.KRF_SYNC_VAL_SAT_LO, 1, 0⟩,
  ⟨F.KRF_SYNC_VAL_WAITERS, 1, 0⟩,
  ⟨F.KRF_DUMP_ADDR_ADDR, 1, 0⟩,
  ⟨F.KRF_DUMP_CTRL_START, 1, 0⟩,
  ⟨F.KRF_DUMP_CTRL_BUSY, 1, 0⟩,
  ⟨F.KRF_DUMP_CTRL_PORT, 1, 0⟩,
  ⟨F.KRF_DUMP_CTRL_ALL, 1, 0⟩,
  ⟨F.KRF_DL_CTRL_EN, 1, 0⟩,
  ⟨F.KRF_DL_CTRL_DUMP, 1, 0⟩,
  ⟨F.KRF_DL_CTRL_WINDOW, 1, 0⟩,
  ⟨F.KRF_DL_WATCH_LO_MASK, 1, 0⟩,
  ⟨F.KRF_DL_WATCH_HI_MASK, 1, 0⟩,
  ⟨F.KRF_DL_STATUS_FIRED, 1, 0⟩,
  ⟨F.KRF_DL_STATUS_CORE, 1, 0⟩]

/-- The rows of the SCL registers. -/
def rowsScl : List Row := [
  ⟨F.SCL_CAP_ROM, 1, 0⟩,
  ⟨F.SCL_CAP_MAX_LOG2, 1, 0⟩,
  ⟨F.SCL_STATUS_BOOT, 1, 0⟩,
  ⟨F.SCL_STATUS_LEAD_DIE, 1, 0⟩,
  ⟨F.SCL_STATUS_NEGOTIATED, 1, 0⟩,
  ⟨F.SCL_STATUS_EXT, 1, 0⟩,
  ⟨F.SCL_STATUS_EMERG, 1, 0⟩,
  ⟨F.SCL_LEASE_EPOCH, 1, 0⟩,
  ⟨F.SCL_BOOT_ERR_STATUS, 1, 0⟩,
  ⟨F.SCL_BOOT_ERR_A_FAIL, 1, 0⟩,
  ⟨F.SCL_BOOT_ERR_B_FAIL, 1, 0⟩,
  ⟨F.SCL_BOOT_ERR_COPY, 1, 0⟩,
  ⟨F.SCL_BOOT_ERR_SECTION, 1, 0⟩,
  ⟨F.SCL_SQ_BASE_ADDR, 1, 0⟩,
  ⟨F.SCL_SQ_CTRL_EN, 1, 0⟩,
  ⟨F.SCL_SQ_CTRL_LOG2, 1, 0⟩,
  ⟨F.SCL_SQ_CTRL_VECTOR, 1, 0⟩,
  ⟨F.SCL_SQ_TAIL_TAIL, 1, 0⟩,
  ⟨F.SCL_CQ_BASE_ADDR, 1, 0⟩,
  ⟨F.SCL_CQ_HEAD_HEAD, 1, 0⟩,
  ⟨F.SCL_RESTARTS_SCALER, 1, 0⟩,
  ⟨F.SCL_RESTARTS_RANGER, 1, 0⟩,
  ⟨F.SCL_RESTARTS_STREAM, 1, 0⟩,
  ⟨F.SCL_MBOX_DATA 0, 16, 4⟩,
  ⟨F.SCL_MBOX_CTRL_GO, 1, 0⟩]

/-- The rows of the PG registers. -/
def rowsPg : List Row := [
  ⟨F.PG_SQ_BASE_ADDR, 1, 0⟩,
  ⟨F.PG_SQ_CTRL_EN, 1, 0⟩,
  ⟨F.PG_SQ_CTRL_LOG2, 1, 0⟩,
  ⟨F.PG_SQ_CTRL_VECTOR, 1, 0⟩,
  ⟨F.PG_SQ_TAIL_TAIL, 1, 0⟩,
  ⟨F.PG_CQ_BASE_ADDR, 1, 0⟩,
  ⟨F.PG_CQ_HEAD_HEAD, 1, 0⟩,
  ⟨F.PG_STATUS_NEGOTIATED, 1, 0⟩,
  ⟨F.PG_STATUS_ACTIVE, 1, 0⟩]

/-- The rows of the BRK registers. -/
def rowsBrk : List Row := [
  ⟨F.BRK_CAP_SLOTS, 1, 0⟩,
  ⟨F.BRK_CAP_MEAS_MAX, 1, 0⟩,
  ⟨F.BRK_STATUS_ID_MATCH, 1, 0⟩,
  ⟨F.BRK_STATUS_TRNG_OK, 1, 0⟩,
  ⟨F.BRK_STATUS_SESSIONS, 1, 0⟩,
  ⟨F.BRK_SLICE_SEL_SLICE, 1, 0⟩,
  ⟨F.BRK_SLICE_SLOTS_QUOTA, 1, 0⟩,
  ⟨F.BRK_SLICE_SLOTS_ACCEPT, 1, 0⟩,
  ⟨F.BRK_SLICE_SLOTS_USED, 1, 0⟩,
  ⟨F.BRK_SLOT_SEL_SLOT, 1, 0⟩,
  ⟨F.BRK_SLOT_INFO_STATE, 1, 0⟩,
  ⟨F.BRK_SLOT_INFO_USE, 1, 0⟩,
  ⟨F.BRK_SLOT_INFO_DEVICE, 1, 0⟩,
  ⟨F.BRK_SLOT_INFO_HELD, 1, 0⟩,
  ⟨F.BRK_SLOT_INFO_SLICE, 1, 0⟩,
  ⟨F.BRK_SLOT_INFO_REFS, 1, 0⟩,
  ⟨F.BRK_SLOT_CTR_NEXT, 1, 0⟩,
  ⟨F.BRK_DIE_ERR_MISMATCH 0, 2, 4⟩,
  ⟨F.BRK_DIE_ERR_AUTH_FAIL 0, 2, 4⟩]

/-- The rows of the PWR registers. -/
def rowsPwr : List Row := [
  ⟨F.PWR_STATE_STATE, 1, 0⟩,
  ⟨F.PWR_STATE_TARGET, 1, 0⟩,
  ⟨F.PWR_STATE_BUSY, 1, 0⟩,
  ⟨F.PWR_STATE_DEFER, 1, 0⟩,
  ⟨F.PWR_CTRL_CAP, 1, 0⟩,
  ⟨F.PWR_CTRL_T_TARGET, 1, 0⟩,
  ⟨F.PWR_CTRL_LOCK, 1, 0⟩,
  ⟨F.PWR_LIMIT_UV_WARN, 1, 0⟩,
  ⟨F.PWR_LIMIT_CEILING, 1, 0⟩,
  ⟨F.PWR_STATUS_DIP, 1, 0⟩,
  ⟨F.PWR_STATUS_THERM_CLAMP, 1, 0⟩,
  ⟨F.PWR_STATUS_POWER_CLAMP, 1, 0⟩,
  ⟨F.PWR_STATUS_CAP_UNMET, 1, 0⟩,
  ⟨F.PWR_STATUS_LOW_IN, 1, 0⟩,
  ⟨F.PWR_STATUS_HIGH_IN, 1, 0⟩,
  ⟨F.PWR_STATUS_EMERG, 1, 0⟩,
  ⟨F.PWR_INPUT_VOLT, 1, 0⟩,
  ⟨F.PWR_INPUT_CURRENT, 1, 0⟩,
  ⟨F.PWR_METER_POWER, 1, 0⟩,
  ⟨F.PWR_METER_PEAK, 1, 0⟩,
  ⟨F.PWR_DIPS_WINDOW, 1, 0⟩,
  ⟨F.PWR_DIPS_TOTAL, 1, 0⟩,
  ⟨F.PWR_RESET_CAUSE_POWER_ON, 1, 0⟩,
  ⟨F.PWR_RESET_CAUSE_MRST, 1, 0⟩,
  ⟨F.PWR_RESET_CAUSE_UV_RESET, 1, 0⟩,
  ⟨F.PWR_RESET_CAUSE_OV_TRIP, 1, 0⟩,
  ⟨F.PWR_RESET_CAUSE_THERM_TRIP, 1, 0⟩,
  ⟨F.PWR_RESET_CAUSE_WARM, 1, 0⟩,
  ⟨F.PWR_TEMP_NOW 0, 6, 4⟩,
  ⟨F.PWR_TEMP_MAX 0, 6, 4⟩]

/-- The rows of the FLT registers. -/
def rowsFlt : List Row := [
  ⟨F.FLT_CAP_SOURCES, 1, 0⟩,
  ⟨F.FLT_STATUS_V, 1, 0⟩,
  ⟨F.FLT_CE_V, 1, 0⟩,
  ⟨F.FLT_LINE_V, 1, 0⟩,
  ⟨F.FLT_FORCE_V, 1, 0⟩,
  ⟨F.FLT_FORCE_CLASS_CLASS, 1, 0⟩,
  ⟨F.FLT_PIN_CTRL_DRIVE, 1, 0⟩,
  ⟨F.FLT_IRQ_CE, 1, 0⟩,
  ⟨F.FLT_IRQ_CONT, 1, 0⟩,
  ⟨F.FLT_IRQ_FATAL, 1, 0⟩,
  ⟨F.FLT_IRQ_VECTOR, 1, 0⟩,
  ⟨F.FLT_SUMMARY_FATAL, 1, 0⟩,
  ⟨F.FLT_SUMMARY_RECORDS, 1, 0⟩,
  ⟨F.FLT_LOG_HEAD_NEXT, 1, 0⟩,
  ⟨F.FLT_LOG_IDX_POS, 1, 0⟩,
  ⟨F.FLT_LOG_DATA_V 0, 16, 4⟩,
  ⟨F.FLT_LOG_LOST_COUNT, 1, 0⟩]

/-- The rows of the TLY registers. -/
def rowsTly : List Row := [
  ⟨F.TLY_CAP_EVENTS, 1, 0⟩,
  ⟨F.TLY_CTRL_SNAP, 1, 0⟩,
  ⟨F.TLY_CTRL_SNAP_BUSY, 1, 0⟩,
  ⟨F.TLY_CTRL_SNAP_SEQ, 1, 0⟩,
  ⟨F.TLY_SEL_EVENT, 1, 0⟩,
  ⟨F.TLY_SEL_BANK, 1, 0⟩,
  ⟨F.TLY_CNT_COUNT, 1, 0⟩,
  ⟨F.TLY_SNAP_STAMP_V, 1, 0⟩,
  ⟨F.TLY_PAIR_V 0, 32, 4⟩,
  ⟨F.TLY_SMP_SEL_CORE, 1, 0⟩,
  ⟨F.TLY_SMP_CFG_EVENT, 1, 0⟩,
  ⟨F.TLY_SMP_CFG_LOG2P, 1, 0⟩,
  ⟨F.TLY_SMP_CFG_EN, 1, 0⟩,
  ⟨F.TLY_POL_SEL_POLICER, 1, 0⟩,
  ⟨F.TLY_POL_SEL_DIE, 1, 0⟩,
  ⟨F.TLY_POL_CNT_V 0, 4, 8⟩,
  ⟨F.TLY_TEL_CTRL_EN, 1, 0⟩,
  ⟨F.TLY_TEL_CTRL_MASK, 1, 0⟩,
  ⟨F.TLY_TEL_CTRL_SEAL, 1, 0⟩,
  ⟨F.TLY_TEL_CTRL_SNAP, 1, 0⟩,
  ⟨F.TLY_TEL_CTRL_SLOT, 1, 0⟩,
  ⟨F.TLY_TEL_CTRL_POLL, 1, 0⟩,
  ⟨F.TLY_TEL_SEL_ENTRY, 1, 0⟩,
  ⟨F.TLY_TEL_SEL_VALID, 1, 0⟩,
  ⟨F.TLY_TEL_IP_V 0, 4, 4⟩,
  ⟨F.TLY_TEL_MAC_V, 1, 0⟩,
  ⟨F.TLY_TEL_ROUTE_UDP, 1, 0⟩,
  ⟨F.TLY_TEL_ROUTE_PORT, 1, 0⟩,
  ⟨F.TLY_TEL_ROUTE_RATE, 1, 0⟩]

end Sys2Proof.Machine
end

