-- ==== Sys2Proof/Machine/Regs.lean ====
section
/-! DEFINITION. Register fields: their values, where a field is shown live, and resets by retention class
(R7 to R16). -/

namespace Sys2Proof.Machine

/-- The number of a field and instance in the register table. -/
def fldKey (f : Fld) (inst : Nat) : Nat := (f.off * 64 + f.lo) * 4194304 + inst

/-- The reset value of a field (the Reset column). -/
def rstVal (f : Fld) (inst : Nat) : Nat :=
  match f.rst with
  | .val n => n
  | .image => Config.imageField f.off f.lo % 2 ^ f.w
  | .test => Config.imageField f.off f.lo % 2 ^ f.w
  | .perPort => inst
  | .idxHalf => (f.off - 0x800080) / 4 % 8 / 2
  | .excRate => if (f.off - 0x300020) / 4 = 0 ∨ (f.off - 0x300020) / 4 = 6 then 100 else 10
  | .class7 => if (f.off - 0x600010) / 4 = 7 then 1 else 0

/-- Every row of the register tables of BAR0. -/
def allRows : List Row :=
  rowsGen ++ rowsTim ++ rowsMil ++ rowsMem ++ rowsSkd ++ rowsBkr ++ rowsBom ++ rowsFlu ++ rowsEpx ++ rowsNve ++ rowsCrd ++
  rowsKrf ++ rowsScl ++ rowsBrk ++ rowsPwr ++ rowsFlt ++ rowsTly

/-- The fields of the register at an offset (of its low word, for a pair). -/
def fieldsOf (rows : List Row) (off : Nat) : List Fld :=
  rows.filterMap (fun r =>
    let k := if r.stride = 0 then 0 else (off - r.fld.off) / r.stride
    if off ≥ r.fld.off ∧ k < r.count ∧ r.fld.off + k * r.stride = off then some { r.fld with off := off } else none)

/-- The value of a field in one instance. -/
def Dev.fld (d : Dev) (f : Fld) (inst : Nat) : Nat :=
  match tblGet d.regs (fldKey f inst) with
  | some e => e.val
  | none => rstVal f inst

/-- A one-bit field as a Bool. -/
def Dev.flag (d : Dev) (f : Fld) (inst : Nat) : Bool := d.fld f inst == 1

/-- Set a field in one instance. -/
def Dev.setFld (d : Dev) (f : Fld) (inst v : Nat) : Dev :=
  { d with regs := tblPut d.regs (fldKey f inst) ⟨v % 2 ^ f.w, inst, f.kept⟩ }

/-- Set a one-bit field. -/
def Dev.setFlag (d : Dev) (f : Fld) (inst : Nat) (b : Bool) : Dev := d.setFld f inst (b2n b)

/-- Add to a field that saturates. -/
def Dev.bumpFld (d : Dev) (f : Fld) (inst n : Nat) : Dev := d.setFld f inst (satAdd f.w (d.fld f inst) n)

/-- Return to their reset values the fields of a class that the reset kind resets, in the instances that its
scope covers (R14, R15). Device-wide items, of class C or W, are reset by cold and warm reset only. -/
def Dev.resetRegs (d : Dev) (k : ResetKind) (covers : Kept → Nat → Bool) : Dev :=
  { d with regs := d.regs.filter (fun e => !(e.2.kept.level ≤ k.level && covers e.2.kept e.2.inst)) }

end Sys2Proof.Machine
end

