-- ==== Sys2Proof/Machine/Ops.lean ====
section
/-! DEFINITION. The operations that every chapter shares: outputs, stamps, Tally counts, fault records, the
device's PCIe requests, and the completions of commands. -/

namespace Sys2Proof.Machine

/-! ### Outputs and free values -/

/-- Give an output. -/
def Dev.emit (d : Dev) (o : Out) : Dev := { d with out := o :: d.out }

/-- A fresh free value: nothing constrains it (DESIGN CHOICE, log 3). -/
def Dev.fresh (d : Dev) : W64 × Dev := (Config.freeWord d.freeCtr, { d with freeCtr := d.freeCtr + 1 })

/-! ### Ring and stamps (R32, R33) -/

/-- NS of Ring. -/
def Dev.ns (d : Dev) : W64 := (d.ring.acc >>> 32).truncate 64

/-- FRAC of Ring: the upper 16 of the 32 fraction bits (R35). -/
def Dev.frac (d : Dev) : BitVec 16 := (d.ring.acc >>> 16).truncate 16

/-- The record stamp of this instant (R33): NS[63:0]. -/
def Dev.stamp (d : Dev) : W64 := d.ns

/-- The node ID of the device. -/
def Dev.node (d : Dev) : Nat := d.fld F.SKD_NODE_NODE 0

/-! ### Tally (R437 to R440) -/

/-- TLY_PAIR bit of an even counter. -/
def Dev.paired (d : Dev) (ev : Nat) : Bool := bit (d.fld (F.TLY_PAIR_V (ev / 64)) 0) (ev / 2 % 32)

/-- The event numbers that Table 15.5 assigns. -/
def assignedEvent (ev : Nat) : Bool :=
  ev < 4 || (0x010 ≤ ev && ev < 0x01D) || (0x080 ≤ ev && ev < 0x100 && ev % 32 < 5) ||
  (0x100 ≤ ev && ev < 0x200 && ev % 8 < 3) || (0x580 ≤ ev && ev < 0x5A0) || (0x600 ≤ ev && ev < 0x606) ||
  (0x700 ≤ ev && ev < 0x703) || ev == 0x7C0

/-- The count of an event number in a table of counts: a number that chapter 15 does not assign shows the
item that this stepping assigns to it, or 0 (R437, DESIGN CHOICE, log 11). An odd counter that is or was paired shows its
own carries. -/
def countIn (counts : Tbl Nat) (ev : Nat) : Nat :=
  if assignedEvent ev then tblGetD counts ev 0
  else match tblGet counts ev with
    | some v => v
    | none => match Config.eventItem ev with
      | some k => tblGetD counts (4096 + k) 0
      | none => 0

/-- Add to one counter, modulo 2^48, and the carries out. -/
def Tally.add (t : Tally) (ev n : Nat) : Tally × Nat :=
  let v := tblGetD t.counts ev 0 + n
  ({ t with counts := tblPut t.counts ev (v % 2 ^ 48) }, v / 2 ^ 48)

/-- Count an event `n` times (R437, R438). An odd counter that is paired counts only the carries of its even
one. Items from 4,096 on are counted events to which chapter 15 gives no number (DESIGN CHOICE, log 11): the number by which
TLY_SEL finds them is open. -/
def Dev.countN (d : Dev) (ev n : Nat) : Dev :=
  if n = 0 then d
  else if ev ≥ 2048 then { d with tally := (d.tally.add ev n).1 }
  else if ev % 2 = 1 && d.paired (ev - 1) then d
  else
    let r := d.tally.add ev n
    if ev % 2 = 0 && d.paired ev && r.2 > 0 then { d with tally := (r.1.add (ev + 1) r.2).1 }
    else { d with tally := r.1 }

/-- Count an event once. -/
def Dev.count (d : Dev) (ev : Nat) : Dev := d.countN ev 1

/-! ### Records (R435) -/

/-- Take the next sequence number of a record source. -/
def Dev.nextSeq (d : Dev) (type src : Nat) : Nat × Dev :=
  let k := type * 65536 + src
  let n := tblGetD d.flt.seqs k 0
  (n, { d with flt := { d.flt with seqs := tblPut d.flt.seqs k ((n + 1) % 2 ^ 32) } })

/-- Queue a record for the telemetry stream when its type is enabled (R443). -/
def Dev.stream (d : Dev) (type src seq : Nat) (body : List Byte) : Dev :=
  if d.flag F.TLY_TEL_CTRL_EN 0 && bit (d.fld F.TLY_TEL_CTRL_MASK 0) (type - 1) then
    { d with tel := { d.tel with queue := d.tel.queue ++
        [⟨type, src, seq, false, d.ring.state.code, d.stamp, body⟩] } }
  else d

/-- Write a record of a type and source: it takes its sequence number whether it is delivered or not. -/
def Dev.record (d : Dev) (type src : Nat) (body : List Byte) : Dev :=
  let s := d.nextSeq type src
  s.2.stream type src s.1 body

/-- The 32 B body of a fault record (Table 15.3). -/
def FaultRec.body (r : FaultRec) : List Byte :=
  le 1 r.cls.code ++ le 1 r.code ++ le 2 r.unit ++ le 4 r.count ++ le 8 r.addr ++
  le 16 (Config.faultInfo r.src r.seq)

/-- The 64 B of a fault record (Table 15.2). -/
def FaultRec.bytes (r : FaultRec) : List Byte :=
  le 2 0x0100 ++ le 1 1 ++ le 1 (r.ringState + 4 * b2n r.forced) ++ le 2 r.node ++ le 2 r.src ++ le 4 r.seq ++
  le 4 0 ++ le 8 r.stamp.toNat ++ le 8 0 ++ r.body

/-! ### Ports and functions -/

/-- A function that was never configured: nothing enabled, the defaults of the specification (PRESUMED, log 55). -/
def Fn.init : Fn :=
  { bme := false, wasReset := false, d3Saved := none, tagBits := 8, ctoEnc := 0, maxPayload := 128, maxRead := 512,
    relaxed := true, ats := false, aer := [], abandoned := [], heldReads := [], heldWrites := [] }

/-- A port whose link is down. -/
def Port.init : Port :=
  { up := false, speed := 0, width := 0, flit := false, pf0 := Fn.init, tenant := Fn.init, slots := [],
    gens := [], waiting := [], atc := [], invals := [] }

/-- A port of the device. -/
def Dev.port (d : Dev) (p : Nat) : Port := tblGetD d.ports p Port.init

/-- Change a port. -/
def Dev.modPort (d : Dev) (p : Nat) (f : Port → Port) : Dev :=
  { d with ports := tblPut d.ports p (f (d.port p)) }

/-- A function of a port. -/
def Port.fn (p : Port) : FnKind → Fn
  | .pf0 => p.pf0
  | .tenant => p.tenant

/-- The completion timeout of a function in microseconds (Table 8.7): the upper bound of the range that Device Control 2
selects. -/
def Fn.timeoutUs (f : Fn) : Nat :=
  match f.ctoEnc with
  | 0b0001#4 => 100
  | 0b0010#4 => 10000
  | 0b0101#4 => 55000
  | 0b0110#4 => 210000
  | 0b1001#4 => 900000
  | 0b1010#4 => 3500000
  | 0b1101#4 => 13000000
  | 0b1110#4 => 64000000
  | _ => 50000

/-- Change a function of a port. -/
def Port.modFn (p : Port) (k : FnKind) (f : Fn → Fn) : Port :=
  match k with
  | .pf0 => { p with pf0 := f p.pf0 }
  | .tenant => { p with tenant := f p.tenant }

/-- Requests of the function may leave the port: link up, Bus Master Enable 1 and not in D3hot. -/
def Dev.canIssue (d : Dev) (p : Nat) (k : FnKind) : Bool :=
  (d.port p).up && ((d.port p).fn k).bme && ((d.port p).fn k).d3Saved.isNone

/-- A fatal fault stands (R429). -/
def Dev.fatal (d : Dev) : Bool := d.flag F.FLT_SUMMARY_FATAL 0

/-- Log an AER error of a function. -/
def Dev.aerLog (d : Dev) (p : Nat) (k : FnKind) (e : Aer) : Dev :=
  (d.modPort p (fun q => q.modFn k (fun f => { f with aer := f.aer ++ [e] }))).emit (.aer p k e)

/-- A poisoned TLP received (R269). -/
def Dev.poisonedTlp (d : Dev) (p : Nat) (kind : FnKind) : Dev :=
  ((d.bumpFld (F.EPX_ERR2_POISON p) 0 1).count (0x082 + 32 * p)).aerLog p kind .poisonedTlp

/-- Raise an MSI-X vector of a function; a function that cannot issue requests receives no interrupt
(R434). -/
def Dev.msix (d : Dev) (p : Nat) (k : FnKind) (v : Nat) : Dev :=
  if d.canIssue p k then d.emit (.msix p k v) else d

/-! ### Faults (R428 to R436) -/

/-- The FLT_IRQ enable of a class. -/
def irqFld : FClass → Fld
  | .corrected => F.FLT_IRQ_CE
  | .contained => F.FLT_IRQ_CONT
  | .fatal => F.FLT_IRQ_FATAL

/-- Raise the interrupts of a record (R434). -/
def Dev.fltIrq (d : Dev) (cls : FClass) : Dev :=
  [0, 1, 2, 3].foldl (fun d p =>
    if d.flag (irqFld cls) p then d.msix p .pf0 (d.fld F.FLT_IRQ_VECTOR p) else d) d

/-- Put a record into the fault log (R436). -/
def Flt.push (f : Flt) (r : FaultRec) : Flt :=
  { f with log := ((f.next, r) :: f.log).take 4096, next := (f.next + 1) % 2 ^ 32 }

/-- What a fatal fault does at once (R429): FATAL is set and every running or stopping plan fails. -/
def Dev.fatalStop (d : Dev) : Dev :=
  let d := d.setFlag F.FLT_SUMMARY_FATAL 0 true
  let d : Dev := { d with cord := { d.cord with failed := d.cord.failed || d.cord.phase != .idle } }
  { d with mill := { d.mill with plans := tblMap d.mill.plans (fun _ p =>
      if p.state = .running ∨ p.state = .stopping then
        { p with state := .failed, armed := false, scal := none, startX := none,
                 fail := some ⟨0, 0, 0, p.step, (p.streams.map (·.phase)).foldl max 0, p.begun, p.applied,
                   p.skipped, 0, 0, d.stamp⟩ }
      else p) } }

/-- Raise a fault event (R431 to R436): the collector's bit, the record in the log and in the stream, FAULT_N,
the interrupts, and for a fatal event R429. -/
def Dev.faultN (d : Dev) (src : Nat) (cls : FClass) (code unit count addr : Nat) (forced : Bool) : Dev :=
  let s := d.nextSeq 1 src
  let d := s.2
  let r : FaultRec := ⟨src, cls, code, unit, count, addr, forced, d.ring.state.code, d.node, s.1, d.stamp⟩
  let lost := d.flt.log.length ≥ 4096
  let bits := if cls = .corrected then F.FLT_CE_V else F.FLT_STATUS_V
  let d := d.setFld bits 0 (d.fld bits 0 ||| 2 ^ src)
  let d := d.bumpFld F.FLT_SUMMARY_RECORDS 0 1
  let d := if lost then d.bumpFld F.FLT_LOG_LOST_COUNT 0 1 else d
  let d := { d with flt := { d.flt.push r with pulse := d.flt.pulse || cls != FClass.corrected } }
  let d := (d.fltIrq cls).stream 1 src s.1 r.body
  if cls = .fatal then d.fatalStop else d

/-- Raise one real fault event. -/
def Dev.fault (d : Dev) (src : Nat) (cls : FClass) (code unit addr : Nat) : Dev :=
  d.faultN src cls code unit 1 addr false

/-- Raise one real fault event whose rule states no CODE (DESIGN CHOICE, log 10). -/
def Dev.faultOpen (d : Dev) (src : Nat) (cls : FClass) (unit addr : Nat) : Dev :=
  d.fault src cls (Config.openCode src % 256) unit addr

/-! ### Slices -/

/-- A slice that is not bound. -/
def Slice.init : Slice :=
  { state := .unbound, kind := .pf0, home := 0, ports := 0, pasidEn := false, pasid := 0, vecBase := 0,
    vecCount := 0, qpQuota := 0, cellQuota := 0, share := 0, pages := 0, nvq := 0, windows := [],
    forced := false, owner := none }

/-- A slice of the device. -/
def Dev.slice (d : Dev) (s : Nat) : Slice := tblGetD d.slices s Slice.init

/-- Change a slice. -/
def Dev.modSlice (d : Dev) (s : Nat) (f : Slice → Slice) : Dev :=
  { d with slices := tblPut d.slices s (f (d.slice s)) }

/-- PF0 of a port manages a slice (R277): the slice is bound and its home port is that port. -/
def Dev.manages (d : Dev) (port s : Nat) : Bool := (d.slice s).state != .unbound && (d.slice s).home = port

/-- A request of a slice passes its DMA windows (R261). -/
def Slice.dmaOk (s : Slice) (port addr len : Nat) (write : Bool) : Bool :=
  s.windows.any (fun w => w.2.en && w.2.port = port && w.2.base ≤ addr && addr + len ≤ w.2.base + w.2.size &&
    (if write then w.2.write else w.2.read))

/-- The slice's function works on a port: in its mask, the link up and Bus Master Enable set. -/
def Dev.sliceOn (d : Dev) (s port : Nat) : Bool :=
  (d.slice s).ports.getLsbD port && d.canIssue port (d.slice s).kind

/-- The page of a slice stands on a port of its mask (R255); on a port other than its home not from a reset of the function
there until the function can issue requests again (R276). -/
def Dev.pageOn (d : Dev) (s port : Nat) : Bool :=
  (d.slice s).ports.getLsbD port && ((d.slice s).home == port || !((d.port port).fn (d.slice s).kind).wasReset)

/-! ### Requests the device issues (R260 to R265, R273, R429) -/

/-- After a fatal fault only the lead's own requests leave the device (R429). -/
def Dev.fatalAllows (d : Dev) (slice : Option Nat) (kind : FnKind) : Bool :=
  !d.fatal || (slice.isNone && kind == .pf0)

/-- Cut a range at 4 KiB boundaries into pieces of at most `max` bytes, and at granule boundaries when `gran`
(R264, R270). -/
def pieces (max : Nat) (gran : Bool) : Nat → Nat → Nat → List (Nat × Nat)
  | 0, _, _ => []
  | fuel + 1, addr, len =>
    if len = 0 then []
    else
      let lim := if gran then min max (64 - addr % 64) else max
      let n := Nat.max 1 (min len (min lim (4096 - addr % 4096)))
      (addr, n) :: pieces max gran fuel (addr + n) (len - n)

/-- Keep the translation cache of a port when ATS is enabled (R262): an address of a page not held sends a
translation request, and the page is kept; at most 8,192 entries, the oldest leaving first. -/
def Dev.atcUse (d : Dev) (port : Nat) (kind : FnKind) (pasid : Option Nat) (addr : Nat) : Dev :=
  let q := d.port port
  let e := (kind, pasid, addr / 4096)
  if !(q.fn kind).ats || q.atc.contains e then d
  else (d.modPort port (fun q => { q with atc := (e :: q.atc).take 8192 })).emit
    (.ats port kind pasid (addr / 4096))

/-- The PASID of the requests of a slice, or of the device. -/
def Dev.pasidOf (d : Dev) : Option Nat → Option Nat
  | some s => if (d.slice s).pasidEn then some (d.slice s).pasid else none
  | none => none

/-- The posted writes of a transfer: split by R264 and, where granules are poisoned, by R270. -/
def Dma.split (w : Dma) (max : Nat) : List Dma :=
  let gran := w.poison.any (fun b => b)
  (pieces max gran (w.bytes.length + 1) w.addr w.bytes.length).map (fun e =>
    { w with addr := e.1, bytes := (w.bytes.drop (e.1 - w.addr)).take e.2,
             poison := if gran then [w.poison.getD (e.1 / 64 - w.addr / 64) false] else [] })

/-- Send the writes of a transfer. -/
def Dev.sendDma (d : Dev) (w : Dma) : Dev :=
  (w.split ((d.port w.port).fn w.kind).maxPayload).foldl
    (fun d p => (d.atcUse p.port p.kind p.pasid p.addr).emit (.dma p)) d

/-- Write to host or accelerator memory. A write of a function that cannot issue is held (R273). -/
def Dev.dma (d : Dev) (w : Dma) : Dev :=
  if !d.fatalAllows w.slice w.kind then d
  else if d.canIssue w.port w.kind then d.sendDma w
  else d.modPort w.port (fun p => p.modFn w.kind (fun f => { f with heldWrites := f.heldWrites ++ [w] }))

/-- A write of the device itself, with PF0's requester ID (R260). -/
def Dev.dmaOwn (d : Dev) (port addr : Nat) (bs : List Byte) : Dev :=
  d.dma ⟨port, .pf0, none, none, addr, bs, [], false⟩

/-- A write for a slice; the caller checked its windows. -/
def Dev.dmaSlice (d : Dev) (s port addr : Nat) (bs : List Byte) (poison : List Bool) (relaxed : Bool) : Dev :=
  let sl := d.slice s
  d.dma ⟨port, sl.kind, some s, d.pasidOf (some s), addr, bs, poison,
    relaxed && ((d.port port).fn sl.kind).relaxed⟩

/-- Read slots usable with a tag width (R265). -/
def usableSlots (tagBits : Nat) : Nat := if tagBits = 14 then 4096 else if tagBits = 10 then 768 else 256

/-- The reserve R of a port (R265). -/
def Dev.slotReserve (d : Dev) (p : Nat) : Nat :=
  let q := d.port p
  min (min (d.fld F.EPX_TAGCFG_RSV 0) 1024)
    (min (usableSlots q.pf0.tagBits) (usableSlots q.tenant.tagBits) / 2)

/-- The tag of a slot and generation (R265). -/
def slotTag (tagBits slot gen : Nat) : Nat :=
  if tagBits = 14 then slot + gen * 4096 else if tagBits = 10 then slot + 256 else slot

/-- The lowest free slot that a request may use. -/
def Dev.freeSlot (d : Dev) (r : ReadReq) : Option Nat :=
  let q := d.port r.port
  let lo := if r.slice.isNone then 0 else d.slotReserve r.port
  let hi := if r.slice.isNone then d.slotReserve r.port else usableSlots ((q.fn r.kind).tagBits)
  ((List.range (hi - lo)).map (· + lo)).find? (fun k => (tblGet q.slots k).isNone)

/-- Put a request into a slot: the slot's generation advances modulo 4 (R265). -/
def Dev.occupy (d : Dev) (r : ReadReq) (slot : Nat) : Dev :=
  let q := d.port r.port
  let gen := match tblGet q.gens slot with
    | some g => (g + 1) % 4
    | none => 0
  let tag := slotTag (q.fn r.kind).tagBits slot gen
  let d := d.modPort r.port (fun q => { q with slots := tblPut q.slots slot (.out r 0 tag), gens := tblPut q.gens slot gen })
  d.emit (.read r tag (q.fn r.kind).timeoutUs)

/-- Put one read of at most 512 B into a slot; without a usable slot it waits (R265). -/
def Dev.issueOne (d : Dev) (r : ReadReq) : Dev :=
  let d := d.atcUse r.port r.kind (d.pasidOf r.slice) r.addr
  match d.freeSlot r with
  | some k => d.occupy r k
  | none => d.modPort r.port (fun q => { q with waiting := q.waiting ++ [r] })

/-- The reads of a transfer (R264); a zero-length read stays one. -/
def Dev.splitRead (d : Dev) (r : ReadReq) : List ReadReq :=
  if r.len = 0 then [r]
  else (pieces (min 512 ((d.port r.port).fn r.kind).maxRead) false (r.len + 1) r.addr r.len).map
    (fun e => { r with addr := e.1, len := e.2 })

/-- Issue a read; a function that cannot issue holds it (R273). -/
def Dev.issue (d : Dev) (r : ReadReq) : Dev :=
  if !d.fatalAllows r.slice r.kind then d
  else if !d.canIssue r.port r.kind then
    d.modPort r.port (fun q => q.modFn r.kind (fun f => { f with heldReads := f.heldReads ++ [r] }))
  else (d.splitRead r).foldl Dev.issueOne d

/-- A function keeps a read of an initiator back: held before it was issued, or abandoned (R273). -/
def Dev.readHeld (d : Dev) (i : Initiator) : Bool :=
  d.ports.any (fun e => [e.2.pf0, e.2.tenant].any (fun f => (f.abandoned ++ f.heldReads).any (fun r => r.ini == i)))

/-- A read for a slice. -/
def Dev.readSlice (d : Dev) (s port : Nat) (ini : Initiator) (addr len : Nat) : Dev :=
  d.issue ⟨port, (d.slice s).kind, some s, ini, addr, len, none⟩

/-- An AtomicOp for a slice. -/
def Dev.atomicSlice (d : Dev) (s port : Nat) (addr : Nat) (op : PcieAtomic) : Dev :=
  d.issue ⟨port, (d.slice s).kind, some s, .buffer, addr, 8, some op⟩

/-- A read of the device itself. -/
def Dev.readOwn (d : Dev) (port : Nat) (ini : Initiator) (addr len : Nat) : Dev :=
  d.issue ⟨port, .pf0, none, ini, addr, len, none⟩

/-! ### Status codes (Tables 0.7, 4.13, 12.7) -/

def stOk : Nat := 0x0000
def stDeferred : Nat := 0x0001
def stSpill : Nat := 0x0002
def stBusy : Nat := 0x0100
def stNotLead : Nat := 0x0101
def stVersion : Nat := 0x0102
def stBadSig : Nat := 0x0103
def stRefused : Nat := 0x0104
def stExhausted : Nat := 0x0105
def rsBadOpcode : Nat := 0x8001
def rsBadField : Nat := 0x8002
def rsNotPermitted : Nat := 0x8003
def rsWrongState : Nat := 0x8004
def rsEmergency : Nat := 0x8005
def rsFetchFailed : Nat := 0x8006

/-! ### Command rings and completions (R373 to R376, R383, R384) -/

end Sys2Proof.Machine
end

