-- ==== Sys2Proof/Machine/Command.lean ====
section
/-! DEFINITION. How a command of Table 12.8 runs: the checks common to all commands, its completion, and the
final completion of a deferred one (R371 to R376, R383, R384). -/

namespace Sys2Proof

/-- The number of an issuer in the tables of the Scaler. -/
def Issuer.key : Issuer → Nat
  | .pf0 p => p % 4
  | .mbox p => 4 + p % 4
  | .side d => 8 + d.num
  | .page s => 16 + s

/-- The PF0 of a mailbox and of a queue is one issuer of agreements: each PF0, page and sideband endpoint
(R376). -/
def Issuer.agreeKey : Issuer → Nat
  | .mbox p => p % 4
  | i => i.key

/-- The paths of commands, as the By column of Table 12.8 names them. -/
inductive CmdPath where
  | m
  | s
  | b
  deriving DecidableEq, Repr

/-- The path of an issuer. -/
def Issuer.path : Issuer → CmdPath
  | .pf0 _ => .m
  | .mbox _ => .m
  | .page _ => .s
  | .side _ => .b

/-- The slice a command acts on: the page's on path S, the entry's otherwise (R373). -/
def Cmd.target (c : Cmd) : Nat :=
  match c.iss with
  | .page s => s
  | _ => c.slice

/-- The port of an issuing manager function; none on other paths. -/
def Cmd.mgrPort (c : Cmd) : Option Nat :=
  match c.iss with
  | .pf0 p => some p
  | .mbox p => some p
  | _ => none

end Sys2Proof

namespace Sys2Proof.Machine

/-- A pair of rings never enabled. -/
def CmdRing.init : CmdRing := { gen := 0, fetchPos := 0, writePos := 0, waiting := [], held := [] }

/-- The rings of an issuer. -/
def Dev.cmdRing (d : Dev) (i : Issuer) : CmdRing := tblGetD d.scaler.rings i.key CmdRing.init

/-- Change the rings of an issuer. -/
def Dev.setCmdRing (d : Dev) (i : Issuer) (r : CmdRing) : Dev :=
  { d with scaler := { d.scaler with rings := tblPut d.scaler.rings i.key r } }

/-- EN of an issuer's rings. -/
def Dev.ringEn (d : Dev) : Issuer → Bool
  | .pf0 p => d.flag F.SCL_SQ_CTRL_EN p
  | .page s => d.flag F.PG_SQ_CTRL_EN s
  | _ => false

/-- The depth of an issuer's rings: 2^LOG2, LOG2 6 to 12, other values act as 6 (R383). -/
def Dev.ringDepth (d : Dev) (i : Issuer) : Nat :=
  let l := match i with
    | .pf0 p => d.fld F.SCL_SQ_CTRL_LOG2 p
    | .page s => d.fld F.PG_SQ_CTRL_LOG2 s
    | _ => 6
  2 ^ (if 6 ≤ l ∧ l ≤ 12 then l else 6)

/-- The consumer index of an issuer's completion ring. -/
def Dev.ringHead (d : Dev) : Issuer → Nat
  | .pf0 p => d.fld F.SCL_CQ_HEAD_HEAD p
  | .page s => d.fld F.PG_CQ_HEAD_HEAD s
  | _ => 0

/-- The producer index of an issuer's submission ring. -/
def Dev.ringTail (d : Dev) : Issuer → Nat
  | .pf0 p => d.fld F.SCL_SQ_TAIL_TAIL p
  | .page s => d.fld F.PG_SQ_TAIL_TAIL s
  | _ => 0

/-- Completions that host software has not consumed. -/
def Dev.unconsumed (d : Dev) (i : Issuer) : Nat := ((d.cmdRing i).writePos + 65536 - d.ringHead i) % 65536

/-- The phase of a ring position: 1 on the first pass, inverted per pass (Table 12.6). -/
def phaseAt (pos depth : Nat) : Bool := pos / depth % 2 == 0

/-- The function and vector of an issuer's interrupt (R383, R384). -/
def Dev.ringIrq (d : Dev) (i : Issuer) : Dev :=
  match i with
  | .pf0 p => d.msix p .pf0 (d.fld F.SCL_SQ_CTRL_VECTOR p)
  | .page s =>
    let sl := d.slice s
    let v := d.fld F.PG_SQ_CTRL_VECTOR s
    if v < sl.vecCount then d.msix sl.home sl.kind (sl.vecBase + v) else d
  | _ => d

/-- The completion ring of an issuer can be written: its function issues requests, and after a fatal fault
only the device's own requests leave (R273, R429). -/
def Dev.ringReach (d : Dev) : Issuer → Bool
  | .pf0 p => d.canIssue p .pf0
  | .page s => d.canIssue (d.slice s).home (d.slice s).kind && !d.fatal
  | _ => true

/-- Write a completion to the ring of its issuer, with the phase of its position, and raise its interrupt. -/
def Dev.writeCpl (d : Dev) (i : Issuer) (c : Cpl) (noIrq : Bool) : Dev :=
  let r := d.cmdRing i
  let n := d.ringDepth i
  let d := (d.emit (.completion i (r.writePos % n) (phaseAt r.writePos n) c d.stamp)).setCmdRing i
    { r with writePos := r.writePos + 1 }
  if noIrq then d else d.ringIrq i

/-- A completion of the issuer can be written now: at most depth − 1 unconsumed, and the ring reachable. -/
def Dev.roomFor (d : Dev) (i : Issuer) : Bool := d.unconsumed i < d.ringDepth i - 1 && d.ringReach i

/-- Put a completion into the ring in order, or hold it (R373). -/
def Dev.postRing (d : Dev) (i : Issuer) (c : Cpl) (noIrq : Bool) : Dev :=
  let r := d.cmdRing i
  if r.held.isEmpty && d.roomFor i then d.writeCpl i c noIrq
  else d.setCmdRing i { r with held := r.held ++ [(c, noIrq)] }

/-- Write held completions while there is room (R373). -/
def Dev.releaseHeld (d : Dev) (i : Issuer) : Nat → Dev
  | 0 => d
  | n + 1 =>
    let r := d.cmdRing i
    match r.held with
    | [] => d
    | (c, q) :: rest =>
      if d.roomFor i then ((d.setCmdRing i { r with held := rest }).writeCpl i c q).releaseHeld i n else d

/-- The 64 B of a completion entry (Table 12.6). -/
def Cpl.bytes (c : Cpl) (phase : Bool) (stamp : W64) : List Byte :=
  le 2 0x0700 ++ le 2 c.opcode ++ le 2 c.tag.toNat ++ le 2 c.status ++ le 2 c.reason ++
  le 1 (b2n phase + 2 * b2n c.final) ++ zeros 5 ++ (c.result ++ zeros 40).take 40 ++ le 8 stamp.toNat

/-- Write the sixteen words of a mailbox. -/
def Dev.putMbox (d : Dev) (p : Nat) (bs : List Byte) : Dev :=
  (List.range 16).foldl (fun d i => d.setFld (F.SCL_MBOX_DATA i) p (fieldAt bs (4 * i) 4)) d

/-- Write a completion to its issuer (R373, R375, R383): to a ring that stayed enabled since the fetch, to the
mailbox words, or as the answer of a sideband endpoint. A mailbox keeps GO until its final completion. -/
def Dev.deliver (d : Dev) (o : Owner) (c : Cpl) : Dev :=
  match o.iss with
  | .side _ => d.emit (.completion o.iss 0 true c d.stamp)
  | .mbox p =>
    if (d.cmdRing o.iss).gen = o.gen then
      let d := (d.putMbox p (c.bytes true d.stamp)).emit (.completion o.iss 0 true c d.stamp)
      if c.final then d.setFlag F.SCL_MBOX_CTRL_GO p false else d
    else d
  | i => if d.ringEn i && (d.cmdRing i).gen = o.gen then d.postRing i c o.noIrq else d

/-- A completion may be written for this command (R375): what it names may be reported too. -/
def Dev.owed (d : Dev) (o : Owner) : Bool :=
  match o.iss with
  | .side _ => true
  | .mbox _ => (d.cmdRing o.iss).gen = o.gen
  | i => d.ringEn i && (d.cmdRing i).gen = o.gen

/-- The final completion of a command. -/
def Dev.finish (d : Dev) (o : Owner) (status reason : Nat) (result : List Byte) : Dev :=
  d.deliver o ⟨o.opcode, o.tag, status, reason, true, result⟩

/-- The version an issuer agreed for an interface (R376). -/
def Dev.agreedVer (d : Dev) (i : Issuer) (iface : Nat) : Option (BitVec 16) :=
  tblGet d.scaler.agreed (i.agreeKey * 16 + iface)

/-- The opcodes of Table 12.8. -/
def opcodes : List Nat :=
  [0x0001, 0x0002, 0x0101, 0x0102, 0x0103, 0x0104, 0x0105, 0x0106, 0x0107, 0x0201, 0x0202, 0x0203, 0x0204, 0x0205, 0x0206, 0x0207,
   0x0301, 0x0302, 0x0303, 0x0304, 0x0305, 0x0306, 0x0307, 0x0308, 0x0309, 0x030A, 0x0401, 0x0402, 0x0501, 0x0502, 0x0503, 0x0504,
   0x0505, 0x0601, 0x0602, 0x0603, 0x0604, 0x0701, 0x0702, 0x0703, 0x0704, 0x0801, 0x0802, 0x0803, 0x0804, 0x0805, 0x0806]

/-- The commands that the lead accepts in W3 (R415). -/
def w3Opcodes : List Nat := [0x0001, 0x0002, 0x0107, 0x0207, 0x0804, 0x0601, 0x0602]

/-- Complete the entries at the front of the waiting list that run no command: an entry that could not be read intact
(R373) with REFUSED, FETCH_FAILED, the ring index in RESULT and a contained fault of the port's PCIe source; an entry of an
unknown opcode (Table 12.7) with REFUSED, BAD_OPCODE, or VERSION_MISMATCH before the issuer agreed the command interface
(R376). No entry starts while depth − 1 completions are unconsumed or completions are held (R373), or while a function keeps
the fetch of an entry back (R273). -/
def Dev.pump (d : Dev) (i : Issuer) : Nat → Dev
  | 0 => d
  | n + 1 =>
    let r := d.cmdRing i
    if !r.held.isEmpty || d.unconsumed i ≥ d.ringDepth i - 1 || d.readHeld (.cmdRing i) then d
    else match r.waiting with
    | ⟨k, .failed⟩ :: rest =>
      let d := d.setCmdRing i { r with waiting := rest }
      let d := d.deliver ⟨i, 0, 0xFFFF, false, r.gen⟩ ⟨0, 0xFFFF, stRefused, rsFetchFailed, true, le 2 k⟩
      let port := match i with
        | .pf0 p => p
        | .page s => (d.slice s).home
        | _ => 0
      (d.fault (20 + port) .contained 5 port k).pump i n
    | ⟨_, .entry op tag flags⟩ :: rest =>
      if opcodes.contains op.toNat then d
      else
        let d := d.setCmdRing i { r with waiting := rest }
        let o : Owner := ⟨i, op.toNat, tag, flags.getLsbD 0, r.gen⟩
        let c : Cpl := if (d.agreedVer i 1).isNone then ⟨op.toNat, tag, stVersion, 0, true, []⟩
          else ⟨op.toNat, tag, stRefused, rsBadOpcode, true, []⟩
        (d.deliver o c).pump i n
    | [] => d

/-- A command that is held without a completion, since its work waits for the zeroing of the pool (R167). No status code. -/
def stHeld : Nat := 0x10000

/-- The answer of a command's own rules. -/
structure Reply where
  dev : Dev
  status : Nat
  reason : Nat
  result : List Byte
  deriving DecidableEq, Repr

/-- A command done. -/
def Reply.ok (d : Dev) (result : List Byte) : Reply := ⟨d, stOk, 0, result⟩
/-- A command refused: nothing changed. -/
def Reply.refuse (d : Dev) (reason : Nat) : Reply := ⟨d, stRefused, reason, []⟩
/-- A command deferred (R375). -/
def Reply.defer (d : Dev) : Reply := ⟨d, stDeferred, 0, []⟩
/-- Any status without effect. -/
def Reply.fail (d : Dev) (status reason : Nat) : Reply := ⟨d, status, reason, []⟩

/-- The checks common to all commands, in this order (DEDUCED, log 9): the agreed command interface (R376), reserved
fields (Table 12.5), the path (R373), BOOT_HOLD and the commands of a follower's endpoint (R371, R374), and W3 (R415). -/
def Dev.preCheck (d : Dev) (c : Cmd) (opcode : Nat) (by_ : List CmdPath) : Option (Nat × Nat × List Byte) :=
  let free : Bool := opcode == 1 || opcode == 2
  let onFollower := match c.iss with
    | .side die => die != d.scaler.lease.lead
    | _ => false
  if d.scaler.boot == .hold && !free then some (stRefused, rsWrongState, [])
  else if onFollower && !free then
    some (stNotLead, 0, le 1 d.scaler.lease.lead.num ++ zeros 3 ++ le 4 d.scaler.lease.epoch.toNat ++
      le 1 (Config.scalerEid d.scaler.lease.lead.num))
  else if !free && ((d.agreedVer c.iss 1).isNone || c.version != 0x0700) then some (stVersion, 0, [])
  else if c.flags.toNat ≥ 2 || (c.slice ≥ 512 && c.iss.path != CmdPath.s) then some (stRefused, rsBadField, [])
  else if c.iss.path ∉ by_ then some (stRefused, rsNotPermitted, [])
  else if d.pwr.state = 3 && !w3Opcodes.contains opcode then some (stRefused, rsWrongState, [])
  else none

/-- The owner of a command: the generation is that of its ring at the fetch, or now. -/
def Dev.ownerOf (d : Dev) (c : Cmd) (opcode : Nat) : Owner :=
  ⟨c.iss, opcode, c.tag, c.flags.getLsbD 0, (d.cmdRing c.iss).gen⟩

/-- Take the entry of a command from the front of its ring's waiting list, if it stands there. -/
def Dev.takeEntry (d : Dev) (c : Cmd) (opcode : Nat) : Dev :=
  let r := d.cmdRing c.iss
  match r.waiting with
  | ⟨_, .entry op tag _⟩ :: rest =>
    if op.toNat = opcode ∧ tag = c.tag then d.setCmdRing c.iss { r with waiting := rest } else d
  | _ => d

/-- A Scaler serves the commands of an issuer: some Scaler acts as lead, and the device passed stage APPLY; in BOOT_HOLD
only Scaler W answers, on its sideband (R374, R449). -/
def Dev.serves (d : Dev) (i : Issuer) : Bool :=
  !d.scaler.lease.acting.isEmpty &&
  (d.scaler.boot == .hostWait || d.scaler.boot == .running || (d.scaler.boot == .hold && i == .side .west))

/-- Run a command: the common checks, then its own rules, then its completion, then the entries behind it
that cannot run. A command that no Scaler serves stays with the next lead, by its journal (R368, R372). Nothing starts while a
function keeps the fetch of an entry back (R273). -/
def Dev.command (d : Dev) (c : Cmd) (opcode : Nat) (by_ : List CmdPath) (body : Owner → Dev → Reply) : Dev :=
  let o := d.ownerOf c opcode
  if d.readHeld (.cmdRing c.iss) then d else
  let d := d.takeEntry c opcode
  if !d.serves c.iss then
    if d.scaler.boot = .hostWait ∨ d.scaler.boot = .running then
      { d with scaler := { d.scaler with journal := d.scaler.journal ++ [⟨o, none⟩] } }
    else d
  else
    let r : Reply := match d.preCheck c opcode by_ with
      | some (st, rs, res) => ⟨d, st, rs, res⟩
      | none => body o d
    let d := if r.status = stHeld then r.dev
      else r.dev.deliver o ⟨opcode, c.tag, r.status, r.reason, r.status != stDeferred, r.result⟩
    d.pump c.iss 4096

/-- Write a report that a command names, where its completion may be written (R375). -/
def Dev.report (d : Dev) (o : Owner) (addr : Nat) (bs : List Byte) : Dev :=
  if !d.owed o then d
  else match o.iss with
    | .pf0 p => d.dmaOwn p addr bs
    | .mbox p => d.dmaOwn p addr bs
    | .page s => d.dmaSlice s (d.slice s).home addr bs [] false
    | .side _ => d

end Sys2Proof.Machine
end

