-- ==== Sys2Proof/Machine/Crypto.lean ====
section
/-! DEFINITION. The published algorithms that the manual names: SHA-256, HMAC and HKDF-Expand, AES-256, GCM
and XTS (R360, R389, R393, R400, R405). -/

namespace Sys2Proof.Machine

/-! ### SHA-256 (FIPS 180-4) -/

/-- The primes below a bound that is less than 19 × 19. -/
def smallPrimes (top : Nat) : List Nat :=
  (List.range top).filter (fun n => 2 ≤ n && [2, 3, 5, 7, 11, 13, 17].all (fun k => n == k || n % k != 0))

/-- The first 32 bits of the fraction of the `e`-th root of `n`, for a root below 32: found bit by bit from the top. -/
def rootBits (e n : Nat) : BitVec 32 :=
  BitVec.ofNat 32 ((List.range 37).foldr (fun k r => if (r + 2 ^ k) ^ e ≤ n * 2 ^ (32 * e) then r + 2 ^ k else r) 0)

/-- The constants of FIPS 180-4 4.2.2, from the cube roots of the first 64 primes. -/
def shaK : List (BitVec 32) := (smallPrimes 312).map (rootBits 3)

/-- The initial hash value (5.3.3), from the square roots of the first eight. -/
def shaInit : List (BitVec 32) := (smallPrimes 20).map (rootBits 2)

/-- A big-endian number of bytes. -/
def unbe (bs : List Byte) : Nat := unle bs.reverse

/-- The `n` big-endian bytes of a number. -/
def be (n v : Nat) : List Byte := (le n v).reverse

/-- The sum of a word's rotations by some counts, and of a word given. -/
def rotSum (x : BitVec 32) (counts : List Nat) (z : BitVec 32) : BitVec 32 := counts.foldl (fun y k => x.rotateRight k ^^^ y) z

/-- The hash value while a block is worked on: the words that FIPS 180-4 calls a to d, and those that it calls e to h. A round
shifts each group by one word. -/
structure ShaHalves where
  lo : List (BitVec 32)
  hi : List (BitVec 32)
  deriving DecidableEq, Repr

/-- A round of 6.2.2 with the sum of its constant and its schedule word: a bit of e chooses between f and g, and the majority
of a, b and c enters. -/
def ShaHalves.round (s : ShaHalves) (kw : BitVec 32) : ShaHalves :=
  let lo := fun i => s.lo.getD i 0
  let hi := fun i => s.hi.getD i 0
  let common := kw + hi 3 + (hi 2 ^^^ (hi 0 &&& (hi 1 ^^^ hi 2))) + rotSum (hi 0) [25, 11, 6] 0
  ⟨(common + rotSum (lo 0) [22, 13, 2] 0 + ((lo 2 &&& (lo 0 ||| lo 1)) ||| (lo 0 &&& lo 1))) :: s.lo.take 3,
   (lo 3 + common) :: s.hi.take 3⟩

/-- The rounds of a block: `win` holds the next 16 words of the schedule, the oldest first, and slides by one each round. -/
def shaRounds : List (BitVec 32) → List (BitVec 32) → ShaHalves → ShaHalves
  | [], _, s => s
  | k :: ks, win, s =>
    let w := fun i => win.getD i 0
    let fresh := w 0 + w 9 + rotSum (w 1) [18, 7] (w 1 >>> 3) + rotSum (w 14) [19, 17] (w 14 >>> 10)
    shaRounds ks (win.drop 1 ++ [fresh]) (s.round (k + w 0))

/-- One 64 B block. -/
def shaBlock (h : List (BitVec 32)) (blk : List Byte) : List (BitVec 32) :=
  let words := (List.range 16).map (fun i => BitVec.ofNat 32 (unbe ((blk.drop (4 * i)).take 4)))
  let s := shaRounds shaK words ⟨h.take 4, h.drop 4⟩
  List.zipWith (· + ·) h (s.lo ++ s.hi)

/-- The blocks of a message. -/
def shaBlocks : Nat → List (BitVec 32) → List Byte → List (BitVec 32)
  | 0, h, _ => h
  | n + 1, h, m => shaBlocks n (shaBlock h (m.take 64)) (m.drop 64)

/-- SHA-256 as 32 bytes. -/
def sha256 (m : List Byte) : List Byte :=
  let z := (119 - m.length % 64) % 64
  let p := m ++ [0x80] ++ zeros z ++ be 8 (8 * m.length)
  ((shaBlocks (p.length / 64) shaInit p).map (fun w => be 4 w.toNat)).flatten

/-- A digest as a number, its first byte the most significant. -/
def digest (m : List Byte) : BitVec 256 := BitVec.ofNat 256 (unbe (sha256 m))

/-- HMAC-SHA-256. -/
def hmac (key m : List Byte) : List Byte :=
  let k := (if key.length > 64 then sha256 key else key)
  let k := k ++ zeros (64 - k.length)
  sha256 (k.map (· ^^^ 0x5c#8) ++ sha256 (k.map (· ^^^ 0x36#8) ++ m))

/-- The blocks T(i) of HKDF-Expand. -/
def hkdfBlocks (prk info : List Byte) : Nat → Nat → List Byte → List Byte
  | 0, _, _ => []
  | n + 1, i, prev =>
    let t := hmac prk (prev ++ info ++ [BitVec.ofNat 8 i])
    t ++ hkdfBlocks prk info n (i + 1) t

/-- HKDF-Expand with SHA-256 (RFC 5869). -/
def hkdfExpand (prk info : List Byte) (n : Nat) : List Byte := (hkdfBlocks prk info ((n + 31) / 32) 1 []).take n

/-- The bytes of a text of ASCII characters. -/
def ascii (s : String) : List Byte := s.toList.map (fun c => BitVec.ofNat 8 c.toNat)

/-! ### P-256 (FIPS 186-5, SP 800-186; its parameters PRESUMED, log 5) -/

/-- The prime of the field. -/
def p256Prime : Nat := 2 ^ 256 - 2 ^ 224 + 2 ^ 192 + 2 ^ 96 - 1

/-- The base point. -/
def p256Base : Nat × Nat :=
  (0x6B17D1F2E12C4247F8BCE6E563A440F277037D812DEB33A0F4A13945D898C296,
   0x4FE342E2FE1A7F9B8EE7EB4A7C0F9E162BCE33576B315ECECBB6406837BF51F5)

/-- `b ^ e` in the field, for an exponent of at most `n` bits. -/
def fieldPow : Nat → Nat → Nat → Nat
  | 0, _, _ => 1
  | n + 1, b, e =>
    let r := fieldPow n (b * b % p256Prime) (e / 2)
    if e % 2 = 1 then r * b % p256Prime else r

/-- The difference in the field. -/
def fieldSub (a b : Nat) : Nat := (a + p256Prime - b) % p256Prime

/-- The third point of the line of slope `num / den` through two points, mirrored. -/
def chord (num den : Nat) (p q : Nat × Nat) : Nat × Nat :=
  let s := num * fieldPow 256 den (p256Prime - 2) % p256Prime
  let x := fieldSub (fieldSub (s * s) p.1) q.1
  (x, fieldSub (s * fieldSub p.1 x) p.2)

/-- The sum of two points of the curve; none is the point at infinity. -/
def pointAdd : Option (Nat × Nat) → Option (Nat × Nat) → Option (Nat × Nat)
  | none, q => q
  | p, none => p
  | some p, some q =>
    if p.1 ≠ q.1 then some (chord (fieldSub q.2 p.2) (fieldSub q.1 p.1) p q)
    else if p.2 ≠ q.2 ∨ p.2 = 0 then none
    else some (chord (fieldSub (3 * p.1 * p.1) 3) (2 * p.2) p q)

/-- A multiple of a point by a scalar of at most `n` bits. -/
def pointMul : Nat → Nat → Option (Nat × Nat) → Option (Nat × Nat)
  | 0, _, _ => none
  | n + 1, k, p =>
    let r := pointMul n (k / 2) (pointAdd p p)
    if k % 2 = 1 then pointAdd p r else r

/-- The public key of a private scalar: x then y, big-endian. -/
def publicKey (k : Nat) : List Byte :=
  match pointMul 256 k (some p256Base) with
  | some p => be 32 p.1 ++ be 32 p.2
  | none => zeros 64

/-! ### AES-256 (FIPS 197) -/

/-- Multiplication by x in GF(2^8). -/
def xtime (b : Byte) : Byte := if b.getLsbD 7 then (b <<< 1) ^^^ 0x1b#8 else b <<< 1

/-- Multiplication in GF(2^8), by the low bits of the second factor. -/
def gmulAux : Nat → Byte → Byte → Byte
  | 0, _, _ => 0
  | n + 1, a, b => (if b.getLsbD 0 then a else 0) ^^^ gmulAux n (xtime a) (b >>> 1)

/-- Multiplication in GF(2^8). -/
def gmul (a b : Byte) : Byte := gmulAux 8 a b

/-- The inverse in GF(2^8), a^254. -/
def ginv (a : Byte) : Byte :=
  let a2 := gmul a a
  let a3 := gmul a2 a
  let a12 := let x := gmul a3 a3; gmul x x
  let a15 := gmul a12 a3
  let a240 := let x := gmul a15 a15; let y := gmul x x; let z := gmul y y; gmul z z
  gmul a240 (gmul a12 a2)

/-- The S-box. -/
def sbox (a : Byte) : Byte :=
  let b := ginv a
  b ^^^ b.rotateLeft 1 ^^^ b.rotateLeft 2 ^^^ b.rotateLeft 3 ^^^ b.rotateLeft 4 ^^^ 0x63#8

/-- The inverse S-box. -/
def invSbox (a : Byte) : Byte := ginv (a.rotateLeft 1 ^^^ a.rotateLeft 3 ^^^ a.rotateLeft 6 ^^^ 0x05#8)

/-- Byte-wise exclusive or. -/
def xorBytes (a b : List Byte) : List Byte := List.zipWith (· ^^^ ·) a b

/-- The key schedule: `n` more words after the eight before them; the newest word first. -/
def keyWords : Nat → Nat → Byte → List (List Byte) → List (List Byte)
  | 0, _, _, ws => ws
  | n + 1, i, rc, ws =>
    let t := ws.headD []
    let rot := t.drop 1 ++ t.take 1
    let r := if i % 8 = 0 then xorBytes (rot.map sbox) [rc, 0, 0, 0]
      else if i % 8 = 4 then t.map sbox else t
    keyWords n (i + 1) (if i % 8 = 0 then xtime rc else rc) (xorBytes (ws.getD 7 []) r :: ws)

/-- The fifteen round keys of a 32 B key. -/
def roundKeys (key : List Byte) : List (List Byte) :=
  let w := (List.range 8).map (fun i => (key.drop (4 * i)).take 4)
  let ws := (keyWords 52 8 1 w.reverse).reverse
  (List.range 15).map (fun i => ((ws.drop (4 * i)).take 4).flatten)

/-- ShiftRows. -/
def shiftRows (s : List Byte) : List Byte := (List.range 16).map (fun i => s.getD ((i + 4 * (i % 4)) % 16) 0)

/-- The inverse of ShiftRows. -/
def invShiftRows (s : List Byte) : List Byte := (List.range 16).map (fun i => s.getD ((i + 12 * (i % 4)) % 16) 0)

/-- A column times a circulant row. -/
def mixWith (row : List Byte) (s : List Byte) : List Byte :=
  (List.range 16).map (fun i =>
    (List.range 4).foldl (fun acc k =>
      acc ^^^ gmul (row.getD ((k + 4 - i % 4) % 4) 0) (s.getD (i / 4 * 4 + k) 0)) 0)

/-- AES-256 of one block. -/
def aesEnc (rk : List (List Byte)) (blk : List Byte) : List Byte :=
  let s := xorBytes blk (rk.headD [])
  let s := ((rk.drop 1).take 13).foldl (fun s k => xorBytes (mixWith [2, 3, 1, 1] (shiftRows (s.map sbox))) k) s
  xorBytes (shiftRows (s.map sbox)) (rk.getD 14 [])

/-- AES-256 decryption of one block. -/
def aesDec (rk : List (List Byte)) (blk : List Byte) : List Byte :=
  let s := (invShiftRows (xorBytes blk (rk.getD 14 []))).map invSbox
  let s := (((rk.drop 1).take 13).reverse).foldl
    (fun s k => (invShiftRows (mixWith [14, 11, 13, 9] (xorBytes s k))).map invSbox) s
  xorBytes s (rk.headD [])

/-! ### GCM (SP 800-38D) -/

/-- GHASH multiplication: bit `127 - i` of the number is bit i of the block. -/
def ghMulAux : Nat → Nat → Nat → Nat → Nat
  | 0, _, _, z => z
  | n + 1, x, v, z =>
    let z := if x.testBit n then z ^^^ v else z
    let v := if v.testBit 0 then (v / 2) ^^^ (0xE1 * 2 ^ 120) else v / 2
    ghMulAux n x v z

/-- The product of two blocks. -/
def ghMul (x y : Nat) : Nat := ghMulAux 128 x y 0

/-- The 16 B blocks of a string, the last padded with zeros. -/
def gcmBlocks : Nat → List Byte → List (List Byte)
  | 0, _ => []
  | n + 1, m => let b := m.take 16; (b ++ zeros (16 - b.length)) :: gcmBlocks n (m.drop 16)

/-- GHASH of additional data and ciphertext. -/
def ghash (h : Nat) (aad ct : List Byte) : Nat :=
  let bs := gcmBlocks ((aad.length + 15) / 16) aad ++ gcmBlocks ((ct.length + 15) / 16) ct ++
    [be 8 (8 * aad.length) ++ be 8 (8 * ct.length)]
  bs.foldl (fun y b => ghMul (y ^^^ unbe b) h) 0

/-- The key stream over `n` blocks from a counter. -/
def gctr (rk : List (List Byte)) (iv : List Byte) : Nat → Nat → List Byte → List Byte
  | 0, _, _ => []
  | n + 1, c, m =>
    xorBytes (m.take 16) (aesEnc rk (iv ++ be 4 c)) ++ gctr rk iv n (c + 1) (m.drop 16)

/-- The tag of a ciphertext. -/
def gcmTag (rk : List (List Byte)) (iv aad ct : List Byte) : List Byte :=
  let h := unbe (aesEnc rk (zeros 16))
  xorBytes (be 16 (ghash h aad ct)) (aesEnc rk (iv ++ be 4 1))

/-- AES-256-GCM sealing: ciphertext, and the 16 B tag. -/
def gcmSeal (key iv aad pt : List Byte) : List Byte × List Byte :=
  let rk := roundKeys (key.take 32)
  let ct := gctr rk iv ((pt.length + 15) / 16) 2 pt
  (ct, gcmTag rk iv aad ct)

/-- AES-256-GCM opening: the plaintext when the tag verifies. -/
def gcmOpen (key iv aad ct tag : List Byte) : Option (List Byte) :=
  let rk := roundKeys (key.take 32)
  if gcmTag rk iv aad ct = tag then some (gctr rk iv ((ct.length + 15) / 16) 2 ct) else none

/-! ### XTS (IEEE 1619), on whole blocks -/

/-- The next tweak: multiplication by x, little-endian. -/
def xtsNext (t : Nat) : Nat := if t < 2 ^ 127 then 2 * t else (2 * t % 2 ^ 128) ^^^ 0x87

/-- The blocks of a data unit under rising tweaks. -/
def xtsBlocks (f : List Byte → List Byte) : Nat → Nat → List Byte → List Byte
  | 0, _, _ => []
  | n + 1, t, m =>
    xorBytes (f (xorBytes (m.take 16) (le 16 t))) (le 16 t) ++ xtsBlocks f n (xtsNext t) (m.drop 16)

/-- AES-256-XTS of a data unit: key bytes 0 to 31 for data, 32 to 63 for the tweak. -/
def xts (enc : Bool) (key : List Byte) (tweak : Nat) (m : List Byte) : List Byte :=
  let k1 := roundKeys (key.take 32)
  let k2 := roundKeys ((key.drop 32).take 32)
  xtsBlocks (if enc then aesEnc k1 else aesDec k1) (m.length / 16) (unle (aesEnc k2 (le 16 tweak))) m

end Sys2Proof.Machine
end

