-- ==== Sys2Proof/Machine/Bark.lean ====
section
/-! DEFINITION. Bark: key slots and their counters, internal keys, measurements and the key commands
(13_bark_security). Sessions stand in Sessions, cipher requests in Cipher. -/

namespace Sys2Proof.Machine

/-! ### Slots (R392, R409, R411) -/

/-- Change a key slot. -/
def Dev.modKey (d : Dev) (n : Nat) (f : KeySlot → KeySlot) : Dev :=
  { d with bark := { d.bark with slots := tblMod d.bark.slots n f } }

/-- Put a key slot. -/
def Dev.putKey (d : Dev) (n : Nat) (k : KeySlot) : Dev :=
  { d with bark := { d.bark with slots := tblPut d.bark.slots n k } }

/-- Free key slots. -/
def Dev.freeKeys (d : Dev) (p : Nat → KeySlot → Bool) : Dev :=
  { d with bark := { d.bark with slots := d.bark.slots.filter (fun e => !p e.1 e.2) } }

/-- A key slot that is not FREE. -/
def Dev.key (d : Dev) (n : Nat) : Option KeySlot := tblGet d.bark.slots n

/-- A session. -/
def Dev.session (d : Dev) (id : Nat) : Option Session := tblGet d.bark.sessions id

/-- The slice that holds a slot in its quota. -/
def Dev.keySlice (d : Dev) (k : KeySlot) : Option Nat :=
  match k.owner with
  | .slice s => some s
  | .device => none
  | .session id => (d.session id).map (·.slice)

/-- Slots that a slice holds, sessions included (Table 13.11, USED). -/
def Dev.slotsHeld (d : Dev) (s : Nat) : Nat :=
  (d.bark.slots.filter (fun e => d.keySlice e.2 == some s)).length

/-- Slots that a plan's sessions hold. -/
def Dev.planSlots (d : Dev) (slot : Nat) : Nat :=
  2 * (d.bark.sessions.filter (fun e => e.2.plan == some slot)).length

/-- Slots that the admitted plans of a slice reserve, two per plan peer, less those that their sessions hold (R403);
`n` more are about to be held by `plan` (DEDUCED, log 39). -/
def Dev.slotsReserved (d : Dev) (s : Nat) (plan : Option Nat) (n : Nat) : Nat :=
  (d.mill.plans.map (fun e => if e.2.slice = s then
    2 * e.2.qps.length - (d.planSlots e.1 + if plan = some e.1 then n else 0) else 0)).sum

/-- The slice has quota for `n` more slots, which `plan` takes from its reservation as far as that reaches. -/
def Dev.slotQuotaFor (d : Dev) (s : Nat) (plan : Option Nat) (n : Nat) : Bool :=
  d.slotsHeld s + n + d.slotsReserved s plan n ≤ d.fld F.BRK_SLICE_SLOTS_QUOTA s

/-- The slice has quota for `n` more slots. -/
def Dev.slotQuota (d : Dev) (s n : Nat) : Bool := d.slotQuotaFor s none n

/-- The lowest FREE slot. -/
def Dev.freeKeySlot (d : Dev) : Option Nat := tblFree d.bark.slots 4096

/-- Add a reference to a slot, or take one away (R409). -/
def Dev.refKey (d : Dev) (n : Nat) (add : Bool) : Dev :=
  d.modKey n (fun k => { k with refs := if add then k.refs + 1 else k.refs - 1 })

/-- The reference of CRD_KEY to a slot: a CRD_KEY never written since its reset names none (R409). -/
def Dev.crdRef (d : Dev) (n : Nat) : Nat :=
  match tblGet d.regs (fldKey F.CRD_KEY_SLOT 0) with
  | some e => if e.val = n then 1 else 0
  | none => 0

/-- References to a slot (R409). -/
def Dev.keyRefs (d : Dev) (n : Nat) : Nat :=
  (match d.key n with
    | some k => k.refs
    | none => 0) + d.crdRef n

/-- Draw from the DRBG (R407). -/
def Dev.draw (d : Dev) : BitVec 128 × Dev :=
  (Config.drbg d.bark.drbgCtr, { d with bark := { d.bark with drbgCtr := d.bark.drbgCtr + 1 } })

/-- Draw a 256-bit key. -/
def Dev.drawKey (d : Dev) : BitVec 256 × Dev :=
  (Config.drbgKey d.bark.drbgCtr, { d with bark := { d.bark with drbgCtr := d.bark.drbgCtr + 1 } })

/-- The entropy source is healthy (R407). -/
def Dev.trng (d : Dev) : Bool := d.flag F.BRK_STATUS_TRNG_OK 0

/-- An empty slot. -/
def KeySlot.empty (use : Nat) (owner : SlotOwner) : KeySlot :=
  { state := .allocated, use := use, owner := owner, held := false, refs := 0, challenge := none, key := 0,
    salt := 0, limit := 2 ^ 48 - 1, next := 0, leaseW := (0, 0), leaseE := (0, 0) }

/-- The key bytes of a slot. -/
def KeySlot.bytes (k : KeySlot) : List Byte := le 64 k.key.toNat

/-- The 96-bit nonce of a salt and a counter value (R393). -/
def nonce (salt : BitVec 48) (ctr : Nat) : List Byte := le 6 salt.toNat ++ be 6 ctr

/-- The lease of a die. -/
def KeySlot.lease (k : KeySlot) : Die → Nat × Nat
  | .west => k.leaseW
  | .east => k.leaseE

/-- Set the lease of a die. -/
def KeySlot.setLease (k : KeySlot) (l : Nat × Nat) : Die → KeySlot
  | .west => { k with leaseW := l }
  | .east => { k with leaseE := l }

/-- Take a counter value on a die (R393, R394): from its lease, or from a further block of 4,096 that does not
reach past LIMIT. The value equal to LIMIT locks the slot; a die whose lease still holds values goes on. -/
def KeySlot.take (k : KeySlot) (die : Die) : Option (Nat × KeySlot) :=
  let l := k.lease die
  let r : Option (Nat × Nat × KeySlot) :=
    if l.1 < l.2 then some (l.1, l.2, k)
    else if k.state = .locked ∨ k.next > k.limit then none
    else
      let e := min (k.next + 4096) (k.limit + 1)
      some (k.next, e, { k with next := e })
  match r with
  | none => none
  | some (v, e, k) =>
    let k := k.setLease (v + 1, e) die
    some (v, if v = k.limit then { k with state := .locked } else k)

/-- The operations that a use allows (Table 13.4): 1 SEAL, 2 OPEN, 3 XTS_ENC, 4 XTS_DEC, 5 GMAC. -/
def useAllows (use op : Nat) : Bool :=
  match use with
  | 1 => op == 1 || op == 2 || op == 5
  | 2 => op == 3 || op == 4
  | 3 => op == 1
  | 4 => op == 2
  | _ => false

/-! ### Opening a session, and its replacement (R399, R402) -/

/-- Change a session. -/
def Dev.modSession (d : Dev) (id : Nat) (f : Session → Session) : Dev :=
  { d with bark := { d.bark with sessions := tblMod d.bark.sessions id f } }

/-- Reserve the two slots of a session in a slice's quota, and make the session. -/
def Dev.makeSession (d : Dev) (peer slice peerSlice : Nat) (plan : Option Nat) (requester : Bool) (owner : Option Owner)
    (replaces : Option Nat) : Option (Nat × Dev) :=
  if !d.slotQuotaFor slice plan 2 ∨ !d.trng then none
  else match d.freeKeySlot with
    | none => none
    | some tx =>
      let id := d.bark.nextSession
      let d := { d with bark := { d.bark with nextSession := id + 1 } }
      let d := d.putKey tx (KeySlot.empty 3 (.session id))
      match d.freeKeySlot with
      | none => none
      | some rx =>
        let d := d.putKey rx (KeySlot.empty 4 (.session id))
        let s : Session := ⟨peer, slice, plan, peerSlice, requester, 0, owner, tx, rx, 0, 0, 0, 0, replaces, false, false⟩
        some (id, { d with bark := { d.bark with sessions := tblPut d.bark.sessions id s } })

/-- The SPDM request that a requester sends in a step (R399). -/
def requestCode : Nat → Nat
  | 0 => 0x84
  | 1 => 0xE1
  | 2 => 0xE3
  | 3 => 0xFE
  | 4 => 0x81
  | 5 => 0x82
  | 6 => 0xE0
  | 7 => 0xE4
  | _ => 0xE5

/-- Send the request of a session's step. -/
def Dev.sendStep (d : Dev) (id : Nat) : Dev :=
  match d.session id with
  | some s => d.emit (.spdm (.peer s.peer) (requestCode s.step) [id, s.peerSlice] [] none)
  | none => d

/-- Begin the handshake of a session as requester. -/
def Dev.openSession (d : Dev) (peer slice peerSlice : Nat) (plan : Option Nat) (owner : Option Owner)
    (replaces : Option Nat) : Option Dev :=
  match d.makeSession peer slice peerSlice plan true owner replaces with
  | some (id, d) => some (d.sendStep id)
  | none => none

/-- A session whose SESSION_TX slot has used 2^47 values is replaced by a new one with the same peer and binding
(R402); where it cannot be opened, the session runs on (DEDUCED, log 39). -/
def Dev.rekey (d : Dev) (slot : Nat) : Dev :=
  match d.bark.sessions.find? (fun e => e.2.tx == slot && e.2.step == 9 && !e.2.old && !e.2.stuck), d.key slot with
  | some (id, s), some k =>
    if k.next < 2 ^ 47 ∨ d.bark.sessions.any (fun f => f.2.replaces == some id) then d
    else match d.openSession s.peer s.slice s.peerSlice s.plan none (some id) with
      | some d' => d'
      | none => d.modSession id (fun t => { t with stuck := true })
  | _, _ => d

/-! ### Sealing and opening -/

/-- Seal under a slot on a die: the counter value, ciphertext and tag; none when the slot cannot seal
(R393). The additional data may carry the counter value (R189). -/
def Dev.sealCtr (d : Dev) (die : Die) (slot : Nat) (aad : Nat → List Byte) (pt : List Byte) :
    Option (Nat × List Byte × List Byte) × Dev :=
  match d.key slot with
  | some k =>
    if (k.state = .loaded ∨ k.state = .locked) ∧ useAllows k.use 1 then
      match k.take die with
      | some (v, k') =>
        let r := gcmSeal k.bytes (nonce k.salt v) (aad v) pt
        (some (v, r.1, r.2), (d.putKey slot k').rekey slot)
      | none => (none, d)
    else (none, d)
  | none => (none, d)

/-- Seal with additional data that carries no counter value. -/
def Dev.seal (d : Dev) (die : Die) (slot : Nat) (aad pt : List Byte) :
    Option (Nat × List Byte × List Byte) × Dev := d.sealCtr die slot (fun _ => aad) pt

/-- Open under a slot. -/
def Dev.openKey (d : Dev) (slot ctr : Nat) (aad ct tag : List Byte) : Option (List Byte) :=
  match d.key slot with
  | some k =>
    if (k.state = .loaded ∨ k.state = .locked) ∧ useAllows k.use 2 then
      gcmOpen k.bytes (nonce k.salt ctr) aad ct tag
    else none
  | none => none

/-! ### Internal keys (R395) -/

/-- The numbers of internal keys. -/
def ikBacking (die : Die) : Nat := die.num
def ikJournal : Nat := 2
def ikHandoff : Nat := 3
def ikSpill (slice : Nat) : Nat := 16 + slice

/-- Generate an internal key: generation 0 becomes active. -/
def Dev.makeInternal (d : Dev) (n : Nat) : Dev :=
  let r := d.drawKey
  { r.2 with bark := { r.2.bark with internal := tblPut r.2.bark.internal n ⟨false, 0, some r.1, none, false⟩ } }

/-- The key of a generation. -/
def InternalKey.key (k : InternalKey) (g : Bool) : Option (BitVec 256) := if g then k.key1 else k.key0

/-- The active generation has used 2^46 values: a fresh key for the other one, and re-sealing begins; while a
re-seal still runs the die holds. -/
def Dev.rotateInternal (d : Dev) (n : Nat) : Dev :=
  match tblGet d.bark.internal n with
  | some k =>
    if k.used ≥ 2 ^ 46 ∧ !k.resealing then
      let r := d.drawKey
      let k' : InternalKey := if k.active then { k with active := false, key0 := some r.1, used := 0, resealing := true }
        else { k with active := true, key1 := some r.1, used := 0, resealing := true }
      { r.2 with bark := { r.2.bark with internal := tblPut r.2.bark.internal n k' } }
    else d
  | none => d

/-- Seal under an internal key: the stored counter, whose bit 47 is the generation, ciphertext and tag. A
missing key is generated first (a spill key); an exhausted generation whose re-seal has not ended holds the
write (none). -/
def Dev.sealInternal (d : Dev) (n : Nat) (aad pt : List Byte) : Option (Nat × List Byte × List Byte) × Dev :=
  let d := if (tblGet d.bark.internal n).isNone then d.makeInternal n else d
  let d := d.rotateInternal n
  match tblGet d.bark.internal n with
  | some k =>
    match k.key k.active with
    | some key =>
      if k.used ≥ 2 ^ 46 then (none, d)
      else
        let c := k.used + (if k.active then 2 ^ 47 else 0)
        let r := gcmSeal (le 32 key.toNat) (nonce 0 c) aad pt
        (some (c, r.1, r.2), { d with bark := { d.bark with internal := tblPut d.bark.internal n { k with used := k.used + 1 } } })
    | none => (none, d)
  | none => (none, d)

/-- Open what an internal key sealed. -/
def Dev.openInternal (d : Dev) (n ctr : Nat) (aad ct tag : List Byte) : Option (List Byte) :=
  match tblGet d.bark.internal n with
  | some k => match k.key (bit ctr 47) with
    | some key => gcmOpen (le 32 key.toNat) (nonce 0 ctr) aad ct tag
    | none => none
  | none => none

/-- The background re-seal of an internal key ends (R395): the old generation is erased. -/
def Dev.resealDone (d : Dev) (n : Nat) : Dev :=
  match tblGet d.bark.internal n with
  | some k =>
    if k.resealing then
      let k' : InternalKey := if k.active then { k with key0 := none, resealing := false }
        else { k with key1 := none, resealing := false }
      { d with bark := { d.bark with internal := tblPut d.bark.internal n k' } }
    else d
  | none => d

/-! ### Identity (R385) -/

/-- The order n of the base point of P-256 (FIPS 186-5; PRESUMED, log 5). -/
def p256Order : Nat := 0xFFFFFFFF00000000FFFFFFFFFFFFFFFFBCE6FAADA7179E84F3B9CAC2FC632551

/-- A private scalar from 40 B, by FIPS 186-5 A.2.1: their number, its first byte the most significant, modulo n - 1, plus 1
(PRESUMED, log 5). -/
def p256Scalar (bs : List Byte) : Nat := unbe bs % (p256Order - 1) + 1

/-- The identity that a seed gives: two keys from HKDF-Expand over its 32 bytes. -/
def identityOf (seed : BitVec 256) : Identity :=
  let key := fun (label : String) => p256Scalar (hkdfExpand (be 32 seed.toNat) (ascii label) 40)
  ⟨seed, key "erward idk", key "erward kak"⟩

/-- Bark derives its identity at stage APPLY of a cold reset. -/
def Dev.deriveIdentity (d : Dev) : Dev := { d with bark := { d.bark with ident := some (identityOf Config.puf) } }

/-- A signature of IDK; without an identity (BOOT_HOLD) one that no verifier accepts (R386). -/
def Dev.signIdk (d : Dev) (m : List Byte) : BitVec 512 :=
  Config.sign (match d.bark.ident with
    | some i => i.idk
    | none => 0) m

/-! ### Measurements (R388, R389) -/

/-- Set a measurement. -/
def Dev.measure (d : Dev) (ix : Nat) (v : BitVec 256) : Dev :=
  { d with bark := { d.bark with meas := tblPut d.bark.meas ix v } }

/-- A measurement. -/
def Dev.measOf (d : Dev) (ix : Nat) : BitVec 256 := tblGetD d.bark.meas ix 0

/-- Extend the plan history by an admission (1) or a retire (2) of a slot (R389). -/
def Dev.planHistory (d : Dev) (event slot : Nat) (dig : BitVec 256) : Dev :=
  d.measure 8 (digest (be 32 (d.measOf 8).toNat ++ le 1 event ++ le 1 slot ++ be 32 dig.toNat))

/-! ### Commands (R396, R397, R408, R411) -/

def rsSlotInUse : Nat := 0x30
def rsNoFreeSlot : Nat := 0x31
def rsBadChallenge : Nat := 0x32
def rsWrongUse : Nat := 0x33
def rsPolicyMismatch : Nat := 0x34
def rsPeerUnreachable : Nat := 0x35
def rsPeerRefused : Nat := 0x36
def stCipherFault : Nat := 0x130
def stAuthFail : Nat := 0x131

/-- The words from `n` on are 0. -/
def zeroFrom (c : Cmd) (n : Nat) : Bool := ((List.range 6).drop n).all (fun i => c.w i == 0)

/-- A path M command may name the slice: the issuing function manages it; on path S it is the page's own
(R277, R373) (DEDUCED, log 54). -/
def Dev.mayName (d : Dev) (c : Cmd) : Bool :=
  match c.mgrPort with
  | some p => d.manages p c.slice
  | none => true

/-- A command may name a slot: one of its slice, or on path M a DEVICE slot. -/
def Dev.mayKey (d : Dev) (c : Cmd) (k : KeySlot) : Bool :=
  match k.owner with
  | .device => c.mgrPort.isSome
  | _ => d.keySlice k == some c.target && d.mayName c

/-- The words of a challenge, at RESULT bytes 8 to 23. -/
def resultChallenge (slot : Nat) (ch : BitVec 128) : List Byte := le 8 slot ++ le 16 ch.toNat

/-- KEY_SLOT_ALLOC (Table 13.8). -/
def Dev.keyAlloc (c : Cmd) (d : Dev) : Reply :=
  let dev := bit (c.w 0) 0 && c.mgrPort.isSome
  let use := bits (c.w 0) 1 2
  if c.w 0 ≥ 8 ∨ !zeroFrom c 1 ∨ (use ≠ 1 ∧ use ≠ 2) then .refuse d rsBadField
  else if !dev && !d.mayName c then .refuse d rsNotPermitted
  else if !d.trng then .refuse d rsWrongState
  else match d.freeKeySlot with
    | none => .refuse d rsNoFreeSlot
    | some n =>
      if !dev && !d.slotQuota c.target 1 then .refuse d rsNoFreeSlot
      else
        let r := d.draw
        .ok (r.2.putKey n { KeySlot.empty use (if dev then .device else .slice c.target) with
          challenge := some r.1 }) (resultChallenge n r.1)

/-- KEY_SLOT_LOAD (R396, R397); the blob as it was read, none when it could not be read (DEDUCED, log 39). -/
def Dev.keyLoad (c : Cmd) (blob : Option KeyBlob) (d : Dev) : Reply :=
  match blob with
  | none => .refuse d rsBadField
  | some b =>
    if !zeroFrom c 1 ∨ !b.reservedOk ∨ b.slot ≥ 4096 then .refuse d rsBadField
    else if b.version ≠ 0x0100 then .fail d stVersion 0
    else match d.key b.slot with
      | none => .refuse d rsBadChallenge
      | some k =>
          let consumed := d.modKey b.slot (fun k => { k with challenge := none })
          let limit := if b.limit = 0 then 2 ^ 48 - 1 else b.limit % 2 ^ 48
          if !d.mayKey c k ∨ k.state ≠ .allocated ∨ k.challenge ≠ some b.challenge then .refuse consumed rsBadChallenge
          else if !b.sigOk ∨ !b.wrapOk then .fail consumed stBadSig 0
          else if (b.use ≠ 1 ∧ b.use ≠ 2) ∨ b.use ≠ k.use ∨ (b.use = 1 ∧ !b.upperZero) ∨ b.start > limit then
            .refuse consumed rsWrongUse
          else .ok (consumed.modKey b.slot (fun k =>
            { k with state := .loaded, key := b.key, salt := b.salt, limit := limit, next := b.start,
                     leaseW := (0, 0), leaseE := (0, 0) })) []

/-- KEY_SLOT_ERASE (Table 13.8, R409): the slot is freed, or kept with a fresh challenge. -/
def Dev.keyErase (c : Cmd) (d : Dev) : Reply :=
  let n := bits (c.w 0) 0 12
  let free := bit (c.w 0) 12
  if c.w 0 ≥ 8192 ∨ !zeroFrom c 1 then .refuse d rsBadField
  else match d.key n with
    | none => .refuse d rsNotPermitted
    | some k =>
      if !d.mayKey c k then .refuse d rsNotPermitted
      else if d.keyRefs n > 0 ∨ k.held ∨ k.use ≥ 3 then .refuse d rsSlotInUse
      else if free then .ok (d.freeKeys (fun m _ => m = n)) []
      else if !d.trng then .refuse d rsWrongState
      else
        let r := d.draw
        .ok (r.2.putKey n { KeySlot.empty k.use k.owner with challenge := some r.1 }) (resultChallenge 0 r.1)

/-- KEY_SLOT_QUERY (Table 13.8) (DEDUCED, log 39). -/
def Dev.keyQuery (c : Cmd) (d : Dev) : Reply :=
  let n := c.w 0
  if n ≥ 4096 ∨ !zeroFrom c 1 then .refuse d rsBadField
  else match d.key n with
    | none => if c.mgrPort.isSome then .ok d (zeros 22) else .refuse d rsNotPermitted
    | some k =>
      if !d.mayKey c k then .refuse d rsNotPermitted
      else .ok d (le 8 (k.state.code + 8 * k.use + 64 * b2n (k.owner = .device) + 128 * b2n k.held +
        256 * ((d.keySlice k).getD 0)) ++ le 6 k.next ++ zeros 2 ++ le 6 k.limit)

/-- BRK_SLICE_SLOTS written by a manager function for its selected slice (R411). -/
def itBarkDiscard : Nat := 4096 + 0x480
def Dev.sliceSlotsWrite (d : Dev) (port : Nat) (val : W32) : Dev :=
  let s := d.fld F.BRK_SLICE_SEL_SLICE port
  let q := bits val.toNat 0 13
  let others := ((List.range 512).filter (· ≠ s)).foldl (fun a t => a + d.fld F.BRK_SLICE_SLOTS_QUOTA t) 0
  if !d.manages port s then d
  else if others + q > 4096 ∨ q < d.slotsHeld s then d.count itBarkDiscard
  else (d.setFld F.BRK_SLICE_SLOTS_QUOTA s q).setFld F.BRK_SLICE_SLOTS_ACCEPT s (bits val.toNat 13 1)

/-- An entropy health test fails on a die (R407). -/
def Dev.entropyFail (d : Dev) (die : Die) : Dev :=
  (d.setFlag F.BRK_STATUS_TRNG_OK 0 false).faultOpen (12 + die.num) .contained die.num 0

end Sys2Proof.Machine
end

