-- ==== Sys2Proof/Machine/Fabric.lean ====
section
/-! DEFINITION. The die-to-die links: routes, detours and the messages held on them, and the Ring values of the dies
(01_package_and_time R24 to R27, R31, R39, R40). -/

namespace Sys2Proof.Machine

/-! ### Dies and links (Tables 1.1 and 1.2) -/

/-- The die of a core as CORE_ID gives it: 0 West, 1 East, 2 to 5 Mill 0 to 3. -/
def coreDie (c : Nat) : Nat :=
  if c < 0x40 then 0 else if c < 0x80 then 1 else if c < 0xC0 then 2 + (c - 0x80) / 16
  else if c < 0xC8 then 2 + (c - 0xC0) / 2 else c - 0xC8

/-- The die of a core as an end of a link. -/
def coreNode (c : Nat) : Node :=
  match coreDie c with
  | 0 => .io .west
  | 1 => .io .east
  | n + 2 => .mill n

/-- The ends of a link (Table 1.2). -/
def linkEnds : Nat → Option (Node × Node)
  | 0 => some (.io .west, .mill 0)
  | 1 => some (.io .west, .mill 1)
  | 2 => some (.io .west, .mill 2)
  | 3 => some (.io .west, .mill 3)
  | 4 => some (.io .east, .mill 0)
  | 5 => some (.io .east, .mill 1)
  | 6 => some (.io .east, .mill 2)
  | 7 => some (.io .east, .mill 3)
  | 8 => some (.io .west, .io .east)
  | 9 => some (.mill 0, .mill 1)
  | 10 => some (.mill 1, .mill 3)
  | 11 => some (.mill 3, .mill 2)
  | 12 => some (.mill 2, .mill 0)
  | _ => none

/-- The link between two dies. -/
def linkOf (a b : Node) : Option Nat :=
  (List.range 13).find? (fun k => linkEnds k == some (a, b) || linkEnds k == some (b, a))

/-- A link in service joins two dies directly. -/
def Links.joins (l : Links) (a b : Node) : Bool :=
  (List.range 13).any (fun k => k ∉ l.down && (linkEnds k == some (a, b) || linkEnds k == some (b, a)))

/-- The six logic dies. -/
def allDies : List Node := [.io .west, .io .east, .mill 0, .mill 1, .mill 2, .mill 3]

/-- The detour of R26 between two dies: the compute dies for the link between the I/O dies and for a link of
an I/O die, in ascending order; an I/O die for a ring link. -/
def Links.detour (l : Links) (a b : Node) : Option Node :=
  let via : List Node := match a, b with
    | .mill _, .mill _ => [.io .west, .io .east]
    | _, _ => [.mill 0, .mill 1, .mill 2, .mill 3]
  via.find? (fun m => m != a && m != b && l.joins a m && l.joins m b)

/-- A route remains between two dies: their link, the detour of R26, or, between compute dies that no link
joins, a compute die beside both (DEDUCED, log 57: routes are those that R26 gives). -/
def Links.routed (l : Links) (a b : Node) : Bool :=
  l.joins a b || (l.detour a b).isSome || (match a, b with
    | .mill _, .mill _ => (List.range 4).any (fun m => l.joins a (.mill m) && l.joins (.mill m) b)
    | _, _ => false)

/-- Every two dies have a route. -/
def Links.allRouted (l : Links) : Bool := allDies.all (fun a => allDies.all (fun b => a == b || l.routed a b))

/-! ### Messages held at their source (R27) -/

/-- The held link of the old route between two dies, if new messages between them wait (R27). -/
def Dev.heldLink (d : Dev) (a b : Node) : Option Nat := (linkOf a b).filter (d.links.held.contains ·)

/-- Keep a signal at its source until the old route is drained. -/
def Dev.holdMsg (d : Dev) (k core ctr : Nat) : Dev :=
  { d with links := { d.links with msgs := d.links.msgs ++ [(k, core, ctr)] } }

/-- The messages in a crossing towards dies that stop are discarded and counted in Tally event 0x003 (R31). The only
messages that this model keeps between two steps are those held at their source (DESIGN CHOICE, log 58). -/
def Dev.dropCrossing (d : Dev) (stops : Node → Bool) : Dev :=
  let gone := d.links.msgs.filter (fun m => stops (coreNode m.2.1))
  { d with links := { d.links with msgs := d.links.msgs.filter (fun m => !stops (coreNode m.2.1)) } }.countN 0x003 gone.length

/-! ### Ring values of the dies (R39, R40) -/

/-- The replica of a die; West holds the master. -/
def replicaOf : Node → Option Nat
  | .io .west => none
  | .io .east => some 0
  | .mill n => some (1 + n)

/-- The Ring accumulator of a die: the master's, or its replica's. -/
def Dev.dieAcc (d : Dev) (n : Node) : BitVec 96 :=
  match replicaOf n with
  | none => d.ring.acc
  | some m => BitVec.ofInt 96 ((d.ring.acc.toNat : Int) + tblGetD d.ring.skew m 0)

/-- The record stamp of a die (R33, R39). -/
def Dev.dieStamp (d : Dev) (n : Node) : W64 := (d.dieAcc n >>> 32).truncate 64

/-- The stamps of a die are withheld (R40). -/
def Dev.stampHeld (d : Dev) (n : Node) : Bool :=
  match replicaOf n with
  | none => false
  | some m => d.ring.withheld.contains m || d.ring.waking.contains m

end Sys2Proof.Machine
end

