-- ==== Sys2Proof/Machine/Memory.lean ====
section
/-! DEFINITION. The memories of the package: bytes and poison marks by fabric address, errors, row and channel
sparing, pages of the slice pool, and spill windows (05_memory). -/

namespace Sys2Proof.Machine

/-! ### Bytes and marks (R161, R164) -/

/-- The byte of an address that no cell lists (DESIGN CHOICE, log 12). -/
def blankByte : Byte := 0

/-- The byte of an address in canonical cells. -/
def cellGet : List Host.Cell → Nat → Byte
  | [], _ => blankByte
  | (k, v) :: t, a => if k = a then v else if a < k then blankByte else cellGet t a

/-- Set the byte of an address: the cells stay rising, and none holds the byte of an unlisted address. -/
def cellPut : List Host.Cell → Nat → Byte → List Host.Cell
  | [], a, b => if b = blankByte then [] else [(a, b)]
  | (k, v) :: t, a, b =>
    if k = a then (if b = blankByte then t else (a, b) :: t)
    else if a < k then (if b = blankByte then (k, v) :: t else (a, b) :: (k, v) :: t)
    else (k, v) :: cellPut t a b

/-- The keys of cells rise strictly from a bound, and no cell holds the byte of an unlisted address. -/
def cellsWf : Option Nat → List Host.Cell → Bool
  | _, [] => true
  | lo, (k, v) :: t => (match lo with
      | some l => decide (l < k)
      | none => true) && decide (v ≠ blankByte) && cellsWf (some k) t

/-- Numbers rise strictly from a bound. -/
def risingFrom : Option Nat → List Nat → Bool
  | _, [] => true
  | lo, k :: t => (match lo with
      | some l => decide (l < k)
      | none => true) && risingFrom (some k) t

/-- Insert a number into rising numbers. -/
def markIns : List Nat → Nat → List Nat
  | [], g => [g]
  | k :: t, g => if k = g then k :: t else if g < k then g :: k :: t else k :: markIns t g

/-- Remove a number from rising numbers. -/
def markDel : List Nat → Nat → List Nat
  | [], _ => []
  | k :: t, g => if k = g then t else if g < k then k :: t else k :: markDel t g

/-- The canonical form of the memories: cells and marks rise, and no cell is blank. -/
def Mem.wf (m : Mem) : Bool := cellsWf none m.cells && risingFrom none m.poison

/-- Write bytes from an address on. -/
def cellsWrite : List Host.Cell → Nat → List Byte → List Host.Cell
  | cs, _, [] => cs
  | cs, a, b :: bs => cellsWrite (cellPut cs a b) (a + 1) bs

/-- The granules that a range touches. -/
def granulesOf (a n : Nat) : List Nat :=
  if n = 0 then [] else (List.range ((a + n - 1) / 64 + 1 - a / 64)).map (· + a / 64)

/-- The range covers the whole granule. -/
def coversGranule (a n g : Nat) : Bool := a ≤ g * 64 && g * 64 + 64 ≤ a + n

/-- The marks after a write: poisoned data sets the mark of every granule touched, clean data clears those it
covers whole (R164). -/
def marksAfter (ps : List Nat) (a n : Nat) (poison : Bool) : List Nat :=
  (granulesOf a n).foldl (fun ps g =>
    if poison then markIns ps g else if coversGranule a n g then markDel ps g else ps) ps

/-- A write of the memories. -/
def Mem.write (m : Mem) (a : Nat) (bs : List Byte) (poison : Bool) : Mem :=
  { m with cells := cellsWrite m.cells a bs, poison := marksAfter m.poison a bs.length poison }

/-- The bytes of a range. -/
def Mem.read (m : Mem) (a n : Nat) : List Byte := (List.range n).map (fun i => cellGet m.cells (a + i))

/-- A granule of the range is marked. -/
def Mem.poisoned (m : Mem) (a n : Nat) : Bool := (granulesOf a n).any (fun g => g ∈ m.poison)

/-- Clear a range: bytes of unlisted addresses, no marks (R167). -/
def Mem.clear (m : Mem) (a n : Nat) : Mem :=
  { m with cells := m.cells.filter (fun c => c.1 < a || a + n ≤ c.1),
           poison := m.poison.filter (fun g => g * 64 + 63 < a || a + n ≤ g * 64) }

/-- Granules of 64 KiB that a write touches and that the drain has not read yet (R322). -/
def Dev.pendingIn (d : Dev) (a n : Nat) : List Nat :=
  if n = 0 ∨ d.cord.pending.isEmpty then []
  else ((List.range ((a + n - 1) / 65536 + 1 - a / 65536)).map (· + a / 65536)).filter (fun g => inRuns d.cord.pending g)

/-- Copy pending granules into buffers: each stall is counted, and lasts at most 20 µs, how long is open (R322). -/
def Dev.copyBefore (d : Dev) (gs : List Nat) : Dev :=
  gs.foldl (fun d g =>
    let r := d.fresh
    let d : Dev := { r.2 with cord := { d.cord with
      pending := runDel d.cord.pending g, buffers := d.cord.buffers ++ [g], stalls := d.cord.stalls + 1 } }
    (d.bumpFld F.CRD_STALL_COUNT 0 1).setFld F.CRD_STALL_MAX_US 0 (max (d.fld F.CRD_STALL_MAX_US 0) (r.1.toNat % 21))) d

/-- Write to memory inside the package. A write to granules that a checkpoint still tracks first has them copied; it
waits while the 8,192 buffers are full or an earlier write waits (R322). -/
def Dev.memWrite (d : Dev) (a : Nat) (bs : List Byte) (poison : Bool) : Dev :=
  let gs := d.pendingIn a bs.length
  if gs.isEmpty && d.cord.waiting.isEmpty then { d with mem := d.mem.write a bs poison }
  else if d.cord.waiting.isEmpty && d.cord.buffers.length + gs.length ≤ 8192 then
    let d := d.copyBefore gs
    { d with mem := d.mem.write a bs poison }
  else { d with cord := { d.cord with waiting := d.cord.waiting ++ [⟨a, bs, poison⟩] } }

/-- A write to LPDDR5X of state that the model keeps by its values: the granules that a checkpoint still tracks are
copied first; those without a buffer wait for one (R322). -/
def Dev.touch (d : Dev) (a n : Nat) : Dev :=
  let gs := d.pendingIn a n
  if gs.isEmpty then d
  else if d.cord.waiting.isEmpty && d.cord.buffers.length + gs.length ≤ 8192 then d.copyBefore gs
  else { d with cord := { d.cord with waiting := d.cord.waiting ++ gs.map (fun g => ⟨g * 65536, [], false⟩) } }

/-! ### The fabric map (Table 5.2) -/

/-- What a fabric address reaches. -/
inductive Target where
  | lpddr (a : Nat)
  | stacked (mill : Nat) (off : Nat)
  | ioSram (die : Die) (off : Nat)
  | pcie (port : Nat) (addr : Nat)
  | unmapped
  deriving DecidableEq, Repr

/-- Size of the LPDDR5X data window in bytes. -/
def Dev.dataWindow (d : Dev) : Nat := d.fld F.MEM_CAP_DATA_GIB 0 * 2 ^ 30

/-- Decode a fabric address for an initiator; `io` names the die whose I/O-die SRAM it reaches. -/
def Dev.decode (d : Dev) (io : Option Die) (a : Nat) : Target :=
  if a < d.dataWindow then .lpddr a
  else if 0x10000000000 ≤ a ∧ a < 0x10080000000 ∧ (a - 0x10000000000) % 0x20000000 < 384 * 2 ^ 20 then
    .stacked ((a - 0x10000000000) / 0x20000000) ((a - 0x10000000000) % 0x20000000)
  else if 0x20000000000 ≤ a ∧ a < 0x20008000000 then
    let die : Die := if (a - 0x20000000000) / 2 ^ 26 = 0 then .west else .east
    if io = some die then .ioSram die ((a - 0x20000000000) % 2 ^ 26) else .unmapped
  else if 0x8000000000000000 ≤ a ∧ a < 0xC000000000000000 then
    .pcie (a / 2 ^ 60 % 4) (a % 2 ^ 60)
  else .unmapped

/-- The address lies in memory inside the package. -/
def Target.inside : Target → Bool
  | .lpddr _ => true
  | .stacked _ _ => true
  | .ioSram _ _ => true
  | _ => false

/-- The memory behind a crossing is stopped in the power state in force: stacked SRAM from W2 on, the others in W3 (R31). A
request towards it ends at once with an error. -/
def Dev.targetStopped (d : Dev) : Target → Bool
  | .stacked _ _ => 2 ≤ d.pwr.state
  | .lpddr _ | .ioSram _ _ => 3 ≤ d.pwr.state
  | _ => false

/-- Items that the manual counts without a number (DESIGN CHOICE, log 11). -/
def itUnmapped : Nat := 4096 + 0x5A0
def itSpillDiscard : Nat := 4096 + 0x5A1
def itSpillAuth : Nat := 4096 + 0x5A2
def itStoreWait : Nat := 4096 + 0x5A3

/-! ### Interleave and sparing (R162, R174) -/

/-- The channel of a data address. -/
def channelOf (a : Nat) : Nat :=
  let c := a / 4096
  (List.range 7).foldl (fun x k => x ^^^ bits c (4 * k) 4) 0

/-- The local byte address of a data address in its channel. -/
def localAddr (a : Nat) : Nat := bits (a / 4096) 4 24 * 4096 + a % 4096

/-- Where a chunk of a spared channel lies: channel and local byte address of the chunk. -/
def spareChunk (c i : Nat) : Nat × Nat := ((c + 1 + i % 15) % 16, 29 * 2 ^ 30 + i / 15 * 4096)

/-- Local chunks to copy from a spared channel. -/
def spareChunks : Nat := 7602176

/-- The channel and local byte address that serve a data address now. -/
def Dev.serving (d : Dev) (a : Nat) : Nat × Nat :=
  let c := channelOf a
  let i := localAddr a / 4096
  let spared := (d.flag F.MEM_SPARE_ACTIVE 0 || d.flag F.MEM_SPARE_DONE 0) && d.fld F.MEM_SPARE_CHANNEL 0 = c
  if spared && i < d.fld F.MEM_SPARE_WATERMARK 0 then
    let s := spareChunk c i
    (s.1, s.2 + a % 4096)
  else (c, localAddr a)

/-- The parts of a channel's local address space (Table 5.3). -/
inductive LocalPart where
  | data
  | spare
  | metadata
  | spareRow (k : Nat)
  | reserved
  deriving DecidableEq, Repr

/-- First byte of the granule metadata of a channel, and of its 64 spare rows. -/
def metaBase : Nat := 31 * 2 ^ 30
def spareRowBase : Nat := metaBase + 992 * 2 ^ 20

/-- The part that holds a local address, with channel sparing enabled or not. -/
def localPart (sparing : Bool) (a : Nat) : LocalPart :=
  if a < (if sparing then 29 * 2 ^ 30 else metaBase) then .data
  else if a < metaBase then .spare
  else if a < spareRowBase then .metadata
  else if a < spareRowBase + 64 * 8192 then .spareRow ((a - spareRowBase) / 8192)
  else .reserved

/-- The data address at a local address of a channel: the inverse of R162. -/
def dataAddr (c a : Nat) : Nat :=
  let i := a / 4096
  (16 * i + (List.range 6).foldl (fun x k => x ^^^ bits i (4 * k) 4) c) * 4096 + a % 4096

/-- The data address whose contents a channel holds at a local address now: its own data, or a chunk of the spared channel in
its spare reserve (R174); none where nothing in use lies there. -/
def Dev.dataAt (d : Dev) (c a : Nat) : Option Nat :=
  let x := match localPart (d.flag F.MEM_CAP_SPARING 0) a with
    | .data => some (dataAddr c a)
    | .spare =>
      let r := (c + 31 - d.fld F.MEM_SPARE_CHANNEL 0) % 16
      if r = 15 then none
      else some (dataAddr (d.fld F.MEM_SPARE_CHANNEL 0) (((a - 29 * 2 ^ 30) / 4096 * 15 + r) * 4096 + a % 4096))
    | _ => none
  x.bind (fun g => if d.serving g = (c, a) then some g else none)

/-- The data address that an error at a local address of a channel touches: of data, of the granule that a metadata entry covers
(R164, R169), or of the row that a spare row stands for (R171). Rows are numbered by local address, 8 KiB each (DESIGN
CHOICE, log 66). -/
def Dev.errorAt (d : Dev) (c a : Nat) : Option Nat :=
  match localPart (d.flag F.MEM_CAP_SPARING 0) a with
  | .metadata => d.dataAt c ((a - metaBase) / 2 * 64)
  | .spareRow k => ((tblGetD d.mem.remap c [])[k]?).bind (fun r => d.dataAt c (r.row * 8192 + a % 8192))
  | _ => d.dataAt c a

/-- Where an error of a memory unit lies: its fabric address where it touches data, and its row or bank. The address of an
error is local to its channel (Table 5.3), or a fabric address in SRAM. -/
def Dev.errorSite (d : Dev) (u : MemUnit) (row addr : Nat) : Option Nat × Nat :=
  match u with
  | .chan c => (d.errorAt (c % 16) addr, addr / 8192)
  | .sram _ => (some addr, row)

/-- The die of a target (Table 1.1): that of its channel, of its memory or of its PCIe port. -/
def Dev.targetNode (d : Dev) : Target → Option Node
  | .lpddr a => some (.mill ((d.serving a).1 / 4))
  | .stacked m _ => some (.mill m)
  | .ioSram die _ => some (.io die)
  | .pcie port _ => some (.io (if port < 2 then .west else .east))
  | .unmapped => none

/-! ### Errors (R169 to R175, R177) -/

/-- The fault source of a memory unit (Table 15.1). -/
def memSrc : MemUnit → Nat
  | .chan c => 32 + c % 16 / 4
  | .sram m => if m < 2 then 14 + m else 28 + (m - 2) % 4

/-- The UNIT field and the number of a memory unit. -/
def memNum : MemUnit → Nat
  | .chan c => c % 16
  | .sram m => m % 6

/-- The number of a memory unit in the tables of merged records and suspects. -/
def memKey : MemUnit → Nat
  | .chan c => c % 16
  | .sram m => 16 + m % 6

/-- A corrected error's record: at most one per unit and millisecond, the rest counted into the next one
(R169). -/
def Dev.ceRecord (d : Dev) (src key unit addr : Nat) : Dev :=
  let put := fun (d : Dev) v => { d with flt := { d.flt with merge := tblPut d.flt.merge key v } }
  match tblGet d.flt.merge key with
  | some (t, n) =>
    if d.clk - t < msTicks 1 then put d (t, n + 1)
    else (put d (d.clk, 0)).faultN src .corrected 1 unit (n + 1) addr false
  | none => (put d (d.clk, 0)).faultN src .corrected 1 unit 1 addr false

/-- The number of scrub passes of a memory unit so far. -/
def Dev.passOf (d : Dev) : MemUnit → Nat
  | .chan _ => d.mem.passLp
  | .sram _ => d.mem.passSr

/-- Start sparing of a channel by hardware or software (R173): only one channel in a cold reset cycle; a further
one raises a contained fault and stays in service. -/
def Dev.spareStart (d : Dev) (c : Nat) : Dev :=
  if !d.flag F.MEM_CAP_SPARING 0 then d
  else if d.flag F.MEM_SPARE_ACTIVE 0 || d.flag F.MEM_SPARE_DONE 0 then
    if d.fld F.MEM_SPARE_CHANNEL 0 = c then d
    else d.fault (memSrc (.chan c)) .contained 9 c 0
  else ((d.setFld F.MEM_SPARE_CHANNEL 0 c).setFlag F.MEM_SPARE_ACTIVE 0 true).setFld F.MEM_SPARE_WATERMARK 0 0

/-- The soft remap table of a channel. -/
def Dev.remaps (d : Dev) (c : Nat) : List Remap := tblGetD d.mem.remap c []

/-- A row qualifies for a spare row (R171): its copy begins, or with all 64 spare rows in use the channel becomes
a candidate for channel sparing. -/
def Dev.rowSpare (d : Dev) (c row : Nat) (fromList : Bool) : Dev :=
  let rs := d.remaps c
  if rs.any (fun r => r.row = row) then d
  else if rs.length ≥ 64 then (d.setFlag F.MEM_STATUS_ROWREP_FULL 0 true).spareStart c
  else
    let d := { d with mem := { d.mem with remap := tblPut d.mem.remap c (rs ++ [Remap.mk row fromList (!fromList)]) } }
    let d := d.setFld (F.MEM_CH_ROWREP_USED c) 0 (rs.length + 1)
    let d := if rs.length + 1 = 64 then d.setFlag F.MEM_STATUS_ROWREP_FULL 0 true else d
    if fromList then d else d.fault (memSrc (.chan c)) .corrected 9 c row

/-- A row's copy to its spare row is done, and accesses are redirected (R171). -/
def Dev.rowCopyDone (d : Dev) (c row : Nat) : Dev :=
  { d with mem := { d.mem with remap := tblMod d.mem.remap c (fun rs =>
    rs.map (fun r => if r.row = row then { r with copying := false } else r)) } }

/-- Remember that an error was found in a row or bank on a scrub pass; true when one was found on another pass
before (R171, R177). -/
def Dev.suspect (d : Dev) (u : MemUnit) (row : Nat) : Bool × Dev :=
  let p := d.passOf u
  let again := d.mem.suspects.any (fun e => e.1 = (memKey u) && e.2.1 = row && e.2.2 != p)
  let rest := d.mem.suspects.filter (fun e => !(e.1 = memKey u && e.2.1 = row && e.2.2 = p))
  (again, { d with mem := { d.mem with suspects := (memKey u, row, p) :: rest } })

/-- Count a corrected error of a channel in its hour (R173). -/
def Dev.hourCount (d : Dev) (c : Nat) : Dev :=
  let t := tblGetD d.mem.hourStart c 0
  let d := if d.clk - t < sTicks 3600 then d
    else ({ d with mem := { d.mem with hourStart := tblPut d.mem.hourStart c d.clk } }).setFld (F.MEM_CH_CE_HOUR c) 0 0
  let d := d.bumpFld (F.MEM_CH_CE_HOUR c) 0 1
  if d.fld (F.MEM_CH_CE_HOUR c) 0 = 1001 then (d.setFlag F.MEM_STATUS_CE_THR 0 true).spareStart c else d

/-- A corrected error (R169, R171, R173). -/
def Dev.eccCorrected (d : Dev) (u : MemUnit) (row addr : Nat) (scrub : Bool) : Dev :=
  let d := d.count (match u with
    | .chan c => 0x580 + c % 16
    | .sram m => 0x590 + m % 6)
  let e := d.errorSite u row addr
  let d := d.ceRecord (memSrc u) (memKey u) (memNum u) (e.1.getD addr)
  match u with
  | .chan c =>
    let d := d.hourCount (c % 16)
    if scrub then
      let r := d.suspect u e.2
      if r.1 then r.2.rowSpare (c % 16) e.2 false else r.2
    else d
  | .sram _ => d

/-- An uncorrected error (R169, R171, R177): the granule that it touches is poisoned, and the fault is contained. A row qualifies
for a spare; an SRAM bank with such errors on two scrub passes is retired at the next cold reset. -/
def Dev.eccUncorrected (d : Dev) (u : MemUnit) (row addr : Nat) (scrub : Bool) : Dev :=
  let e := d.errorSite u row addr
  let d := match e.1 with
    | some a => { d with mem := { d.mem with poison := markIns d.mem.poison (a / 64) } }
    | none => d
  let d := d.fault (memSrc u) .contained 2 (memNum u) (e.1.getD addr)
  match u with
  | .chan c => d.rowSpare (c % 16) e.2 false
  | .sram m =>
    if scrub then
      let r := d.suspect u row
      if r.1 && !r.2.mem.retire.contains (m % 6, row) then
        ({ r.2 with mem := { r.2.mem with retire := r.2.mem.retire ++ [(m % 6, row)] } }).faultOpen (memSrc u)
          .contained (m % 6) row
      else r.2
    else d

/-- A read of the patrol scrubber (R170), and the end of a pass. -/
def Dev.scrubRead (d : Dev) (u : MemUnit) (row addr : Nat) (r : ScrubResult) (passEnd : Bool) : Dev :=
  let d := match r with
    | .clean => d
    | .corrected => d.eccCorrected u row addr true
    | .uncorrected => d.eccUncorrected u row addr true
  if passEnd then match u with
    | .chan _ => { d with mem := { d.mem with passLp := d.mem.passLp + 1, posLp := 0 } }
    | .sram _ => { d with mem := { d.mem with passSr := d.mem.passSr + 1, posSr := 0 } }
  else match u with
    | .chan _ => { d with mem := { d.mem with posLp := addr } }
    | .sram _ => { d with mem := { d.mem with posSr := addr } }

/-- MEM_SPARE written (Table 5.9): CHANNEL, then START. -/
def Dev.memSpareWrite (d : Dev) (val : W32) : Dev :=
  if d.flag F.MEM_SPARE_ACTIVE 0 || d.flag F.MEM_SPARE_DONE 0 then d
  else
    let d := d.setFld F.MEM_SPARE_CHANNEL 0 (bits val.toNat 0 4)
    if val.getLsbD 4 then d.spareStart (bits val.toNat 0 4) else d

/-- One chunk of the failing channel is copied (R174); after the last the channel is spared (R175). -/
def Dev.spareChunkCopy (d : Dev) : Dev :=
  if d.flag F.MEM_SPARE_ACTIVE 0 then
    let w := d.fld F.MEM_SPARE_WATERMARK 0 + 1
    let d := d.setFld F.MEM_SPARE_WATERMARK 0 w
    if w ≥ spareChunks then
      let c := d.fld F.MEM_SPARE_CHANNEL 0
      let d := (d.setFlag F.MEM_SPARE_ACTIVE 0 false).setFlag F.MEM_SPARE_DONE 0 true
      let d := d.setFld (F.MEM_CH_STATE c) 0 2
      let up := d.fld F.MEM_STATUS_CH_UP 0
      d.setFld F.MEM_STATUS_CH_UP 0 (up - bits up c 1 * 2 ^ c)
    else d
  else d

/-- A channel is failed (R175). -/
def Dev.channelFailed (d : Dev) (c : Nat) : Dev :=
  let up := d.fld F.MEM_STATUS_CH_UP 0
  (d.setFld (F.MEM_CH_STATE c) 0 3).setFld F.MEM_STATUS_CH_UP 0 (up - bits up c 1 * 2 ^ c)

/-! ### Pages of the slice pool (R165 to R167) -/

/-- Bytes of a page. -/
def pageBytes : Nat := 2 ^ 21

/-- First byte of the slice pool. -/
def Dev.poolBase (d : Dev) : Nat := (d.fld F.MEM_CAP_SYS_GIB 0 + d.fld F.MEM_CAP_STAGING_GIB 0) * 2 ^ 30

/-- Fabric address of a page of the pool. -/
def Dev.pageAddr (d : Dev) (p : Nat) : Nat := d.poolBase + p * pageBytes

/-- Pages that hold a number of bytes. -/
def pagesFor (bytes : Nat) : Nat := (bytes + pageBytes - 1) / pageBytes

/-- Zero one page (R167). -/
def Dev.zeroPage (d : Dev) (p : Nat) : Dev :=
  { d with mem := { (d.mem.clear (d.pageAddr p) pageBytes) with dirty := runDel d.mem.dirty p } }

/-- Zero the pages of runs. -/
def Dev.zeroRuns (d : Dev) (rs : List Run) : Dev :=
  rs.foldl (fun d r => { d with mem := (d.mem.clear (d.pageAddr r.1) (r.2 * pageBytes)) }) d

/-- The background zeroing finishes its lowest page (R167). Granules that a checkpoint still tracks are copied first,
and without buffers for them the zeroing waits (R322). -/
def Dev.pageZeroed (d : Dev) : Dev :=
  match runSort d.mem.dirty with
  | r :: _ =>
    let gs := d.pendingIn (d.pageAddr r.1) pageBytes
    if d.cord.buffers.length + gs.length ≤ 8192 then (d.copyBefore gs).zeroPage r.1 else d
  | [] => d

/-- The zeroing of the whole pool after a reset ends (R167). No page is allocated before: commands that need one wait. -/
def Dev.poolZeroDone (d : Dev) : Dev :=
  if d.flag F.MEM_STATUS_ZERO_BUSY 0 then
    let n := d.fld F.MEM_POOL_PAGES_PAGES 0 * pageBytes
    ({ d with mem := { (d.mem.clear d.poolBase n) with dirty := [] } }).setFlag F.MEM_STATUS_ZERO_BUSY 0 false
  else d

/-- Pages that a slice holds. -/
def Dev.sliceHeldPages (d : Dev) (s : Nat) : Nat :=
  ((d.mem.owned.filter (fun e => e.1 = s)).map (fun e => e.2.2.2)).sum

/-- The item with a number among those of a list of runs. -/
def runsNth : List Run → Nat → Option Nat
  | [], _ => none
  | r :: rs, i => if i < r.2 then some (r.1 + i) else runsNth rs (i - r.2)

/-- Pages that hold granules a checkpoint still tracks: they are not free before the drain read them (R322). -/
def Dev.pendingPages (d : Dev) : List Run :=
  d.cord.pending.map (fun r => ((r.1 * 65536 - d.poolBase) / pageBytes,
    ((r.1 + r.2) * 65536 - d.poolBase + pageBytes - 1) / pageBytes - (r.1 * 65536 - d.poolBase) / pageBytes))

/-- Free runs of the pool. -/
def Dev.freeRuns (d : Dev) : List Run :=
  gaps (d.fld F.MEM_POOL_PAGES_PAGES 0) 0 (runSort (d.mem.owned.map (fun e => e.2.2) ++ d.pendingPages))

/-- Pages free for a slice: its quota less the pages it holds (R166). -/
def Dev.sliceFreePages (d : Dev) (s : Nat) : Nat := (d.slice s).pages - d.sliceHeldPages s

/-- The lowest `n` free pages: those that no checkpoint tracks first, then those it does. -/
def Dev.pickPages (d : Dev) (n : Nat) : Option (List Run × List Run) :=
  let k := min n (runsLen d.freeRuns)
  match takeRuns k d.freeRuns with
  | none => none
  | some rs => (takeRuns (n - k) (gaps (d.fld F.MEM_POOL_PAGES_PAGES 0) 0 (runSort (d.mem.owned.map (fun e => e.2.2) ++ rs)))).map
      (fun ps => (rs, ps))

/-- Allocate pages of the pool for a slice, zeroed (R167). Zeroing a page that a checkpoint still tracks is a write to
it (R322). -/
def Dev.allocPages (d : Dev) (s use n : Nat) : Option (List Run × Dev) :=
  if n > d.sliceFreePages s then none
  else match d.pickPages n with
    | none => none
    | some (free, tracked) =>
      let rs := free ++ tracked
      let d := (tracked.foldl (fun d r => d.touch (d.pageAddr r.1) (r.2 * pageBytes)) d).zeroRuns rs
      let dirty := rs.foldl (fun ds r => (List.range r.2).foldl (fun ds i => runDel ds (r.1 + i)) ds) d.mem.dirty
      some (rs, { d with mem := { d.mem with owned := d.mem.owned ++ rs.map (fun r => (s, use, r)), dirty := dirty } })

/-- A command that would give out pages while the pool is still being zeroed waits for the end of the zeroing, and an admission
among those keeps ADMIT_BUSY (R104, R167); one that gives out none answers at once. -/
def Dev.afterZero (o : Owner) (c : Cmd) (work : ZeroWork) (body : Dev → Reply) (d : Dev) : Reply :=
  let r := body d
  if d.flag F.MEM_STATUS_ZERO_BUSY 0 ∧ r.dev.mem.owned ≠ d.mem.owned then
    ⟨{ d with mill := { d.mill with
        waiting := d.mill.waiting ++ [⟨c, o, work⟩]
        admitBusy := d.mill.admitBusy || (match work with
          | .plan _ _ => true
          | _ => false) } }, stHeld, 0, []⟩
  else r

/-- Release pages of a slice and use: they are zeroed in the background (R167). -/
def Dev.freePages (d : Dev) (s use : Nat) : Dev :=
  let rs := (d.mem.owned.filter (fun e => e.1 = s ∧ e.2.1 = use)).map (fun e => e.2.2)
  { d with mem := { d.mem with owned := d.mem.owned.filter (fun e => ¬(e.1 = s ∧ e.2.1 = use)),
                               dirty := d.mem.dirty ++ rs } }

/-! ### Spill windows (R178) -/

/-- Sum of the sizes of all enabled spill windows but a slice's. -/
def Dev.spillOthers (d : Dev) (s : Nat) : Nat :=
  (((List.range 512).filter (fun t => t != s && d.flag F.MEM_SPILL_CTRL_EN t)).map
    (fun t => d.fld F.MEM_SPILL_SIZE_PAGES t)).sum

/-- A spill window is allowed: inside the slice's DMA windows on its port, and within the device's total. -/
def Dev.spillOk (d : Dev) (s : Nat) : Bool :=
  let size := d.fld F.MEM_SPILL_SIZE_PAGES s
  !d.flag F.MEM_SPILL_CTRL_EN s ||
  ((size = 0 || ((d.slice s).dmaOk (d.fld F.MEM_SPILL_CTRL_PORT s) (d.fld F.MEM_SPILL_BASE_ADDR s) (size * pageBytes)
      true && (d.slice s).dmaOk (d.fld F.MEM_SPILL_CTRL_PORT s) (d.fld F.MEM_SPILL_BASE_ADDR s) (size * pageBytes)
      false)) &&
    size + d.spillOthers s ≤ 131072)

/-- What defines a slice's spill window (R178). -/
def Dev.spillWin (d : Dev) (s : Nat) : List Nat :=
  [d.fld F.MEM_SPILL_BASE_ADDR s, d.fld F.MEM_SPILL_SIZE_PAGES s, d.fld F.MEM_SPILL_CTRL_EN s, d.fld F.MEM_SPILL_CTRL_PORT s,
    d.fld F.MEM_SPILL_CTRL_BW s]

/-- A spill-window register written by a manager function: 0 MEM_SPILL_BASE, 1 MEM_SPILL_SIZE,
2 MEM_SPILL_CTRL. `used` is MEM_SPILL_USED of the selected slice. A size beyond 131,072 breaks the field's range. -/
def Dev.spillWrite (d : Dev) (port reg : Nat) (val : W64) (used : Nat) : Dev :=
  let s := d.fld F.MEM_SLICE_SEL_SLICE port
  if !d.manages port s then d
  else
    let n := val.toNat
    let d' := match reg with
      | 0 => d.setFld F.MEM_SPILL_BASE_ADDR s (n / 2 ^ 21 * 2 ^ 21)
      | 1 => d.setFld F.MEM_SPILL_SIZE_PAGES s (bits n 0 18)
      | _ => ((d.setFld F.MEM_SPILL_CTRL_EN s (bits n 0 1)).setFld F.MEM_SPILL_CTRL_PORT s (bits n 1 2)).setFld
          F.MEM_SPILL_CTRL_BW s (bits n 3 16)
    if (used ≠ 0 ∧ d'.spillWin s ≠ d.spillWin s) ∨ d'.fld F.MEM_SPILL_SIZE_PAGES s > 131072 ∨ !d'.spillOk s then d.count itSpillDiscard else d'

end Sys2Proof.Machine
end

