-- ==== Sys2Proof/Machine/Faults.lean ====
section
/-! DEFINITION. The fault collector, Tally, sensor polling and the network lanes (15_faults_telemetry,
16_module_pins). -/

namespace Sys2Proof.Machine

/-! ### Fault collector (R431 to R436) -/

/-- An error line event (R431): a source of Table 15.1 raises it with a class and the fields of its record.
Sources above 45 do not exist (R430). The fatal
event of an LPDDR5X source is the failure of a channel (R175). -/
def Dev.faultEvent (d : Dev) (src : Nat) (cls : FClass) (code unit count addr : Nat) : Dev :=
  if src ≥ 46 then d
  else
    let d := if 32 ≤ src ∧ src < 36 ∧ cls = .fatal ∧ unit < 16 then d.channelFailed unit else d
    d.faultN src cls code unit count addr false

/-- FAULT_N is driven low (R433). -/
def Dev.faultPinLow (d : Dev) : Bool := !d.pins.mrstLow && (d.flt.pulse || d.flt.pinHeld)

/-- The pulse of FAULT_N ends (R433): the pin then follows FLT_PIN_CTRL.DRIVE (DESIGN CHOICE, log 53). -/
def Dev.pulseEnd (d : Dev) : Dev :=
  if d.flt.pulse then
    { d with flt := { d.flt with pulse := false, pinHeld := d.flag F.FLT_PIN_CTRL_DRIVE 0 } }
  else d

/-- FLT_PIN_CTRL.DRIVE written: 0 releases the pin (R433). -/
def Dev.pinCtrl (d : Dev) (drive : Bool) : Dev :=
  let d := d.setFlag F.FLT_PIN_CTRL_DRIVE 0 drive
  if drive then d else { d with flt := { d.flt with pinHeld := false } }

/-- The class in FLT_FORCE_CLASS: 0 acts as 1 (Table 15.6). -/
def forceClass : Nat → FClass
  | 2 => .contained
  | 3 => .fatal
  | _ => .corrected

/-- FLT_FORCE written by a manager function (R432): one forced event for each source whose bit is 1, in
ascending bit order. -/
def Dev.fltForce (d : Dev) (port : Nat) (mask : W64) : Dev :=
  let cls := forceClass (d.fld F.FLT_FORCE_CLASS_CLASS 0)
  (List.range 46).foldl (fun d src =>
    if mask.getLsbD src then d.faultN src cls 12 port 1 0 true else d) d

/-- The sixteen words of the log record at a sequence position, or zeros (R436). -/
def Flt.words (f : Flt) (pos : Nat) : List W32 :=
  match f.log.find? (fun e => e.1 = pos) with
  | some e => (List.range 16).map (fun i => BitVec.ofNat 32 (fieldAt e.2.bytes (4 * i) 4))
  | none => List.replicate 16 0

/-- FLT_LOG_IDX written by a manager function (R436). -/
def Dev.logIdx (d : Dev) (port : Nat) (pos : W32) : Dev :=
  let d := d.setFld F.FLT_LOG_IDX_POS port pos.toNat
  { d with flt := { d.flt with latched := tblPut d.flt.latched port (d.flt.words pos.toNat) } }

/-! ### Tally (R439, R441) -/

/-- Items of this model that the manual counts without a number (DESIGN CHOICE, log 11). -/
def itSnapBusy : Nat := 4096 + 0x7C1

/-- TLY_CTRL written (R439): SNAP at 1 takes a snapshot, unless the bank is being filled. -/
def Dev.snapshot (d : Dev) : Dev :=
  if d.tally.snapBusy then d.count itSnapBusy
  else { d with tally := { d.tally with
    bank := d.tally.counts, snapStamp := d.stamp, snapBusy := true,
    snapSeq := (d.tally.snapSeq + 1) % 65536 } }

/-- The SNAP record of four counts (Table 15.3, TYPE 3). -/
def Dev.snapBody (d : Dev) (first : Nat) : List Byte :=
  le 2 first ++ le 1 4 ++ zeros 1 ++ le 4 d.tally.snapSeq ++
  ((List.range 4).map (fun i => le 6 (countIn d.tally.bank (first + i)))).flatten

/-- The bank is filled (R439); with TLY_TEL_CTRL.SNAP the snapshot goes out as 512 SNAP records. -/
def Dev.snapDone (d : Dev) : Dev :=
  if d.tally.snapBusy then
    let d := { d with tally := { d.tally with snapBusy := false } }
    if d.flag F.TLY_TEL_CTRL_SNAP 0 then
      (List.range 512).foldl (fun d k => d.record 3 0x400 (d.snapBody (4 * k))) d
    else d
  else d

/-- TLY_POL_SEL written by a manager function (R441): the four counts are latched in one instant. -/
def Dev.polSel (d : Dev) (port : Nat) (val : W32) : Dev :=
  let n := val.toNat
  let d := d.setFld F.TLY_POL_SEL_POLICER port (bits n 0 14)
  let d := d.setFld F.TLY_POL_SEL_DIE port (bits n 14 1)
  { d with tally := { d.tally with
    polLatch := tblPut d.tally.polLatch port (tblGetD d.tally.pol (bits n 0 15) [0, 0, 0, 0]) } }

/-- Count a frame of a policer by color: 0 green, 1 yellow, 2 red, 3 dropped (R441). -/
def Dev.polCount (d : Dev) (die : Die) (policer color : Nat) : Dev :=
  let k := die.num * 16384 + policer
  let c := tblGetD d.tally.pol k [0, 0, 0, 0]
  { d with tally := { d.tally with pol := tblPut d.tally.pol k (modAt c color (fun v => (v + 1) % 2 ^ 48)) } }

/-! ### Sensors of MCTP endpoints (R442): endpoint `ix` of a port has the EID of its place in the pool -/

/-- The EID of an endpoint. -/
def eidOf (port ix : Nat) : Nat := (Config.eidPool port + ix) % 256

/-- Change an endpoint that is present. -/
def Dev.modEndpoint (d : Dev) (port ix : Nat) (f : Endpoint → Endpoint) : Dev :=
  { d with tel := { d.tel with endpoints := tblMod d.tel.endpoints (port * 16 + ix) f } }

/-- A present endpoint. -/
def Dev.endpoint (d : Dev) (port ix : Nat) : Option Endpoint :=
  match tblGet d.tel.endpoints (port * 16 + ix) with
  | some e => if e.present then some e else none
  | none => none

/-- One answering endpoint of a discovery pass: an EID is assigned, and its PDR repository is read; at most
64 sensors are polled. -/
def Dev.discoverOne (d : Dev) (port : Nat) (a : Nat × List Nat) : Dev :=
  if port < 4 ∧ a.1 < 16 then
    let e : Endpoint := ⟨port, eidOf port a.1, true, 0, false, a.2.take 64, false⟩
    { d with tel := { d.tel with endpoints := tblPut d.tel.endpoints (port * 16 + a.1) e } }.emit
      (.mctp port (eidOf port a.1) 1 [])
  else d

/-- A discovery pass of a port. -/
def Dev.discovery (d : Dev) (port : Nat) (answers : List (Nat × List Nat)) : Dev :=
  answers.foldl (fun d a => d.discoverOne port a) d

/-- The poll of an endpoint: its sensors are asked. -/
def Dev.sensorPoll (d : Dev) (port ix : Nat) : Dev :=
  match d.endpoint port ix with
  | some e => (d.modEndpoint port ix (fun e => { e with polling := true })).emit (.mctp port e.eid 2 e.sensors)
  | none => d

/-- The body of a SENSOR record (Table 15.3, TYPE 4). -/
def sensorBody (eid id opState present dataSize unitMod baseUnit : Nat) (reading : W64) : List Byte :=
  le 1 eid ++ zeros 1 ++ le 2 id ++ le 1 opState ++ le 1 present ++ le 1 dataSize ++ le 1 unitMod ++
  le 1 baseUnit ++ zeros 3 ++ le 8 reading.toNat ++ zeros 12

/-- An endpoint answers with a reading. -/
def Dev.sensorResponse (d : Dev) (port ix id opState present dataSize unitMod baseUnit : Nat)
    (reading : W64) : Dev :=
  match d.endpoint port ix with
  | some e =>
    if id ∈ e.sensors then
      (d.modEndpoint port ix (fun e => { e with polling := false, misses := 0 })).record 4 (0x200 + port)
        (sensorBody e.eid id opState present dataSize unitMod baseUnit reading)
    else d
  | none => d

/-- A poll gets no answer in 100 ms: the third in a row marks the endpoint absent, with a corrected fault of
the port, CODE 4. -/
def Dev.pollTimeout (d : Dev) (port ix : Nat) : Dev :=
  match d.endpoint port ix with
  | some e =>
    if e.polling then
      if e.misses ≥ 2 then
        (d.modEndpoint port ix (fun e => { e with polling := false, misses := 0, present := false })).fault
          (20 + port) .corrected 4 port e.eid
      else d.modEndpoint port ix (fun e => { e with polling := false, misses := e.misses + 1 })
    else d
  | none => d

/-- A PDR change event: the repository is read again. -/
def Dev.pdrChange (d : Dev) (port ix : Nat) (sensors : List Nat) : Dev :=
  match d.endpoint port ix with
  | some e => (d.modEndpoint port ix (fun e => { e with sensors := sensors.take 64 })).emit (.mctp port e.eid 3 [])
  | none => d

/-! ### Network lanes and clocks (R452, R457, R458) -/

/-- The Ethernet port of a lane, by its first lane; none for a disabled group (Table 16.10). -/
def Lanes.portOf (l : Lanes) (lane : Nat) : Option Nat :=
  match l.group.getD (lane / 8) 3 with
  | 0 => some (lane / 8 * 8)
  | 1 => some (lane / 4 * 4)
  | 2 => some lane
  | _ => none

/-- The lowest macro of a die that serves no lane and is not lost. -/
def Lanes.spare (l : Lanes) (die : Nat) : Option Nat :=
  (List.range 18).find? (fun m => (die * 18 + m) ∉ l.lost &&
    !(List.range 16).any (fun n => tblGet l.macros (die * 16 + n) == some m))

/-- The assignment of macros at cold reset (R458): local lane n uses macro n unless it is lost; the lanes that
lost theirs take 16 and then 17, in ascending order. -/
def Lanes.assign (l : Lanes) : Lanes :=
  let home : Tbl Nat := ((List.range 32).filter (fun n => (n / 16 * 18 + n % 16) ∉ l.lost)).map
    (fun n => (n, n % 16))
  (List.range 32).foldl (fun l n =>
    if (tblGet l.macros n).isSome then l
    else match l.spare (n / 16) with
      | some m => { l with macros := tblPut l.macros n m }
      | none => l) { l with macros := home }

/-- The fault source of the Ethernet ports of a die. -/
def ethSrc (die : Die) : Nat := 16 + die.num

/-- A macro whose lane fails to reach block lock three times within 1 s is retired (R458): its lane takes a
free spare, and only the port of that lane goes down. -/
def Dev.macroFail (d : Dev) (die : Die) (m : Nat) : Dev :=
  let id := die.num * 18 + m
  if m ≥ 18 ∨ id ∈ d.lanes.lost then d
  else
    let l := { d.lanes with lost := d.lanes.lost ++ [id] }
    match (List.range 16).find? (fun n => tblGet l.macros (die.num * 16 + n) == some m) with
    | none => { d with lanes := l }
    | some n =>
      let lane := die.num * 16 + n
      let l := { l with macros := tblDel l.macros lane,
                        up := match l.portOf lane with
                          | some p => l.up.filter (· != p)
                          | none => l.up }
      match l.spare die.num with
      | some sp => { d with lanes := { l with macros := tblPut l.macros lane sp } }.fault (ethSrc die)
          .corrected 9 lane 0
      | none => { d with lanes := l }.fault (ethSrc die) .contained 9 lane 0

/-- Lanes of the port that begins at a lane. -/
def Lanes.lanesOf (l : Lanes) (port : Nat) : List Nat :=
  match l.group.getD (port / 8) 3 with
  | 0 => (List.range 8).map (· + port)
  | 1 => (List.range 4).map (· + port)
  | 2 => [port]
  | _ => []

/-- ETH_LINK_UP (R416, R458): the link of a port that exists, and each lane of which has a macro, comes up; in W3 the
ports stay down. -/
def Dev.ethUp (d : Dev) (port : Nat) : Dev :=
  let l := d.lanes
  if port < 32 ∧ l.portOf port = some port ∧ (l.lanesOf port).all (fun n => (tblGet l.macros n).isSome) ∧ d.pwr.state < 3 ∧
     (d.scaler.boot = .hostWait ∨ d.scaler.boot = .running) then
    { d with lanes := { l with up := addOnce l.up port } }
  else d

/-- XCLK_A is missing for more than 10 µs (R452): every PLL derived from it loses lock. -/
def Dev.xclkALoss (d : Dev) : Dev := { d with pins := { d.pins with xclkA := false } }.faultOpen 42 .fatal 0 0

end Sys2Proof.Machine
end

