-- ==== Sys2Proof/Machine/Wire.lean ====
section
/-! DEFINITION. The bytes of Skid packets: the headers that the device sends and those that it receives, the part that
is sealed, and the ICRC (06_skid_transport R182, R194 to R199). -/

namespace Sys2Proof.Machine

/-! ### Numbers in network byte order -/

/-- The big-endian number of `n` bytes at an offset. -/
def beAt (b : List Byte) (off n : Nat) : Nat := unbe (bytesAt b off n)

/-- The one's-complement sum of 16-bit words, folded. -/
def ipSum (bs : List Byte) : Nat :=
  let s := ((List.range (bs.length / 2)).map (fun i => beAt bs (2 * i) 2)).sum
  let s := s % 65536 + s / 65536
  s % 65536 + s / 65536

/-! ### BTH opcodes (IBTA; PRESUMED, log 14) -/

/-- A SEND of a reliable queue pair. -/
def sendOps : List Nat := [0x00, 0x01, 0x02, 0x03, 0x04, 0x05]
/-- An RDMA WRITE. -/
def writeOps : List Nat := [0x06, 0x07, 0x08, 0x09, 0x0A, 0x0B]
/-- A SEND of a datagram queue pair. -/
def udOps : List Nat := [0x64, 0x65]
/-- Opcodes that carry a RETH among those. -/
def rethOps : List Nat := [0x06, 0x0A, 0x0B]
/-- Opcodes that carry immediate data. -/
def immOps : List Nat := [0x03, 0x05, 0x09, 0x0B, 0x65]
/-- Opcodes that end a message. -/
def lastOps : List Nat := [0x02, 0x03, 0x04, 0x05, 0x08, 0x09, 0x0A, 0x0B, 0x64, 0x65]
/-- READ responses: FIRST, MIDDLE, LAST and ONLY; MIDDLE has no AETH. -/
def respOps : List Nat := [0x0D, 0x0E, 0x0F, 0x10]

/-! ### Headers that are sent -/

/-- The BTH, 12 B (IBTA) (PRESUMED, log 14). -/
def bthBytes (op : Nat) (solicited ack : Bool) (pad dest psn : Nat) : List Byte :=
  be 1 op ++ be 1 (128 * b2n solicited + 16 * pad) ++ be 2 0xFFFF ++ zeros 1 ++ be 3 dest ++ be 1 (128 * b2n ack) ++
  be 3 psn

/-- The SXH, 32 B (Table 6.5). -/
def sxhBytes (mp poison ackreq : Bool) (path src dst sess ctr msn len off : Nat) : List Byte :=
  be 1 (16 + 8 * b2n mp + 4 * b2n poison + 2 * b2n ackreq) ++ be 1 path ++ be 2 src ++ be 2 dst ++ be 2 sess ++
  be 6 ctr ++ zeros 2 ++ be 4 msn ++ be 4 len ++ be 4 off ++ zeros 4

/-- The PXH, 8 B (R196). -/
def pxhBytes (ms : List Bool) : List Byte :=
  be 8 ((List.range 64).foldl (fun a i => a + b2n (ms.getD i false) * 2 ^ i) 0)

/-- Pad count of a payload. -/
def padOf (n : Nat) : Nat := (4 - n % 4) % 4

/-- An AETH (IBTA) (PRESUMED, log 14). -/
def aeth (syn msn : Nat) : List Byte := be 1 syn ++ be 3 msn

/-- A DETH: Q_Key and source queue pair. -/
def deth (qkey src : Nat) : List Byte := be 4 qkey ++ zeros 1 ++ be 3 src

/-- An AtomicETH: the swap or add value comes before the compare value. -/
def atomicEth (va : Nat) (rkey : W32) (swap cmp : W64) : List Byte :=
  be 8 va ++ be 4 rkey.toNat ++ be 8 swap.toNat ++ be 8 cmp.toNat

/-- A FETH: what the flush is for. -/
def feth (persist : Bool) : List Byte := be 4 (if persist then 2 else 1)

/-- The four ranges of a SACKETH; the empty ones name the first PSN and the one before it (R197). -/
def sackEth (rs : List (Nat × Nat)) : List Byte :=
  ((List.range 4).map (fun i =>
    let r := rs.getD i (1, 0)
    be 8 (r.1 + r.2 * 2 ^ 32))).flatten

/-! ### Ethernet, IP and UDP (R194, R199) -/

/-- The destination address is an IPv4-mapped one. -/
def NetHdr.v4 (n : NetHdr) : Bool := n.dgid.toNat / 2 ^ 32 == 0xFFFF

/-- Addresses, tag, traffic class, hop limit and ports of a UDP packet that the device sends. -/
structure UdpNet where
  dmac : Nat
  smac : Nat
  vlan : Nat
  tos : Nat
  hop : Nat
  v4 : Bool
  src : Nat
  dst : Nat
  sport : Nat
  dport : Nat
  deriving DecidableEq, Repr

/-- The IPv4 header, with the value of its checksum. -/
def ip4Bytes (u : UdpNet) (len sum : Nat) (free : BitVec 32) : List Byte :=
  be 1 0x45 ++ be 1 u.tos ++ be 2 (20 + len) ++ be 4 free.toNat ++ be 1 u.hop ++ be 1 17 ++ be 2 sum ++ be 4 u.src ++ be 4 u.dst

/-- The headers of a UDP packet: Ethernet with its tag, IPv4 or IPv6, and UDP with its checksum, for a payload of `len` bytes;
`free` is the identification or the flow label. -/
def udpBytes (u : UdpNet) (len check : Nat) (free : BitVec 32) : List Byte :=
  let eth := be 6 u.dmac ++ be 6 u.smac ++
    (if u.vlan ≥ 32768 then be 2 0x8100 ++ be 2 (bits u.vlan 12 3 * 8192 + bits u.vlan 0 12) else []) ++
    be 2 (if u.v4 then 0x0800 else 0x86DD)
  let udp := be 2 u.sport ++ be 2 u.dport ++ be 2 (8 + len) ++ be 2 check
  if u.v4 then
    let sum := 65535 - ipSum (ip4Bytes u (8 + len) 0 free)
    eth ++ ip4Bytes u (8 + len) sum free ++ udp
  else
    eth ++ be 4 (6 * 2 ^ 28 + u.tos * 2 ^ 20 + free.toNat % 2 ^ 20) ++ be 2 (8 + len) ++ be 1 17 ++ be 1 u.hop ++ be 16 u.src ++
      be 16 u.dst ++ udp

/-- The UDP checksum of a payload, over the pseudo-header too; a sum of 0 is sent as ones. -/
def udpCheck (u : UdpNet) (payload : List Byte) : Nat :=
  let adr := if u.v4 then 4 else 16
  let len := 8 + payload.length
  let c := 65535 - ipSum (be adr u.src ++ be adr u.dst ++ be 2 17 ++ be 2 len ++ be 2 u.sport ++ be 2 u.dport ++ be 2 len ++
    payload ++ zeros (payload.length % 2))
  if c = 0 then 65535 else c

/-- The headers in front of the BTH of a packet that a port sends, for a UDP
payload of `len` bytes. The addresses of the port, the hop limit, and the identification or flow label, which no rule
gives, are free (DESIGN CHOICE, log 67); the UDP checksum is 0 (PRESUMED, log 14). -/
def netBytes (port : Nat) (n : NetHdr) (len : Nat) (free : BitVec 32) : List Byte :=
  udpBytes
    { dmac := n.dmac.toNat, smac := (Config.portMac port).toNat, vlan := n.vlan, tos := n.dscp * 4 + n.ecn,
      hop := Config.hopLimit.toNat, v4 := n.v4,
      src := if n.v4 then (Config.portIp4 port).toNat else (Config.portIp6 port).toNat,
      dst := n.dgid.toNat, sport := n.sport, dport := 4791 } len 0 free

/-- Bytes of an Ethernet header with at most one tag. -/
def ethLen (net : List Byte) : Nat := if beAt net 12 2 = 0x8100 then 18 else 14

/-- The IP and UDP headers as the ICRC takes them: fields that a hop may change are ones (IBTA; PRESUMED, log 14). -/
def icrcMask (net : List Byte) : List Byte :=
  let ip := net.drop (ethLen net)
  if beAt ip 0 1 / 16 = 6 then
    be 4 0x6FFFFFFF ++ bytesAt ip 4 3 ++ be 1 0xFF ++ bytesAt ip 8 32 ++ bytesAt ip 40 6 ++ be 2 0xFFFF
  else
    bytesAt ip 0 1 ++ be 1 0xFF ++ bytesAt ip 2 6 ++ be 1 0xFF ++ bytesAt ip 9 1 ++ be 2 0xFFFF ++ bytesAt ip 12 8 ++
      bytesAt ip 20 6 ++ be 2 0xFFFF

/-- CRC-32 of Ethernet. -/
def crc32 (bs : List Byte) : BitVec 32 :=
  (bs.foldl (crcByte 0xEDB88320#32) 0xFFFFFFFF#32) ^^^ 0xFFFFFFFF#32

/-- The ICRC of a packet: over the masked headers and all from the BTH on, whose byte 4 is masked too (R182, IBTA;
PRESUMED, log 14). -/
def icrcOf (net rest : List Byte) : List Byte :=
  le 4 (crc32 (be 8 (2 ^ 64 - 1) ++ icrcMask net ++ bytesAt rest 0 4 ++ be 1 0xFF ++ rest.drop 5)).toNat

end Sys2Proof.Machine

namespace Sys2Proof

open Machine

/-! ### Headers that are received -/

/-- A RETH. -/
def Reth.bytes (r : Reth) : List Byte := be 8 r.va ++ be 4 r.rkey.toNat ++ be 4 r.len

def PktHdr.op (h : PktHdr) : Nat := beAt h.bth 0 1
def PktHdr.qpn (h : PktHdr) : Nat := beAt h.bth 5 3
def PktHdr.psn (h : PktHdr) : Nat := beAt h.bth 9 3
/-- The packet was sent in Skid mode: it has an SXH. -/
def PktHdr.skid (h : PktHdr) : Bool := !h.sxh.isEmpty
/-- The SXH has the VERSION of this generation, and its reserved bits are 0 (Table 6.5, R195). -/
def PktHdr.sxhOk (h : PktHdr) : Bool :=
  h.sxh.length == 32 && beAt h.sxh 0 1 / 16 == 1 && beAt h.sxh 0 1 % 2 == 0 && beAt h.sxh 1 1 < 128 && beAt h.sxh 6 2 < 4096 &&
  beAt h.sxh 14 2 == 0 && beAt h.sxh 16 1 == 0 && beAt h.sxh 28 4 == 0
def PktHdr.path (h : PktHdr) : Nat := beAt h.sxh 1 1
def PktHdr.srcNode (h : PktHdr) : Nat := beAt h.sxh 2 2
def PktHdr.dstNode (h : PktHdr) : Nat := beAt h.sxh 4 2
def PktHdr.session (h : PktHdr) : Nat := beAt h.sxh 6 2
def PktHdr.ivctr (h : PktHdr) : Nat := beAt h.sxh 8 6
def PktHdr.msn (h : PktHdr) : Nat := beAt h.sxh 16 4
def PktHdr.msgLen (h : PktHdr) : Nat := beAt h.sxh 20 4
def PktHdr.offset (h : PktHdr) : Nat := beAt h.sxh 24 4
/-- A PXH follows the SXH. -/
def PktHdr.poisoned (h : PktHdr) : Bool := bit (beAt h.sxh 0 1) 2
/-- The sender asks for an acknowledgement at once, in its BTH or its SXH. -/
def PktHdr.ackreq (h : PktHdr) : Bool := bit (beAt h.bth 8 1) 7 || bit (beAt h.sxh 0 1) 1
/-- The IP header. -/
def PktHdr.ip (h : PktHdr) : List Byte := h.net.drop (ethLen h.net)
def PktHdr.v6 (h : PktHdr) : Bool := beAt h.ip 0 1 / 16 == 6
/-- The packet is marked CE. -/
def PktHdr.ce (h : PktHdr) : Bool := (if h.v6 then beAt h.ip 0 2 / 16 else beAt h.ip 1 1) % 4 == 3
/-- The address that the packet came from, IPv4-mapped for IPv4. -/
def PktHdr.source (h : PktHdr) : Nat := if h.v6 then beAt h.ip 8 16 else 0xFFFF * 2 ^ 32 + beAt h.ip 12 4
/-- The MAC address that the packet came from. -/
def PktHdr.smac (h : PktHdr) : Nat := beAt h.net 6 6
/-- The syndrome and the 24-bit field of an AETH. -/
def PktHdr.syndrome (h : PktHdr) : Nat := bits h.aeth.toNat 24 8
def PktHdr.aethNum (h : PktHdr) : Nat := bits h.aeth.toNat 0 24

def DataPkt.isWrite (p : DataPkt) : Bool := writeOps.contains p.hdr.op
def DataPkt.last (p : DataPkt) : Bool := lastOps.contains p.hdr.op
def DataPkt.imm (p : DataPkt) : Option W32 := if immOps.contains p.hdr.op then some p.immData else none
/-- Marks of the payload's granules: those of the PXH. -/
def pxhMarks (h : PktHdr) (ms : List Bool) : List Bool := if h.poisoned then ms else []
def DataPkt.marks (p : DataPkt) : List Bool := pxhMarks p.hdr p.poison

/-- The header of a received packet. -/
def rxHdr : RxPkt → PktHdr
  | .data p => p.hdr
  | .read p => p.hdr
  | .atomic _ p => p.hdr
  | .flush p _ => p.hdr
  | .sack h _ => h
  | .nak h => h
  | .readResp h _ _ => h
  | .atomicResp h _ => h
  | .cnp h => h
  | .report h => h

/-- The opcodes of a kind of packet; others name options that Table 6.1 does not list, or nothing (R182). -/
def RxPkt.ops : RxPkt → List Nat
  | .data _ => sendOps ++ writeOps ++ udOps
  | .read _ => [0x0C]
  | .atomic .cmpSwap _ => [0x13]
  | .atomic .fetchAdd _ => [0x14]
  | .atomic .write _ => [0x1D]
  | .flush _ _ => [0x1C]
  | .sack _ _ => [0x11, 0xC1]
  | .nak _ => [0x11]
  | .readResp _ _ _ => respOps
  | .atomicResp _ _ => [0x12]
  | .cnp _ => [0x81]
  | .report _ => [0xC0]

/-- The AETH as received. -/
def PktHdr.aethBytes (h : PktHdr) : List Byte := be 4 h.aeth.toNat

/-- The extension headers of a packet. -/
def RxPkt.ext : RxPkt → List Byte
  | .data p => (if udOps.contains p.hdr.op then deth p.qkey.toNat p.srcQp else []) ++
      (if rethOps.contains p.hdr.op then p.reth.bytes else []) ++ (if immOps.contains p.hdr.op then be 4 p.immData.toNat else [])
  | .read p => Reth.bytes ⟨p.va, p.rkey, p.len⟩
  | .atomic .cmpSwap p => atomicEth p.va p.rkey p.b p.a
  | .atomic .fetchAdd p => atomicEth p.va p.rkey p.a p.b
  | .atomic .write p => Reth.bytes ⟨p.va, p.rkey, p.len⟩
  | .flush p persist => feth persist ++ Reth.bytes ⟨p.va, p.rkey, p.len⟩
  | .sack h rs => h.aethBytes ++ (if h.op = 0xC1 then sackEth rs else [])
  | .nak h => h.aethBytes
  | .readResp h _ _ => if h.op = 0x0E then [] else h.aethBytes
  | .atomicResp h v => h.aethBytes ++ be 8 v.toNat
  | .cnp _ => zeros 16
  | .report h => h.aethBytes

/-- The payload of a packet, and the granule marks of its PXH. -/
def RxPkt.payload : RxPkt → List Byte × List Bool
  | .data p => (p.payload, p.poison)
  | .atomic .write p => (be 8 p.a.toNat, [])
  | .readResp _ bs ms => (bs, ms)
  | _ => ([], [])

/-- What follows the SXH, or the BTH in standard mode, up to the ICV or ICRC, in the clear (R189, R194). -/
def RxPkt.body (p : RxPkt) : List Byte :=
  (if (rxHdr p).poisoned then pxhBytes p.payload.2 else []) ++ p.ext ++ p.payload.1 ++ zeros (padOf p.payload.1.length)

/-- Bytes of a received packet without its FCS. -/
def RxPkt.size (p : RxPkt) : Nat :=
  let h := rxHdr p
  h.net.length + h.bth.length + h.sxh.length + p.body.length + h.icv.length + h.icrc.length

/-- Cells of a packet in Boom. -/
def RxPkt.cells (p : RxPkt) : Nat := (p.size + 255) / 256

end Sys2Proof
end

