-- ==== Sys2Proof/Machine/Boom.lean ====
section
/-! DEFINITION. Boom and Flume: queues of frames, admission, scheduling and policing (07_packet_path R234 to
R247). -/

namespace Sys2Proof.Machine

/-! ### Items counted without a number (DESIGN CHOICE, log 11) -/

def itBoomDrop (die : Die) (kind : Nat) : Nat := 4096 + 0x380 + 64 * die.num + kind
def itFluDiscard : Nat := 4096 + 0x400

/-! ### Queues and cells (R234, R235) -/

/-- The number of a queue of a die. -/
def queueKey (die : Die) (q : Nat) : Nat := die.num * 131072 + q

/-- The die of an Ethernet port, by first lane. -/
def portDie (port : Nat) : Die := if port < 16 then .west else .east

/-- Rate of a port in Mb/s, by the grouping of its lanes (R457). -/
def Dev.portRate (d : Dev) (port : Nat) : Nat :=
  match d.lanes.group.getD (port / 8) 3 with
  | 0 => 1600000
  | 1 => 800000
  | _ => 200000

/-- A queue never used. -/
def BQueue.init : BQueue :=
  { frames := [], hwm := 0, bound := none, rebind := none, rate := 0, elig := 0, wheel := none, tag := none,
    prevTag := 0 }

/-- A Boom queue. -/
def Dev.bq (d : Dev) (k : Nat) : BQueue := tblGetD d.path.queues k BQueue.init

/-- Change a Boom queue. -/
def Dev.modBq (d : Dev) (k : Nat) (f : BQueue → BQueue) : Dev :=
  { d with path := { d.path with queues := tblPut d.path.queues k (f (d.bq k)) } }

/-- Length of a frame from DMAC to FCS. -/
def BFrame.len (f : BFrame) : Nat := f.bytes.length + 4

/-- Bytes of a frame in the pool: without its FCS, which the port appends (R233; DESIGN CHOICE, log 57). -/
def BFrame.stored (f : BFrame) : Nat := f.len - 4

/-- Cells of a frame. -/
def BFrame.cells (f : BFrame) : Nat := (f.stored + 255) / 256

/-- Cells of a queue. -/
def BQueue.cells (q : BQueue) : Nat := (q.frames.map BFrame.cells).sum

/-- Cells of a die's pool that the egress queues of a slice hold (R280). -/
def Dev.cellsOn (d : Dev) (die : Die) (s : Nat) : Nat :=
  ((d.path.queues.filter (fun e => e.1 / 131072 == die.num && (match e.2.bound with
    | some (_, _, t) => t == s
    | none => false))).map (fun e => e.2.cells)).sum

/-- The slice's egress queues hold less than its Boom quota on a die, so that it fetches send entries (R280). -/
def Dev.cellRoom (d : Dev) (die : Die) (s : Nat) : Bool := d.cellsOn die s < (d.slice s).cellQuota

/-- Depth of a queue in bytes. -/
def BQueue.depth (q : BQueue) : Nat := (q.frames.map BFrame.stored).sum

/-- Cells of a miss chain. -/
def chainCells (c : List RxPkt) : Nat := (c.map RxPkt.cells).sum

/-- The key of the miss chain of a queue pair on a die (R192). -/
def chainKey (die : Die) (n : Nat) : Nat := die.num * 2 ^ 24 + n

/-- The die that serves a queue pair, by PORT of its context (R190). -/
def Qp.die (q : Qp) : Die := portDie (bits q.ctx.toNat (0x2E * 8) 5)

/-- Cells that the miss chains of a die hold. -/
def Dev.missCells (d : Dev) (die : Die) : Nat :=
  ((d.skid.chains.filter (fun e => e.1 / 2 ^ 24 == die.num)).map (fun e => chainCells e.2)).sum

/-- Free cells of a die's pool. -/
def Dev.boomFree (d : Dev) (die : Die) : Nat :=
  131072 - (((d.path.queues.filter (fun e => e.1 / 131072 = die.num)).map (fun e => e.2.cells)).sum +
    d.missCells die + tblGetD d.path.leaked die.num 0)

/-- Lower the record of the fewest free cells. -/
def Dev.noteFree (d : Dev) (die : Die) : Dev :=
  let m := min (tblGetD d.path.minFree die.num 131072) (d.boomFree die)
  { d with path := { d.path with minFree := tblPut d.path.minFree die.num m } }

/-! ### Flume: shaping and tags (R241 to R243) -/

/-- Flume time of a die in ps. -/
def Dev.flumeNow (d : Dev) (die : Die) : Nat := tblGetD d.path.slot die.num 0 * 8000

/-- Time of `n` bytes at a rate in Mb/s, in ps, rounded up. -/
def psOf (n rate : Nat) : Nat := (n * 8000000 + max rate 1 - 1) / max rate 1

/-- The eligible time after sending a frame (R241). -/
def nextElig (e now len rate burst : Nat) : Nat := max e (now - psOf burst rate) + psOf (len + 20) rate

/-- Burst of the shapers in bytes. -/
def Dev.burst (d : Dev) : Nat := max 1 (d.fld F.FLU_SHAPE_BURST 0) * 1024

/-- The calendar slot of an eligible time (R242): rounded up, at most 65,535 slots ahead. -/
def wheelSlot (e now : Nat) : Option Nat :=
  if e ≤ now then none else some (min ((e + 7999) / 8000) (now / 8000 + 65535))

/-- All weights divide this unit, so that finish tags are exact (R243). -/
def tagUnit : Nat := (List.range 255).foldl (fun a k => Nat.lcm a (k + 1)) 1

/-- A weight; 0 acts as 1. -/
def weightOf (w : Nat) : Nat := max 1 w

/-- A class or port among its classes. -/
def Dev.vclass (d : Dev) (k : Nat) : VClass := tblGetD d.path.vclass k ⟨0, none, 0⟩

/-- Change a class. -/
def Dev.setVclass (d : Dev) (k : Nat) (v : VClass) : Dev :=
  { d with path := { d.path with vclass := tblPut d.path.vclass k v } }

/-- A pending change of port and class takes effect once the queue is empty (R240): the queue is bound anew. One to a port
of the other die stands until the queue pair moves there (R190). -/
def BQueue.settle (q : BQueue) : BQueue :=
  match q.frames, q.rebind, q.bound with
  | [], some (p, t), some (o, _, s) =>
    if portDie p = portDie o then { q with bound := some (p, t, s), rebind := none, tag := none, prevTag := 0 } else q
  | _, _, _ => q

/-- The head frame of a queue: the oldest of its highest priority (R237). -/
def BQueue.head (q : BQueue) : Option BFrame :=
  q.frames.foldl (fun h f => match h with
    | none => some f
    | some g => if f.prio > g.prio then some f else some g) none

/-- Remove the head frame. -/
def dropHead : List BFrame → BFrame → List BFrame
  | [], _ => []
  | f :: t, h => if f = h then t else f :: dropHead t h

/-! ### Selection (R240, R243) -/

/-- The bound queues of a class of a port with an eligible head, and their tags. -/
def Dev.ready (d : Dev) (port tc : Nat) : List (Nat × Nat) :=
  d.path.queues.filterMap (fun e => match e.2.bound, e.2.tag with
    | some (p, t, _), some f => if p = port ∧ t = tc ∧ e.2.wheel.isNone ∧ !e.2.frames.isEmpty then some (e.1, f) else none
    | _, _ => none)

/-- The entry of the smallest tag; ties go to the lower number. -/
def smallest : List (Nat × Nat) → Option (Nat × Nat)
  | [] => none
  | e :: t => match smallest t with
    | none => some e
    | some m => if e.2 < m.2 ∨ (e.2 = m.2 ∧ e.1 < m.1) then some e else some m

/-- Strict classes from 7 down that hold an eligible head. -/
def Dev.strictClass (d : Dev) (port : Nat) : Option Nat :=
  [7, 6, 5, 4, 3, 2, 1, 0].find? (fun c => d.flag (F.FLU_TC_STRICT c) port && !(d.ready port c).isEmpty)

/-- The tag of a weighted class for the frame it sends next: kept while that frame stays the next (R243). -/
def Dev.classTag (d : Dev) (port c : Nat) : Nat :=
  let v := d.vclass (512 + port * 8 + c)
  let next := smallest (d.ready port c)
  match v.tag with
  | some (t, k) => if some k = next then t else fresh v next
  | none => fresh v next
where
  /-- The tag that a new frame gives the class. -/
  fresh (v : VClass) (next : Option (Nat × Nat)) : Nat :=
    let l := match next with
      | some (k, _) => match (d.bq k).head with
        | some f => f.len
        | none => 0
      | none => 0
    max (d.vclass (1024 + port)).vt v.prevTag + l * tagUnit / weightOf (d.fld (F.FLU_TC_WEIGHT c) port)

/-- The weighted class that sends next. -/
def Dev.weightedClass (d : Dev) (port : Nat) : Option (Nat × Nat) :=
  smallest (((List.range 8).filter (fun c => !d.flag (F.FLU_TC_STRICT c) port && !(d.ready port c).isEmpty)).map
    (fun c => (c, d.classTag port c)))

/-- Keep the tags of the weighted classes that hold an eligible head. -/
def Dev.keepClassTags (d : Dev) (port : Nat) : Dev :=
  (List.range 8).foldl (fun d' c =>
    let v := d.vclass (512 + port * 8 + c)
    let next := if d.flag (F.FLU_TC_STRICT c) port then none else smallest (d.ready port c)
    d'.setVclass (512 + port * 8 + c) { v with tag := next.map (fun e => (d.classTag port c, e)) }) d

/-- A frame that is the head of an eligible bound queue gets its finish tag, once, and so does its class (R243). -/
def Dev.tagHead (d : Dev) (k : Nat) : Dev :=
  let q := d.bq k
  match q.bound, q.head with
  | some (port, tc, slice), some f =>
    if q.wheel.isNone && q.tag.isNone then
      let v := d.vclass (port * 8 + tc)
      let w := weightOf (d.fld F.FLU_SLICE_W_WEIGHT slice)
      (d.modBq k (fun q => { q with tag := some (max v.vt q.prevTag + f.len * tagUnit / w) })).keepClassTags port
    else d
  | _, _ => d

/-- Tag the classes of the port to which a queue is bound, if it is bound. -/
def Dev.retagClasses (d : Dev) (k : Nat) : Dev :=
  match (d.bq k).bound with
  | some (port, _, _) => d.keepClassTags port
  | none => d

/-! ### Admission (R235, R236, R238) -/

/-- Kinds of queues for counted drops: egress, raw, exception, miss chain. -/
def queueKind (q : Nat) : Nat := if q < 65536 then 0 else if q < 65552 then 1 else if q < 65559 then 2 else 3

/-- The notice of a frame to the stream cores, for raw and exception queues (R236). -/
def Dev.notice (d : Dev) (die : Die) (q : Nat) : Dev :=
  if queueKind q = 1 ∨ queueKind q = 2 then d.emit (.notice die q) else d

/-- Admit a frame to a queue whole, or drop it whole and count it; true when it was admitted. A frame that becomes the
head receives a tag of its own. -/
def Dev.enqueue (d : Dev) (die : Die) (q : Nat) (f : BFrame) : Bool × Dev :=
  let k := queueKey die q
  let limit := d.fld F.BOM_QCFG_LIMIT k
  let fits := f.cells ≤ d.boomFree die && (limit = 0 || (d.bq k).cells + f.cells ≤ limit)
  if d.flag F.BOM_QCFG_FLUSH k || !fits then (false, d.count (itBoomDrop die (queueKind q)))
  else
    let d := d.modBq k (fun b =>
      let c := { b with
        frames := b.frames ++ [f]
        tag := if b.frames.all (fun g => f.prio > g.prio) then none else b.tag }
      { c with hwm := max c.hwm c.depth })
    (true, ((d.noteFree die).tagHead k).notice die q)

/-- BOM_QCFG.FLUSH of a queue is set (R238): every cell is released. -/
def Dev.boomFlush (d : Dev) (die : Die) (q : Nat) : Dev :=
  if q ≥ 65559 then d.count (itBoomDrop die 4)
  else
    let k := queueKey die q
    ((d.setFlag F.BOM_QCFG_FLUSH k true).modBq k (fun b => BQueue.settle { b with frames := [], tag := none })).retagClasses k

/-- The sweep returns cells that no list reaches (R239). -/
def Dev.cellSweep (d : Dev) (die : Die) : Dev :=
  { d with path := { d.path with leaked := tblDel d.path.leaked die.num } }

/-- What a frame's words hold (R239): a corrected error is counted and recorded; an uncorrected one in data drops
the frame, one in a link flushes the queue. -/
def Dev.boomEcc (d : Dev) (die : Die) (e : BoomEcc) : Dev :=
  match e with
  | .clean => d
  | .corrected =>
    ((d.bumpFld (F.BOM_DIE_ECC_CE die.num) 0 1).count (0x590 + die.num)).ceRecord (8 + die.num) (40 + die.num) die.num 0
  | _ => (d.bumpFld (F.BOM_DIE_ECC_UE die.num) 0 1).fault (8 + die.num) .contained 2 die.num 0

/-- CC_BYTES counts a frame of a queue pair. -/
def Qp.sentBytes (q : Qp) (len : Nat) : Qp :=
  { q with ctx := BitVec.ofNat 2048 (putBits q.ctx.toNat 1120 32 (satAdd 32 (bits q.ctx.toNat 1120 32) ((len + 63) / 64))) }

/-- A frame of a queue pair has left the device: CC_BYTES counts it in units of 64 B, each frame rounded up (R217)
(DEDUCED, log 13). A tracked packet of its send queue is marked as left (Table 6.6); the first transmission of a packet is
the one that an entry counts. -/
def Dev.departed (d : Dev) (f : BFrame) : Dev :=
  match f.pkt with
  | none => d
  | some (qpn, none) => { d with skid := { d.skid with qps := tblMod d.skid.qps qpn (fun q => q.sentBytes f.len) } }
  | some (qpn, some psn) => { d with skid := { d.skid with qps := tblMod d.skid.qps qpn (fun q =>
      let first := match q.sent.find? (fun t => t.psn = psn) with
        | some t => !t.left
        | none => bit q.ctx.toNat 24
      { q.sentBytes f.len with
        sent := q.sent.map (fun t => if t.psn = psn then { t with left := true } else t)
        sq := if !first then q.sq else q.sq.map (fun e => if (psn + 2 ^ 24 - e.psn) % 2 ^ 24 < e.npkt then { e with departed := min e.npkt (e.departed + 1) } else e) }) } }

/-- An uncorrected link flushes a queue (R239): of the cells it held, those that no list reaches stay away from the
pool until the sweep. -/
def Dev.linkLost (d : Dev) (die : Die) (k held lost : Nat) : Dev :=
  let d := (d.modBq k (fun q => BQueue.settle { q with frames := [], tag := none })).retagClasses k
  { d with path := { d.path with leaked := tblPut d.path.leaked die.num (tblGetD d.path.leaked die.num 0 + min lost held) } }

/-! ### Stamps of a port (R41) -/

/-- Replace bytes at an offset. -/
def spliceBytes (b : List Byte) (off : Nat) (v : List Byte) : List Byte := b.take off ++ v ++ b.drop (off + v.length)

/-- A latency of TIM_PORT_LAT, in units of 1/16 ns, as a part of the Ring accumulator. -/
def latOf (n : Nat) : BitVec 96 := BitVec.ofNat 96 (n * 2 ^ 28)

/-- The full stamp of a Ring value: NS and FRAC (R33). -/
def fullStamp (acc : BitVec 96) : BitVec 80 := (acc >>> 16).truncate 80

/-- The ingress stamp of a port: Ring of its die at the stamp point, less the latency from the MDI (R41). -/
def Dev.ingressStamp (d : Dev) (port : Nat) : BitVec 80 :=
  fullStamp (d.dieAcc (.io (portDie port)) - latOf (d.fld (F.TIM_PORT_LAT_INGRESS port) 0))

/-- The egress stamp of a port: Ring of its die at the stamp point, and the latency up to the MDI (R41). -/
def Dev.egressStamp (d : Dev) (port : Nat) : BitVec 80 :=
  fullStamp (d.dieAcc (.io (portDie port)) + latOf (d.fld (F.TIM_PORT_LAT_EGRESS port) 0))

/-- A UDP checksum after bytes of its datagram changed; 0 says that there is none (R41). -/
def sumFixed (sum : Nat) (old new : List Byte) : Nat :=
  if sum = 0 then 0
  else
    let s := 65535 - ipSum (be 2 (65535 - sum) ++ old.map (fun b => ~~~b) ++ new)
    if s = 0 then 65535 else s

/-- What a one-step write puts into a PTP message, as offset and bytes: the time in s and ns, or the correction field,
whose unit is 2^-16 ns, with the time since a stamp added (IEEE 1588-2019). -/
def OneStep.patch (o : OneStep) (msg : List Byte) (stamp : BitVec 80) : Nat × List Byte :=
  match o with
  | .origin => (34, be 6 (stamp.toNat / 2 ^ 16 / 1000000000) ++ be 4 (stamp.toNat / 2 ^ 16 % 1000000000))
  | .correction since => (8, be 8 ((unbe (bytesAt msg 8 8) + (stamp - since).toNat) % 2 ^ 64))

/-- The bytes of a frame as they leave with a request at a stamp (Table 1.7). -/
def EgressReq.apply (r : EgressReq) (b : List Byte) (stamp : BitVec 80) : List Byte :=
  match r.oneStep with
  | none => b
  | some o =>
    let p := o.patch (b.drop r.ptpOff) stamp
    let off := r.ptpOff + p.1
    let c := spliceBytes b off p.2
    match r.sumOff with
    | none => c
    | some s => spliceBytes c s (be 2 (sumFixed (beAt b s 2) (bytesAt b off p.2.length) p.2))

/-- A frame leaves a port, with the stamp that its descriptor requested (R41). -/
def Dev.sendFrame (d : Dev) (port : Nat) (f : BFrame) : Dev :=
  match f.egress with
  | none => (d.departed f).emit (.frame port f)
  | some r =>
    let stamp := d.egressStamp port
    let g := { f with bytes := r.apply f.bytes stamp }
    ((d.departed f).emit (.frame port g)).emit (.egressStamp port g stamp)

/-! ### Transmission (R239, R240, R243) -/

/-- Take the head frame of an egress queue: the shaper moves, the next head is tagged, and the frame leaves
unless a word of it is uncorrected. -/
def Dev.sendQueue (d : Dev) (port k : Nat) (e : BoomEcc) : Dev :=
  let die := portDie port
  let q := d.bq k
  match q.head with
  | none => d
  | some f =>
    let now := d.flumeNow die
    let el := nextElig q.elig now f.len q.rate d.burst
    let d := d.modBq k (fun q => BQueue.settle { q with
      frames := dropHead q.frames f, tag := none, prevTag := q.tag.getD q.prevTag
      elig := el, wheel := wheelSlot el now })
    let d := (d.tagHead k).boomEcc die e
    match e with
    | .dataUe => d
    | .linkUe lost => d.linkLost die k (f.cells + (d.bq k).cells) lost
    | _ => d.sendFrame port f

/-- The raw egress queue of a port's first lane may send: it holds a frame, and its shaper of 1 % of the port rate
allows it (R240); a frame with a request waits while the stamps of the die are withheld (R40). -/
def Dev.rawReady (d : Dev) (port : Nat) : Bool :=
  !(d.bq (queueKey (portDie port) (65536 + port % 16))).frames.isEmpty &&
  tblGetD d.path.rawElig port 0 ≤ d.flumeNow (portDie port) &&
  !(((d.bq (queueKey (portDie port) (65536 + port % 16))).head.any (fun f => f.egress.isSome)) &&
    d.stampHeld (.io (portDie port)))

/-- A port selects and sends its next frame (R240, R243). -/
def Dev.frameTransmit (d : Dev) (port : Nat) (e : BoomEcc) : Dev :=
  if port ∉ d.lanes.up then d
  else if d.rawReady port then
    let k := queueKey (portDie port) (65536 + port % 16)
    match (d.bq k).head with
    | none => d
    | some f =>
      let now := d.flumeNow (portDie port)
      let el := nextElig (tblGetD d.path.rawElig port 0) now f.len (d.portRate port / 100) d.burst
      let d := { d with path := { d.path with rawElig := tblPut d.path.rawElig port el } }
      let d := (d.modBq k (fun q => { q with frames := dropHead q.frames f })).boomEcc (portDie port) e
      match e with
      | .dataUe => d
      | .linkUe lost => d.linkLost (portDie port) k (f.cells + (d.bq k).cells) lost
      | _ => d.sendFrame port f
  else
    let pick : Option (Nat × Bool) := match d.strictClass port with
      | some c => some (c, true)
      | none => (d.weightedClass port).map (fun e => (e.1, false))
    match pick with
    | none => d
    | some (c, strict) =>
      match smallest (d.ready port c) with
      | none => d
      | some (k, tag) =>
        let d := if strict then d
          else
            let d := d.keepClassTags port
            let t := d.classTag port c
            (d.setVclass (512 + port * 8 + c) ⟨0, none, t⟩).setVclass (1024 + port) ⟨t, none, 0⟩
        let v := d.vclass (port * 8 + c)
        ((d.setVclass (port * 8 + c) { v with vt := tag }).sendQueue port k e).keepClassTags port

/-- The calendar wheel of a die advances one slot (R242): the queues of the slot become eligible, or are placed
again when their time lies further on. -/
def Dev.calendarSlot (d : Dev) (die : Die) : Dev :=
  let s := tblGetD d.path.slot die.num 0 + 1
  let d := { d with path := { d.path with slot := tblPut d.path.slot die.num s } }
  let due := d.path.queues.filter (fun e => e.1 / 131072 == die.num && (match e.2.wheel with
    | some w => decide (w ≤ s)
    | none => false))
  due.foldl (fun d e => (d.modBq e.1 (fun q => { q with wheel := wheelSlot q.elig (s * 8000) })).tagHead e.1) d

/-! ### Binding (R240) -/

/-- A context enters the cache: its slot's queue is bound. -/
def Dev.bindQueue (d : Dev) (die : Die) (slot port tc slice rate : Nat) : Dev :=
  d.modBq (queueKey die slot) (fun q =>
    { q with bound := some (port, tc, slice), rebind := none, rate := rate, elig := 0, wheel := none, tag := none,
             prevTag := 0 })

/-- A context leaves the cache: its queue is unbound and its frames are released; its high-water mark stays until it is
read (R247). -/
def Dev.unbindQueue (d : Dev) (die : Die) (slot : Nat) : Dev :=
  let k := queueKey die slot
  let port := (d.bq k).bound
  let d := d.modBq k (fun q => { BQueue.init with hwm := q.hwm })
  match port with
  | some (p, _, _) => d.keepClassTags p
  | none => d

/-- Change port and class of a bound queue, at once when it is empty. -/
def Dev.rebindQueue (d : Dev) (die : Die) (slot port tc : Nat) : Dev :=
  d.modBq (queueKey die slot) (fun q => BQueue.settle { q with rebind := some (port, tc) })

/-! ### Policing (R244 to R246) -/

/-- A policer never configured: EN is 0. -/
def Policer.init : Policer :=
  { en := false, mode := false, aware := false, yellow := 0, red := 0, yDscp := 0, rDscp := 0, cir := 0, pir := 0,
    cbs := 0, ebs := 0, tc := 0, te := 0, last := 0 }

/-- Tokens of some ns at a rate in Mb/s, in units of 2^-16 B, rounded down. -/
def tokensOf (ns mbps : Nat) : Nat := ns * mbps * 65536 / 8000

/-- Refill the buckets of a policer from the Ring time elapsed (R244). -/
def Policer.refill (p : Policer) (now : W64) : Policer :=
  let dt := (now - p.last).toNat
  let cmax := p.cbs * 65536
  let emax := p.ebs * 65536
  let add := tokensOf dt p.cir
  if p.mode then
    { p with tc := min cmax (p.tc + add), te := min emax (p.te + tokensOf dt p.pir), last := now }
  else
    { p with tc := min cmax (p.tc + add), te := min emax (p.te + (p.tc + add - cmax)), last := now }

/-- The colour of a frame: 0 green, 1 yellow, 2 red, with the buckets after it (RFC 2697, RFC 2698). -/
def Policer.mark (p : Policer) (pre len : Nat) : Nat × Policer :=
  let b := len * 65536
  if p.mode then
    if pre ≥ 2 ∨ p.te < b then (2, p)
    else if pre = 1 ∨ p.tc < b then (1, { p with te := p.te - b })
    else (0, { p with te := p.te - b, tc := p.tc - b })
  else if pre = 0 ∧ b ≤ p.tc then (0, { p with tc := p.tc - b })
  else if pre ≤ 1 ∧ b ≤ p.te then (1, { p with te := p.te - b })
  else (2, p)

/-- The pre-colour of a DSCP from FLU_CMAP; 3 acts as red. -/
def Dev.preColour (d : Dev) (dscp : Nat) : Nat := min 2 (bits (d.fld (F.FLU_CMAP_COLOUR (dscp / 16)) 0) (2 * (dscp % 16)) 2)

/-- Police a frame (R245): passed with an optional DSCP rewrite, or dropped. -/
def Dev.police (d : Dev) (die : Die) (n len : Nat) (dscp : Option Nat) : Option (Option Nat) × Dev :=
  let k := die.num * 16384 + n
  let p := tblGetD d.path.policers k Policer.init
  if !p.en then (some none, d.polCount die n 0)
  else
    let pre := match p.aware, dscp with
      | true, some x => d.preColour x
      | _, _ => 0
    let r := (p.refill d.ns).mark pre len
    let d := { d with path := { d.path with policers := tblPut d.path.policers k r.2 } }
    let d := d.polCount die n r.1
    match r.1 with
    | 0 => (some none, d)
    | 1 => if p.yellow = 0 then (some none, d)
      else if p.yellow = 1 then (some (some p.yDscp), d)
      else (none, d.polCount die n 3)
    | _ => if p.red = 1 then (some (some p.rDscp), d) else (none, d.polCount die n 3)

/-- FLU_POL_CFG written for the selected policer (R246): the staged values and the configuration are committed and
the buckets filled, or the commit is discarded and counted. -/
def Dev.polCommit (d : Dev) (port : Nat) (val : W32) : Dev :=
  let k := d.fld F.FLU_POL_SEL_DIE port * 16384 + d.fld F.FLU_POL_SEL_POLICER port
  let n := val.toNat
  let cir := d.fld F.FLU_POL_CIR_MBPS k
  let pir := d.fld F.FLU_POL_PIR_MBPS k
  let cbs := d.fld F.FLU_POL_CBS_BYTES k
  let ebs := d.fld F.FLU_POL_EBS_BYTES k
  let mode := bit n 1
  if (mode && (pir < cir || ebs = 0 || cbs = 0)) || (!mode && cbs = 0 && ebs = 0) then d.count itFluDiscard
  else
    let d := d.setFld F.FLU_POL_CFG_EN k (bits n 0 1)
    let d := d.setFld F.FLU_POL_CFG_MODE k (bits n 1 1)
    let d := d.setFld F.FLU_POL_CFG_AWARE k (bits n 2 1)
    let d := d.setFld F.FLU_POL_CFG_YELLOW k (bits n 3 2)
    let d := d.setFld F.FLU_POL_CFG_RED k (bits n 5 2)
    let d := d.setFld F.FLU_POL_CFG_Y_DSCP k (bits n 7 6)
    let d := d.setFld F.FLU_POL_CFG_R_DSCP k (bits n 13 6)
    let p : Policer := ⟨bit n 0, mode, bit n 2, bits n 3 2, bits n 5 2, bits n 7 6, bits n 13 6, cir, pir, cbs, ebs,
      cbs * 65536, ebs * 65536, d.ns⟩
    { d with path := { d.path with policers := tblPut d.path.policers k p } }

/-! ### Observation (R247) -/

/-- Queues bound to a port. -/
def Dev.boundTo (d : Dev) (port : Nat) : List (Nat × BQueue) :=
  d.path.queues.filter (fun e => match e.2.bound with
    | some (p, _, _) => p = port
    | none => false)

/-- The body of a QSAMPLE record (Table 15.3, TYPE 2). -/
def Dev.sampleBody (d : Dev) (e : Nat × BQueue) : List Byte :=
  let b := e.2.bound.getD (0, 0, 0)
  let delay := match e.2.head with
    | some f => min (d.ns - f.noticed).toNat (2 ^ 32 - 1)
    | none => 0
  le 4 e.1 ++ le 1 b.1 ++ le 1 b.2.1 ++ zeros 2 ++ le 4 e.2.depth ++ le 4 delay ++ le 4 ((e.2.hwm + 63) / 64) ++
  zeros 12

/-- A sampling period of a port begins. -/
def Dev.queueSample (d : Dev) (port : Nat) : Dev :=
  let qs := d.boundTo port
  if qs.length ≤ 4096 then
    let d := { d with path := { d.path with notSampling := d.path.notSampling.filter (· != port) } }
    (qs.filter (fun e => !e.2.frames.isEmpty)).foldl
      (fun d e => d.record 2 (0x100 + (portDie port).num) (d.sampleBody e)) d
  else { d with path := { d.path with notSampling := addOnce d.path.notSampling port } }

end Sys2Proof.Machine
end

