-- ==== Sys2Proof/Machine/Sync.lean ====
section
/-! DEFINITION. Kerf-36 cores as a whole and their sync counters: signals, saturation, waits and their release
(11_kerf_cores R332, R345 to R349). -/

namespace Sys2Proof.Machine

/-! ### Cores (Table 11.1) -/

/-- A core that holds nothing. -/
def Core.init : Core :=
  { state := .off, regs := [], pc := 0, waitLen := 0, ie := false, exl := false, rep := false, sate := false, smpe := false,
    epc := 0, ecause := 0, eval := 0, evalh := 0, evec := 0, repcnt := 0, cycleHi := 0, ringHi := 0, segs := [],
    crcSel := 0, crcPoison := false, crcRun := 0, srSeed := 0, srStream := 0, srIndex := 0, smpEvent := 0, mem := [],
    ctrs := [], queues := [], exc := 0, pre := none, savedRepx := false, logical := 0xFF, job := .none_,
    satPend := none, smpPend := false, mboxPend := false }

/-- A core by its ID. -/
def Dev.core (d : Dev) (c : Nat) : Core := tblGetD d.kerf.cores c Core.init

/-- Put a core. -/
def Dev.setCore (d : Dev) (c : Nat) (k : Core) : Dev :=
  { d with kerf := { d.kerf with cores := tblPut d.kerf.cores c k } }

/-- Change a core. -/
def Dev.modCore (d : Dev) (c : Nat) (f : Core → Core) : Dev := d.setCore c (f (d.core c))

/-- The core is a sequencer core. -/
def isSeq (c : Nat) : Bool := 0x80 ≤ c && c < 0xC0

/-- Local memory words of a core. -/
def localWords (c : Nat) : Nat := if c < 0xC0 then 65536 else if c < 0xC8 then 32768 else 262144

/-- The cluster of a core. -/
def clusterOf (c : Nat) : Nat :=
  if c < 0xC0 then c / 8 else if c < 0xC8 then 24 + (c - 0xC0) / 2 else 28 + (c - 0xC8)

/-- The I/O die whose SRAM a core reaches (Table 5.2). -/
def coreIo (c : Nat) : Option Die :=
  if c < 0x40 ∨ c = 0xC8 then some .west else if c < 0x80 ∨ c = 0xC9 then some .east else none

/-- The plan slot of a sequencer core's program. -/
def Job.slot : Job → Option Nat
  | .none_ => none
  | .step s => some s
  | .opt s _ => some s

/-- The plan whose cores hold a sequencer core. -/
def Dev.planOfCore (d : Dev) (c : Nat) : Option Nat :=
  (d.mill.plans.find? (fun e => e.2.cores.contains c)).map (·.1)

/-! ### Counters -/

/-- A counter at 0. -/
def SyncCtr.init : SyncCtr := { count := 0, satHi := false, satLo := false, waits := [], lastSig := 0 }

/-- A counter of a core. -/
def Core.ctr (k : Core) (n : Nat) : SyncCtr := tblGetD k.ctrs n SyncCtr.init

/-- Put a counter of a core. -/
def Core.setCtr (k : Core) (n : Nat) (v : SyncCtr) : Core := { k with ctrs := tblPut k.ctrs n v }

/-- Change a counter of a core. -/
def Dev.modCtr (d : Dev) (c n : Nat) (f : SyncCtr → SyncCtr) : Dev :=
  d.modCore c (fun k => k.setCtr n (f (k.ctr n)))

/-- A counter of the core saturated (R347): it is counted, and SYNC_SAT pends while SATE is 1. -/
def Dev.saturated (d : Dev) (c n : Nat) : Dev :=
  (d.count 0x701).modCore c (fun k =>
    if k.sate && k.satPend.isNone then { k with satPend := some n } else k)

/-- Stamp the last signal of a counter by the Ring of the core's die; while the stamps of the die are withheld the request
is held (R40). -/
def Dev.stampSignal (d : Dev) (c n : Nat) : Dev :=
  if d.stampHeld (coreNode c) then { d with ring := { d.ring with owed := d.ring.owed ++ [(c, n)] } }
  else d.modCtr c n (fun v => { v with lastSig := d.dieStamp (coreNode c) })

/-- The held requests of a die whose stamps are no longer withheld are served, in order. -/
def Dev.payStamps (d : Dev) : Dev :=
  let due := d.ring.owed.filter (fun e => !d.stampHeld (coreNode e.1))
  due.foldl (fun d e => d.modCtr e.1 e.2 (fun v => { v with lastSig := d.dieStamp (coreNode e.1) }))
    { d with ring := { d.ring with owed := d.ring.owed.filter (fun e => d.stampHeld (coreNode e.1)) } }

/-- One signal to a counter (R345, R347). -/
def Dev.signal (d : Dev) (c n : Nat) : Dev :=
  let v := (d.core c).ctr n
  if v.count ≥ 65535 then
    ((d.modCtr c n (fun v => { v with satHi := true })).stampSignal c n).saturated c n
  else (d.modCtr c n (fun v => { v with count := v.count + 1 })).stampSignal c n

/-- A signal from a die to a counter of a core: a message between dies, which waits at its source while their old route is
drained (R27). -/
def Dev.signalFrom (d : Dev) (src : Node) (c n : Nat) : Dev :=
  match d.heldLink src (coreNode c) with
  | some k => d.holdMsg k c n
  | none => d.signal c n

/-- The old route of a link is drained, and the messages held for it go out on the new one in the order sent (R27). -/
def Dev.rerouteRelease (d : Dev) (k : Nat) : Dev :=
  let due := d.links.msgs.filter (fun m => m.1 == k)
  due.foldl (fun d m => d.signal m.2.1 m.2.2)
    { d with links := { d.links with held := d.links.held.filter (· != k), msgs := d.links.msgs.filter (fun m => m.1 != k) } }

/-- ADJC (R345, R347). -/
def Dev.adjust (d : Dev) (c n : Nat) (a : Int) : Dev :=
  let v : Int := ((d.core c).ctr n).count + a
  if v > 65535 then (d.modCtr c n (fun v => { v with count := 65535, satHi := true })).saturated c n
  else if v < 0 then (d.modCtr c n (fun v => { v with count := 0, satLo := true })).saturated c n
  else d.modCtr c n (fun u => { u with count := v.toNat })

/-- Begin a wait (R346). -/
def Dev.beginWait (d : Dev) (c n : Nat) (w : Waiter) : Dev :=
  d.modCtr c n (fun v => { v with waits := v.waits ++ [w] })

/-- The waiter that goes on: the owning core, or the head of a queue. -/
def Core.released (k : Core) (num : Nat) : Core :=
  if num = 0 then (if k.state = .waitSync then { k with state := .running, pc := (k.pc + k.waitLen) % 2 ^ 19 } else k)
  else
    let q := if num = 1 then 2 else num - 2
    { k with queues := tblMod k.queues q (fun ops => match ops with
        | o :: rest => { o with released := true } :: rest
        | [] => []) }

/-- Consuming waiters take one each, those that began first going first (R346). -/
def consume : Nat → List Waiter → Nat × List Nat × List Waiter
  | n, [] => (n, [], [])
  | n, w :: ws =>
    if !w.observing && n ≥ 1 then
      let r := consume (n - 1) ws
      (r.1, w.num :: r.2.1, r.2.2)
    else
      let r := consume n ws
      (r.1, r.2.1, w :: r.2.2)

/-- The arbitration of a cycle on one counter (R346): observing waiters whose threshold is reached, then
consuming ones. -/
def Dev.waitRelease (d : Dev) (c n : Nat) : Dev :=
  let v := (d.core c).ctr n
  let obs := v.waits.filter (fun w => w.observing && w.t ≤ v.count)
  let rest := v.waits.filter (fun w => !(w.observing && w.t ≤ v.count))
  let r := consume v.count rest
  d.modCore c (fun k =>
    let k := k.setCtr n { v with count := r.1, waits := r.2.2 }
    (obs.map (·.num) ++ r.2.1).foldl Core.released k)

/-- Signal the counters that the SYNC section of a plan binds to a role (Table 4.15, R353). -/
def Dev.signalRole (d : Dev) (slot role level arg : Nat) : Dev :=
  match tblGet d.mill.plans slot with
  | some p => (p.cfg.syncs.filter (fun s => s.role = role && s.level = level && (role = 4 || s.arg = arg))).foldl
      (fun d s => d.signal (p.cores.getD s.lcore 0) s.counter) d
  | none => d

/-- Clear the counts of a plan (R154): counters 0 to 39 of its cores; flags and waiters stay (R347). -/
def Dev.clearPlanCtrs (d : Dev) (slot : Nat) : Dev :=
  match tblGet d.mill.plans slot with
  | some p => p.cores.foldl (fun d c => d.modCore c (fun k =>
      { k with ctrs := tblMap k.ctrs (fun n v => if n < 40 then { v with count := 0 } else v) })) d
  | none => d

end Sys2Proof.Machine
end

