-- ==== Sys2Proof/Machine/SkidCtx.lean ====
section
/-! DEFINITION. Queue-pair contexts, the context cache and its backing store, completion queues and regions
(06_skid_transport R184 to R193, R205 to R208). -/

namespace Sys2Proof.Machine

/-! ### Fields of a context (Table 6.3) -/

/-- A field of a context: low bit and width. -/
structure CF where
  lo : Nat
  w : Nat
  deriving DecidableEq, Repr

def cVersion : CF := ⟨0, 16⟩
def cState : CF := ⟨16, 8⟩
def cMode : CF := ⟨24, 8⟩
def cQpn : CF := ⟨32, 24⟩
def cDestQpn : CF := ⟨64, 24⟩
def cSlice : CF := ⟨96, 9⟩
def cDstNode : CF := ⟨112, 16⟩
def cDgid : CF := ⟨128, 128⟩
def cDmac : CF := ⟨256, 48⟩
def cVlan : CF := ⟨304, 16⟩
def cDscp : CF := ⟨320, 6⟩
def cTc : CF := ⟨328, 3⟩
def cPmtu : CF := ⟨336, 8⟩
def cPaths : CF := ⟨344, 8⟩
def cSport : CF := ⟨352, 16⟩
def cPort : CF := ⟨368, 5⟩
def cAccess : CF := ⟨376, 4⟩
def cKeySlot : CF := ⟨384, 12⟩
def cPeerSession : CF := ⟨400, 12⟩
def cRetry : CF := ⟨416, 3⟩
def cRnrRetry : CF := ⟨420, 3⟩
def cRnrTimer : CF := ⟨424, 5⟩
def cRtoMin : CF := ⟨432, 16⟩
def cSqPsn : CF := ⟨448, 24⟩
def cUna : CF := ⟨480, 24⟩
def cEpsn : CF := ⟨512, 24⟩
def cSqMsn : CF := ⟨544, 24⟩
def cRqMsn : CF := ⟨576, 24⟩
def cQkey : CF := ⟨608, 32⟩
def cSqAddr : CF := ⟨640, 64⟩
def cRqAddr : CF := ⟨704, 64⟩
def cSqIdx : CF := ⟨768, 16⟩
def cSqLog2 : CF := ⟨784, 5⟩
def cRqIdx : CF := ⟨800, 16⟩
def cRqLog2 : CF := ⟨816, 5⟩
def cScqn : CF := ⟨832, 20⟩
def cRcqn : CF := ⟨864, 20⟩
def cSqComp : CF := ⟨896, 32⟩
def cRqComp : CF := ⟨928, 32⟩
def cRdReq : CF := ⟨960, 8⟩
def cRdRsp : CF := ⟨968, 8⟩
def cPlan : CF := ⟨976, 6⟩
def cPd : CF := ⟨992, 24⟩
def cRc : CF := ⟨1024, 32⟩
def cRt : CF := ⟨1056, 32⟩
def cPress : CF := ⟨1088, 4⟩
def cSg : CF := ⟨1104, 8⟩
def cCcBytes : CF := ⟨1120, 32⟩
def cCcLast : CF := ⟨1152, 32⟩
def cSrtt : CF := ⟨1184, 32⟩
def cRttvar : CF := ⟨1216, 32⟩
def cRetryLeft : CF := ⟨1248, 3⟩
def cRnrLeft : CF := ⟨1252, 3⟩
def cBackoff : CF := ⟨1256, 8⟩
def cTrk : CF := ⟨1264, 16⟩
def cSbd : CF := ⟨1280, 16⟩
def cCnpLast : CF := ⟨1296, 32⟩
def cPathDown : CF := ⟨1408, 128⟩
def cPathHold : CF := ⟨1536, 128⟩

/-- States of a queue pair (Table 6.3). -/
def qsReset : Nat := 0
def qsInit : Nat := 1
def qsRtr : Nat := 2
def qsRts : Nat := 3
def qsSqd : Nat := 4
def qsSqe : Nat := 5
def qsErr : Nat := 6

/-- The value of a field. -/
def Qp.f (q : Qp) (c : CF) : Nat := bits q.ctx.toNat c.lo c.w

/-- Set a field. -/
def Qp.put (q : Qp) (c : CF) (v : Nat) : Qp := { q with ctx := BitVec.ofNat 2048 (putBits q.ctx.toNat c.lo c.w v) }

def Qp.isUd (q : Qp) : Bool := bit (q.f cMode) 0
def Qp.isMp (q : Qp) : Bool := bit (q.f cMode) 1
def Qp.isSkid (q : Qp) : Bool := bit (q.f cMode) 2
def Qp.isColl (q : Qp) : Bool := bit (q.f cMode) 3
def Qp.isDiag (q : Qp) : Bool := bit (q.f cMode) 4
def Qp.isPinned (q : Qp) : Bool := bit (q.f cMode) 5

/-- Payload bytes of a packet. -/
def Qp.mtu (q : Qp) : Nat := 128 * 2 ^ q.f cPmtu

/-- A queue pair that holds nothing but a context. -/
def Qp.of (ctx : BitVec 2048) : Qp :=
  { ctx := ctx, cache := none, writeback := false, sqTail := 0, rqTail := 0, sq := [], sent := [], late := [], rr := 0,
    rrResp := 0, held := [], msgs := [], reqs := [], rxMsn := 0, fence := none, rq := [], rqNext := 0, unacked := 0,
    placed := [], atomics := [], rnr := none, cnpAt := none, tmos := [], probes := [], cutAt := none, bells := [] }

/-- A queue pair. -/
def Dev.qp (d : Dev) (n : Nat) : Option Qp := tblGet d.skid.qps n

/-- Change a queue pair. -/
def Dev.modQp (d : Dev) (n : Nat) (f : Qp → Qp) : Dev :=
  { d with skid := { d.skid with qps := tblMod d.skid.qps n f } }

/-- Items of Skid that are counted without a number (DESIGN CHOICE, log 11). -/
def itSkid (die : Die) (k : Nat) : Nat := 4096 + 0x200 + 128 * die.num + k
def skDropState : Nat := 0
def skDropTag : Nat := 1
def skDropWindow : Nat := 2
def skDropChain : Nat := 3
def skDropAbsent : Nat := 4
def skDropHdr : Nat := 5
def skTrigStep : Nat := 6
def skReportLost : Nat := 7
def skDropOption : Nat := 8
def skDropIcrc : Nat := 9
def skDropHeld : Nat := 10
def skDropSlice : Nat := 11

/-! ### The context cache (R190 to R193) -/

/-- Cached contexts of a die, by slot. -/
def Dev.cachedOn (d : Dev) (die : Die) : List (Nat × Qp) :=
  d.skid.qps.filter (fun e => e.2.cache.isSome && e.2.die == die)

/-- PINNED contexts of a die. -/
def Dev.pinnedOn (d : Dev) (die : Die) : Nat := ((d.cachedOn die).filter (fun e => e.2.isPinned)).length

/-- The lowest free slot of a die's cache. -/
def Dev.cacheSlot (d : Dev) (die : Die) : Option Nat :=
  let used := (d.cachedOn die).filterMap (fun e => e.2.cache)
  (List.range 65536).find? (fun k => k ∉ used)

/-- A context is busy while it has packets in Boom, outstanding requests or an active tracker. -/
def Dev.qpBusy (d : Dev) (q : Qp) : Bool :=
  !q.sq.isEmpty || !q.sent.isEmpty || !q.held.isEmpty || !q.msgs.isEmpty || !q.reqs.isEmpty ||
  (match q.cache with
    | some k => !(d.bq (queueKey q.die k)).frames.isEmpty
    | none => false)

/-- The backing store is in use. -/
def Dev.bsEn (d : Dev) : Bool := d.flag F.SKD_CTRL_BS_EN 0

/-- Port of the backing store. -/
def Dev.bsPort (d : Dev) : Nat := d.fld F.SKD_BS_CTRL_PORT 0

/-- Address of a backing-store entry (R191). -/
def Dev.bsAddr (d : Dev) (n : Nat) : Nat := d.fld F.SKD_BS_BASE_ADDR 0 + 320 * n

/-- Write a context to the backing store, sealed with its QPN as additional data (R191). -/
def Dev.bsWrite (d : Dev) (n : Nat) (die : Die) (ctx : BitVec 2048) : Dev :=
  if d.bsEn && n < d.fld F.SKD_BS_CTRL_COUNT 0 then
    match d.sealInternal (ikBacking die) (le 4 n) (le 256 ctx.toNat) with
    | (some (ctr, ct, tag), d) => d.dmaOwn d.bsPort (d.bsAddr n) (ct ++ le 6 ctr ++ zeros 10 ++ tag ++ zeros 32)
    | (none, d) => d
  else d

/-- Bind a context to a slot of its die's cache; Flume enforces its rate. -/
def Dev.bindQp (d : Dev) (n slot : Nat) : Dev :=
  match d.qp n with
  | none => d
  | some q =>
    (d.modQp n (fun q => { q with cache := some slot, writeback := false })).bindQueue q.die slot (q.f cPort) (q.f cTc)
      (q.f cSlice) (q.f cRc)

/-- Evict a context: it is written back, and its queue unbound. -/
def Dev.evictQp (d : Dev) (n : Nat) : Dev :=
  match d.qp n with
  | none => d
  | some q => match q.cache with
    | none => d
    | some k =>
      let d := (d.unbindQueue q.die k).bsWrite n q.die q.ctx
      d.modQp n (fun q => { q with cache := none, writeback := true })

/-- The context that the clock sweep takes next, with its slot: the first one from the hand on that is neither PINNED nor
busy (R190). -/
def Dev.victim (d : Dev) (die : Die) : Option (Nat × Nat) :=
  let hand := tblGetD d.skid.hand die.num 0
  let far := fun (k : Nat) => (k + 65536 - hand) % 65536
  ((d.cachedOn die).filter (fun e => !e.2.isPinned && !d.qpBusy e.2)).foldl (fun (a : Option (Nat × Nat)) e =>
    let k := e.2.cache.getD 0
    match a with
    | some (s, m) => if far k < far s then some (k, e.1) else some (s, m)
    | none => some (k, e.1)) none

/-- Bring a context into the cache of its die; without room another one leaves, if one can. Evictions stop while
the backing store cannot be reached (R193). -/
def Dev.cacheQp (d : Dev) (n : Nat) : Dev :=
  match d.qp n with
  | none => d
  | some q =>
    if q.cache.isSome then d
    else match d.cacheSlot q.die with
      | some k => d.bindQp n k
      | none =>
        if d.bsEn && d.canIssue d.bsPort .pf0 then
          match d.victim q.die with
          | some (k, m) =>
            let d := d.evictQp m
            ({ d with skid := { d.skid with hand := tblPut d.skid.hand q.die.num ((k + 1) % 65536) } }).bindQp n k
          | none => d
        else d

/-- Start the fetch of a context, unless it is being written back or treated as absent (R192, R193). -/
def Dev.fetchCtx (d : Dev) (n : Nat) : Dev :=
  if n ∈ d.skid.absent then d
  else match d.qp n with
    | some q => if q.writeback then d else d.readOwn d.bsPort (.context n) (d.bsAddr n) 320
    | none => d.readOwn d.bsPort (.context n) (d.bsAddr n) 320

/-! ### Addresses of a slice (R186, R261) -/

/-- The window of a slice that holds a range, by its port. -/
def Dev.iovaPort (d : Dev) (s addr len : Nat) (write : Bool) : Option Nat :=
  (((d.slice s).windows.filter (fun w => w.2.en && w.2.base ≤ addr && addr + len ≤ w.2.base + w.2.size &&
    (if write then w.2.write else w.2.read))).map (fun w => w.2.port)).head?

/-! ### Completion queues (R207, R208) -/

/-- The 32 B of a completion (Table 6.7). -/
def Cqe.image (c : Cqe) (phase : Bool) (ring : Nat) (stamp : W64) : List Byte :=
  le 8 c.wrId.toNat ++ le 4 c.bytes ++ le 4 (c.imm.getD 0).toNat ++ le 4 c.qpn ++ le 2 c.status ++ le 1 c.op ++
  le 1 (b2n phase + 2 * b2n c.imm.isSome + 4 * b2n c.poison + 8 * b2n c.late + 16 * ring + 64 * b2n c.reported) ++
  le 8 stamp.toNat

/-- A completion queue is full. -/
def Cq.full (c : Cq) : Bool := (c.written + 2 ^ 32 - c.head) % 2 ^ 32 ≥ 2 ^ c.log2

/-- Write a completion at the producer position of its queue, and raise the vector when it is armed. -/
def Dev.writeCqe (d : Dev) (n : Nat) (e : Cqe) : Dev :=
  match tblGet d.skid.cqs n with
  | none => d
  | some c =>
    let sl := d.slice c.slice
    let addr := c.addr + 32 * (c.written % 2 ^ c.log2)
    let phase := c.written / 2 ^ c.log2 % 2 == 0
    let d := match d.iovaPort c.slice addr 32 true with
      | some p => d.dmaSlice c.slice p addr (e.image phase d.ring.state.code d.stamp) [] false
      | none => d
    let d := if c.armed && c.vector < sl.vecCount then d.msix sl.home sl.kind (sl.vecBase + c.vector) else d
    { d with skid := { d.skid with cqs := tblPut d.skid.cqs n { c with written := (c.written + 1) % 2 ^ 32, armed := false } } }

/-- Post a completion: a full queue holds it (R208). -/
def Dev.postCqe (d : Dev) (n : Nat) (e : Cqe) : Dev :=
  match tblGet d.skid.cqs n with
  | none => d
  | some c =>
    if c.full || !c.held.isEmpty then
      { d with skid := { d.skid with cqs := tblPut d.skid.cqs n { c with held := c.held ++ [e] } } }
    else d.writeCqe n e

/-- Write held completions while there is room. -/
def Dev.releaseCqes (d : Dev) (n : Nat) : Nat → Dev
  | 0 => d
  | fuel + 1 => match tblGet d.skid.cqs n with
    | some c => match c.held with
      | e :: rest =>
        if c.full then d
        else (({ d with skid := { d.skid with cqs := tblPut d.skid.cqs n { c with held := rest } } }).writeCqe n e).releaseCqes n fuel
      | [] => d
    | none => d

/-- The queue takes another completion now. -/
def Dev.cqRoom (d : Dev) (n : Nat) : Bool :=
  match tblGet d.skid.cqs n with
  | some c => !c.full && c.held.isEmpty
  | none => true

/-- The zero-length reads of a group that have not ended: in a slot, waiting for one, or held (R206, R207). -/
def Dev.fenceOpen (d : Dev) (id : Nat) : Bool :=
  let ours := fun (r : ReadReq) => r.ini == .fence id
  d.ports.any (fun e =>
    e.2.slots.any (fun x => match x.2 with
      | .out r _ _ => ours r
      | .quarantined _ => false) ||
    e.2.waiting.any ours || [e.2.pf0, e.2.tenant].any (fun f => f.abandoned.any ours || f.heldReads.any ours))

/-- Issue a group of zero-length reads, at an address of each port, for which a queue pair waits. -/
def Dev.startFence (d : Dev) (n s : Nat) (reads : List (Nat × Nat)) : Dev :=
  let id := d.skid.nextFence
  let d : Dev := { d with skid := { d.skid with nextFence := id + 1 } }
  reads.foldl (fun d r => d.readSlice s r.1 (.fence id) r.2 0) (d.modQp n (fun q => { q with fence := some id }))

/-! ### Regions (R187) -/

/-- The region that an RKEY names for a slice, if the checks of R187 pass. -/
def Dev.region (d : Dev) (s : Nat) (rkey : W32) (pd va len right : Nat) : Option Mr :=
  match tblGet d.skid.mrs (bits rkey.toNat 0 24) with
  | some m =>
    if m.tag = bits rkey.toNat 24 8 ∧ m.slice = s ∧ m.pd = pd ∧ m.base ≤ va ∧ va + len ≤ m.base + m.len ∧
       bit m.rights right then some m
    else none
  | none => none

/-- The pool address of a byte offset in a slice's pages. -/
def Dev.slicePageAddr (d : Dev) (s off : Nat) : Option Nat :=
  (tblGet d.skid.pages (s * 2 ^ 20 + off / pageBytes)).map (fun p => d.pageAddr p + off % pageBytes)

/-- The pieces, address and length, of a range of a slice's pages: a new one at each page. -/
def Dev.slicePieces (d : Dev) (s off len : Nat) : Option (List (Nat × Nat)) :=
  if len = 0 then some []
  else ((List.range ((off + len - 1) / pageBytes + 1 - off / pageBytes)).map (fun k =>
      let lo := max off ((off / pageBytes + k) * pageBytes)
      (lo, min (off + len) ((off / pageBytes + k + 1) * pageBytes) - lo))).mapM
    (fun e => (d.slicePageAddr s e.1).map (fun a => (a, e.2)))

/-- Granule marks of a payload moved to the granules of an address. -/
def alignMarks (addr len : Nat) (ms : List Bool) : List Bool :=
  if ms.any (fun b => b) then
    (List.range ((addr + len - 1) / 64 + 1 - addr / 64)).map (fun g =>
      (List.range ((len + 63) / 64)).any (fun i => ms.getD i false &&
        (addr + 64 * i) / 64 ≤ addr / 64 + g && addr / 64 + g ≤ (addr + min len (64 * i + 64) - 1) / 64))
  else []

/-- Write a piece of a payload, from byte `off` of it on, to package memory; the marks are those of the payload's granules. -/
def Dev.memPiece (d : Dev) (a off : Nat) (bs : List Byte) (ms : List Bool) : Dev :=
  let first := off / 64
  (List.range ((off % 64 + bs.length + 63) / 64)).foldl (fun d i =>
    let lo := max off (64 * (first + i)) - off
    let hi := min (off + bs.length) (64 * (first + i) + 64) - off
    d.memWrite (a + lo) ((bs.drop lo).take (hi - lo)) (ms.getD (first + i) false)) d

/-- Write a payload to pieces of package memory in turn. -/
def Dev.memPlace (d : Dev) (parts : List (Nat × Nat)) (bs : List Byte) (ms : List Bool) : Dev :=
  (parts.foldl (fun (r : Dev × Nat) p => (r.1.memPiece p.1 r.2 ((bs.drop r.2).take p.2) ms, r.2 + p.2)) (d, 0)).1

/-- The bytes of pieces of package memory. -/
def Dev.memBytes (d : Dev) (parts : List (Nat × Nat)) : List Byte := (parts.map (fun p => d.mem.read p.1 p.2)).flatten

/-- The marks of the granules of a payload that pieces of package memory hold: the mark of granule `i` is set when one of its
bytes lies in a marked granule (R196). -/
def Dev.memMarks (d : Dev) (parts : List (Nat × Nat)) : List Bool :=
  let n := (parts.map (·.2)).sum
  (List.range ((n + 63) / 64)).map (fun i =>
    (parts.foldl (fun (r : Bool × Nat) p =>
      let lo := max r.2 (64 * i)
      let hi := min (r.2 + p.2) (64 * i + 64)
      (r.1 || (lo < hi && d.mem.poisoned (p.1 + (lo - r.2)) (hi - lo)), r.2 + p.2)) (false, 0)).1)

end Sys2Proof.Machine
end

