-- ==== Sys2Proof/Machine/PlanFail.lean ====
section
/-! DEFINITION. The failure of a plan and what stops with it (04_collectives R155 to R158, 06 R212). -/

namespace Sys2Proof.Machine

/-- A plan of a slot. -/
def Dev.plan (d : Dev) (slot : Nat) : Option Plan := tblGet d.mill.plans slot

/-- Change a plan. -/
def Dev.modPlan (d : Dev) (slot : Nat) (f : Plan → Plan) : Dev :=
  { d with mill := { d.mill with plans := tblMod d.mill.plans slot f } }

/-- The digest field of messages: the first three bytes of the plan digest. -/
def Plan.digest3 (p : Plan) : BitVec 24 := BitVec.ofNat 24 (unle ((be 32 p.digest.toNat).take 3))

/-- Node IDs of the plan peers of a plan, each once. -/
def Plan.peers (p : Plan) : List Nat :=
  ((planPeers p.cfg.sched p.rank).map (·.1)).foldl addOnce []

/-- The latest phase running in a plan (Table 4.1). -/
def Plan.phase (p : Plan) : Nat := (p.streams.map (·.phase)).foldl max 0

/-- An exchange before its first round. -/
def Prog.start : Prog := ⟨0, 0, [], []⟩

/-- Write-backs of residuals complete (R89). -/
def StreamSt.keepResid (s : StreamSt) : StreamSt :=
  { s with resid := s.residNew.foldl (fun r e => putEls r e.1 e.2) s.resid, residNew := [] }

/-- A stream of a step that is over: what the step received or worked on is gone; latches, residuals and
optimizer state stay (R112, R157). -/
def StreamSt.clear (s : StreamSt) : StreamSt :=
  { s.keepResid with
    phase := 0, ended := false, nodeSum := [], sourced := 0, acc := [], red := .start, early := [], wire := [], fetched := [],
    upd := none, grad := [], lowStep := 0, lowBad := false, outp := [], gat := .start, ready := [] }

/-- INTAKE of a stream has started in the run of the step that is under way, or one of its later phases. -/
def Plan.took (p : Plan) : Bool := p.streams.any (fun s => s.phase != 0)

/-- The work of a plan's step stops: a device that only served its θ for a step it has ended is in its own step again
(Table 4.17). Embedding descriptors run beside the step and go on; in FAILED they complete with
PEER_FAILED (R153). -/
def Plan.stopWork (p : Plan) : Plan :=
  { p with
    step := if p.serving then p.step + 1 else p.step, serving := false, nextRedo := false
    armed := false, scal := none, startX := none, preDone := false, postDone := false, maxima := [], earlyS := [],
    running := [], streams := p.streams.map StreamSt.clear,
    groups := p.groups.map (fun g => { g with started := false, done := false }) }

/-- Free every trigger entry of a plan slot, or those of one step byte (R212). -/
def Dev.freeTriggers (d : Dev) (slot : Nat) (step : Option Nat) : Dev :=
  { d with skid := { d.skid with trig := d.skid.trig.filter (fun t =>
      !(t.slot = slot && (match step with
        | some b => bits t.name.toNat 24 8 = b
        | none => true))) } }

/-- Status codes of send queues (Table 6.8). -/
def stFlush : Nat := 0x0120
def stLocLen : Nat := 0x0121
def stLocProt : Nat := 0x0122
def stLocQp : Nat := 0x0123
def stRemAccess : Nat := 0x0124
def stRemInv : Nat := 0x0125
def stRemOp : Nat := 0x0126
def stRetryExc : Nat := 0x0127
def stRnrExc : Nat := 0x0128
def stWaitBroken : Nat := 0x0129
def stPoison : Nat := 0x012A
def stKeyExhausted : Nat := stExhausted

/-- DISARMED work requests of a plan that are still held complete with FLUSH_ERR (R212). -/
def Dev.flushDisarmed (d : Dev) (slot : Nat) : Dev :=
  { d with skid := { d.skid with qps := tblMap d.skid.qps (fun _ q =>
      if q.isColl ∧ q.f cPlan = slot then
        { q with sq := q.sq.map (fun e =>
          if e.w.disarmed ∧ e.st = .held then { e with st := .done, status := stFlush } else e) }
      else q) } }

/-- The programs of a plan stop on their cores. -/
def Dev.haltCores (d : Dev) (slot : Nat) : Dev :=
  match d.plan slot with
  | some p => p.cores.foldl (fun d c => d.modCore c (fun k =>
      { k with state := if k.state = .off then .off else .halted, queues := [], pre := none, job := .none_,
               ctrs := tblMap k.ctrs (fun _ v => { v with waits := [] }) })) d
  | none => d

/-- The header of a message that a device sends in a plan (Table 4.5): type, level, stream number, T and first element. -/
def Plan.header (p : Plan) (node type level stream : Nat) (tscale : W32) (first : Nat) : List Byte :=
  le 2 0x0100 ++ le 1 type ++ le 1 level ++ le 2 p.cfg.planId.toNat ++ le 2 node ++ le 8 p.step.toNat ++ le 4 stream ++
  le 4 tscale.toNat ++ le 8 (first + p.digest3.toNat * 2 ^ 40)

/-- Send a message of a plan to a node (R133). -/
def Dev.sendColl (d : Dev) (p : Plan) (node type level stream : Nat) (tscale : W32) (first : Nat) (body : CollBody) : Dev :=
  d.emit (.coll node (p.header d.node type level stream tscale first) body)

/-- The payload of an ABORT (R156). -/
def abortBytes (failed reason : Nat) (stamp : W64) : List Byte := le 2 failed ++ le 2 reason ++ zeros 4 ++ le 8 stamp.toNat

/-- Send an ABORT to each plan peer, at most once per step (R156). -/
def Dev.sendAborts (d : Dev) (slot failed reason : Nat) : Dev :=
  match d.plan slot with
  | some p =>
    if p.aborted then d
    else
      (p.peers.foldl (fun d n => d.sendColl p n 4 0 0 0 0 (.abort (abortBytes failed reason d.stamp))) d).modPlan slot (fun p => { p with aborted := true })
  | none => d

/-- A plan leaves RUNNING or STOPPING: its work stops, its trigger entries are freed and its held requests
flushed. -/
def Dev.leaveRunning (d : Dev) (slot : Nat) (st : PlanState) : Dev :=
  (((d.haltCores slot).modPlan slot (fun p => { p.stopWork with state := st })).freeTriggers slot none).flushDisarmed slot

/-- A running plan stands between two steps: none is armed, or the armed one is held and no INTAKE has started (R111, R315). -/
def Plan.between (p : Plan) : Bool := !p.armed || (p.held && !p.took)

/-- A plan enters FAILED (R157) with what its report keeps (Table 4.16). A deferred stop or start ends with it. -/
def Dev.planFail (d : Dev) (slot reason failed origin level : Nat) : Dev :=
  match d.plan slot with
  | some p =>
    let r : Failure := ⟨reason, failed, origin, p.step, p.phase, p.begun, p.applied, p.skipped, level, 0, d.stamp⟩
    let d := (d.leaveRunning slot .failed).modPlan slot (fun p => { p with fail := some r, stopOwner := none })
    let d := d.faultOpen 44 .contained slot 0
    match p.stopOwner with
    | some o => d.finish o stRefused rsWrongState []
    | none => d
  | none => d

/-- A failure that the device declares itself: it floods the ABORT, then the plan fails (R155, R156). -/
def Dev.declare (d : Dev) (slot reason failed level : Nat) : Dev :=
  match d.plan slot with
  | some p =>
    if p.state = .running ∨ p.state = .stopping then
      (d.sendAborts slot failed reason).planFail slot reason failed d.node level
    else d
  | none => d

end Sys2Proof.Machine
end

