-- ==== Sys2Proof/Machine/SkidTx.lean ====
section
/-! DEFINITION. Sending: packets and their sealing, work queue entries, completions, errors of a queue pair and
congestion control (06_skid_transport R185, R189, R194 to R205, R209 to R217). -/

namespace Sys2Proof.Machine

/-! ### Packets (R189, R194 to R196, R199) -/

/-- Where a packet goes: destination queue pair, node, session, and network fields. -/
structure Dest where
  qpn : Nat
  node : Nat
  sess : Nat
  net : NetHdr
  deriving DecidableEq, Repr

/-- The UDP source port of a path (R199). -/
def Qp.sport (q : Qp) (path : Nat) : Nat := 0xC000 + (q.f cSport + path) % 16384

/-- The destination of a queue pair's packets on a path. -/
def Dev.destOf (d : Dev) (q : Qp) (path : Nat) : Dest :=
  ⟨q.f cDestQpn, q.f cDstNode, q.f cPeerSession,
    ⟨BitVec.ofNat 48 (q.f cDmac), q.f cVlan, BitVec.ofNat 128 (q.f cDgid), q.f cDscp,
      if d.flag F.SKD_CTRL_ECT_EN 0 then 2 else 0, q.sport path⟩⟩

/-- The priority of a frame in its queue (Table 7.8): CNP, acknowledgement or report, retransmission, or first
transmission. -/
def framePrio (op : Nat) (again : Bool) : Nat :=
  if op = 0x81 then 7 else if op = 0x11 ∨ op = 0xC1 ∨ op = 0xC0 then 6 else if again then 4 else 0

/-- Send one packet of a queue pair: sealed in Skid mode, closed by its ICRC, and put into its egress queue (R189, R194). False
when the key slot can seal no more. -/
def Dev.sendPkt (d : Dev) (n : Nat) (q : Qp) (p : SPkt) (psn path : Nat) (ackreq tracked again : Bool) (dst : Dest) :
    Bool × Dev :=
  match q.cache with
  | none => (true, d)
  | some slot =>
    let pz := p.poison.any (fun b => b)
    let pad := padOf p.payload.length
    let bth := bthBytes p.bth p.se ackreq pad dst.qpn psn
    let body := p.ext ++ p.payload ++ zeros pad
    let port := q.f cPort
    let r : Option (List Byte) × Dev :=
      if q.isSkid then
        let sxh := fun ctr => sxhBytes q.isMp pz ackreq path d.node dst.node dst.sess ctr p.msn p.msgLen p.offset
        match d.sealCtr q.die (q.f cKeySlot) (fun v => bth ++ sxh v) ((if pz then pxhBytes p.poison else []) ++ body) with
        | (some (v, ct, tag), d) => (some (bth ++ sxh v ++ ct ++ tag), d)
        | (none, d) => (none, d)
      else (some (bth ++ body), d)
    match r.1 with
    | none => (false, r.2)
    | some bs =>
      let net := netBytes port dst.net (bs.length + 4) (Config.ipFree n psn)
      (true, (r.2.enqueue q.die slot ⟨net ++ bs ++ icrcOf net bs, framePrio p.bth again, d.dieStamp (.io q.die),
        some (n, if tracked then some psn else none), none⟩).2)

/-- Send an untracked packet of a queue pair on a path (acknowledgements, NAKs, responses, CNPs, reports). -/
def Dev.sendAnswer (d : Dev) (n op psn path : Nat) (ext payload : List Byte) (poison : List Bool)
    (msn len off : Nat) : Dev :=
  match d.qp n with
  | some q => (d.sendPkt n q ⟨op, false, ext, payload, poison, msn, len, off⟩ psn path false false false (d.destOf q path)).2
  | none => d

/-- An RC REPORT to the peer, its status in the upper bits of the syndrome (R214). -/
def Dev.sendReport (d : Dev) (n status : Nat) : Dev :=
  match d.qp n with
  | some q => d.sendAnswer n 0xC0 (q.f cSqPsn) 0 (aeth (status % 32 * 8) (q.f cRqMsn)) [] [] 0 0 0
  | none => d

/-! ### Completions (R205, R208 to R210) -/

/-- Bytes that a completion of a send entry reports. -/
def SqEnt.bytes (e : SqEnt) : Nat :=
  if e.reported then e.got
  else if e.status ≠ stOk then 0
  else if e.op = 0x18 ∨ e.op = 0x19 ∨ e.op = 0x1A then 8
  else if e.op = 0x30 ∨ e.op = 0x31 ∨ e.op = 0x20 then 0
  else e.w.len

/-- Write the completion of a send entry and advance the consumer index and the completion count. Collective
queue pairs name no completion queue (Table 6.15) (DEDUCED, log 15). -/
def Dev.sqComplete (d : Dev) (n : Nat) (e : SqEnt) : Dev :=
  match d.qp n with
  | none => d
  | some q =>
    let ok := e.status = stOk
    let d := d.modQp n (fun q =>
      let q := q.put cSqIdx ((q.f cSqIdx + 1) % 65536)
      if ok then q.put cSqComp ((q.f cSqComp + 1) % 2 ^ 32) else q)
    if !q.isColl && (e.w.signaled || !ok) then
      d.postCqe (q.f cScqn) ⟨e.w.wrId, e.bytes, none, n, e.status, e.op, e.poison, false, e.reported⟩
    else d

/-- Write a receive completion (R200): the count advances with a status of OK. -/
def Dev.rqComplete (d : Dev) (n : Nat) (wrId : W64) (bytes : Nat) (imm : Option W32) (status : Nat)
    (poison reported : Bool) : Dev :=
  match d.qp n with
  | none => d
  | some q =>
    let d := if status = stOk ∧ !reported then
        d.modQp n (fun q => q.put cRqComp ((q.f cRqComp + 1) % 2 ^ 32)) else d
    if q.isColl then d
    else d.postCqe (q.f cRcqn) ⟨wrId, bytes, imm, n, status, 0x80, poison, false, reported⟩

/-! ### Errors (R205, R213 to R215) -/

/-- The entry is a held WAIT that watches a queue of `n`. -/
def SqEnt.waitsOn (n : Nat) (s : SqEnt) : Bool := s.st == .held && s.op == 0x30 && bits s.w.op2.toNat 0 24 == n

/-- Queue pairs that hold a WAIT on a queue of `n` (R210), with the index of the first such entry. -/
def Dev.waitersOf (d : Dev) (n : Nat) : List (Nat × Nat) :=
  (d.skid.qps.filter (fun e => e.1 != n && e.2.sq.any (SqEnt.waitsOn n))).map (fun e => (e.1, e.2.sq.findIdx (SqEnt.waitsOn n)))

/-- Send entries at the entry to ERR: entry `i` is the cause and keeps its status, others that have not completed
are flushed. -/
def flushAt (i st : Nat) (es : List SqEnt) : List SqEnt :=
  es.mapIdx (fun k e =>
    if e.st = .done ∧ k ≠ i then e else { e with st := .done, status := if k = i then st else stFlush })

/-- Write the completions of every entry, in ring order. -/
def Dev.drainSq (d : Dev) (n : Nat) : Dev :=
  match d.qp n with
  | none => d
  | some q =>
    let d := q.sq.foldl (fun d e => d.sqComplete n e) d
    d.modQp n (fun q => { q with sq := [], sent := [] })

/-- Posted receive entries complete with FLUSH_ERR, in ring order. -/
def Dev.drainRq (d : Dev) (n : Nat) : Dev :=
  match d.qp n with
  | none => d
  | some q =>
    let d := q.rq.foldl (fun d e => d.rqComplete n e.2.wrId 0 none stFlush false false) d
    d.modQp n (fun q =>
      let q := q.put cRqIdx ((q.f cRqIdx + q.rq.length) % 65536)
      { q with rq := [], msgs := [], reqs := [], held := [], fence := none })

/-- The further completion of a queue pair that enters ERR with entries completed and not acknowledged (R205). -/
def Dev.lateCqe (d : Dev) (n : Nat) : Dev :=
  match d.qp n with
  | none => d
  | some q => match q.late with
    | [] => d
    | e :: _ =>
      let d := d.modQp n (fun q => { q with late := [] })
      if q.isColl then d else d.postCqe (q.f cScqn) ⟨e.wrId, 0, none, n, stRetryExc, e.op, false, true, false⟩

/-- A queue pair enters ERR (R213); the entry at index `i` of its send queue, if any, keeps the status. Its
trackers and scoreboards are returned. -/
def Dev.enterErr (d : Dev) (n : Nat) (cause : Option (Nat × Nat)) : Dev :=
  match d.qp n with
  | none => d
  | some q =>
    let sq := match cause with
      | some (i, st) => flushAt i st q.sq
      | none => flushAt q.sq.length 0 q.sq
    let d := d.modQp n (fun q =>
      let q := ((q.put cState qsErr).put cTrk 0).put cSbd 0
      { q with sq := sq, rnr := none, unacked := 0 })
    (((d.drainSq n).drainRq n).lateCqe n)

/-- The node that a queue pair reaches. -/
def Qp.peer (q : Qp) : Nat := q.f cDstNode

/-- A queue pair that returns to RESET: sequence state, queues and counts start over. -/
def Qp.toReset (q : Qp) : Qp :=
  let q := [cSqPsn, cUna, cEpsn, cSqMsn, cRqMsn, cSqIdx, cRqIdx, cSqComp, cRqComp, cTrk, cSbd, cBackoff, cPathDown,
    cPathHold, cPress, cSg, cCcBytes, cSrtt, cRttvar].foldl (fun q c => q.put c 0) q
  let q := ((q.put cState qsReset).put cRetryLeft (q.f cRetry)).put cRnrLeft (q.f cRnrRetry)
  { Qp.of q.ctx with cache := q.cache, writeback := q.writeback }

/-- What the entry of a collective queue pair to ERR does (R155, R211): a QP_ERROR of its plan while the plan
runs; during the start exchange the pair is connected again, through RESET. -/
def Dev.collErr (d : Dev) (n : Nat) (q : Qp) : Dev :=
  match d.plan (q.f cPlan) with
  | some p =>
    if p.startX.isSome then d.modQp n (fun q => q.toReset.put cState qsRts)
    else d.declare (q.f cPlan) 2 q.peer 0
  | none => d

/-- The entry at an index of a DIAG queue pair is reported, and its retransmit entries are freed (R214, R215). -/
def Dev.reportEntry (d : Dev) (n i status : Nat) : Dev :=
  match d.qp n with
  | none => d
  | some q => match q.sq[i]? with
    | none => d
    | some e =>
      let gone := fun (s : Sent) => (s.psn + 2 ^ 24 - e.psn) % 2 ^ 24 < e.npkt
      (d.modQp n (fun q => { q with
        sq := q.sq.set i { e with st := .done, status := stRemAccess, reported := true, got := status }
        sent := q.sent.filter (fun s => !gone s) })).sendReport n status

/-- Errors pass to the queue pairs whose WAIT watches the one in ERR (R210). The error of an entry of a DIAG queue pair is
reported, and its state stays (R214). -/
def Dev.qpErrors (d : Dev) : Nat → List (Nat × Option (Nat × Nat)) → Dev
  | 0, _ => d
  | _, [] => d
  | fuel + 1, (n, cause) :: rest =>
    match d.qp n with
    | none => d.qpErrors fuel rest
    | some q =>
      match cause, q.isDiag with
      | some (i, st), true => (d.reportEntry n i st).qpErrors fuel rest
      | _, _ =>
        if q.f cState = qsErr then d.qpErrors fuel rest
        else
          let ws := d.waitersOf n
          let d := d.enterErr n cause
          let d := if q.isColl then d.collErr n q else d
          d.qpErrors fuel (rest ++ ws.map (fun w => (w.1, some (w.2, stWaitBroken))))

/-- A fatal error of a queue pair (R213), or the error of an entry of a DIAG queue pair (R214). -/
def Dev.qpError (d : Dev) (n : Nat) (cause : Option (Nat × Nat)) : Dev :=
  d.qpErrors ((d.skid.qps.length + 1) * (d.skid.qps.length + 1)) [(n, cause)]

/-- WAITs that watch a queue pair that is destroyed break (R210). -/
def Dev.breakWaits (d : Dev) (n : Nat) : Dev :=
  d.qpErrors ((d.skid.qps.length + 1) * (d.skid.qps.length + 1)) ((d.waitersOf n).map (fun w => (w.1, some (w.2, stWaitBroken))))

/-- A send entry meets an error (R213, R214). -/
def Dev.entryError (d : Dev) (n i status : Nat) : Dev := d.qpError n (some (i, status))

/-! ### Packets of an entry (R194, R199; IBTA forms) -/

/-- The entry is a READ or an atomic. -/
def SqEnt.isFetch (e : SqEnt) : Bool := e.op == 0x10 || e.op == 0x18 || e.op == 0x19

/-- The entry is answered by the responder. -/
def SqEnt.answered (e : SqEnt) : Bool := e.isFetch || e.op == 0x20

/-- The entry carries payload packets. -/
def isData (op : Nat) : Bool := op == 0x00 || op == 0x01 || op == 0x08 || op == 0x09

/-- PSNs that an entry takes: its data packets, or those of the answer of a READ. -/
def Qp.psnsOf (q : Qp) (op len : Nat) : Nat :=
  if isData op ∨ op = 0x10 then max 1 ((len + q.mtu - 1) / q.mtu) else if op = 0x30 ∨ op = 0x31 then 0 else 1

/-- Packets that an entry sends. -/
def SqEnt.packets (e : SqEnt) : Nat := if e.op = 0x30 ∨ e.op = 0x31 then 0 else if isData e.op then e.npkt else 1

/-- BTH opcode of packet `i` of `n` of a SEND or WRITE: the ONLY form with multipath (R199) (PRESUMED, log 14). -/
def dataOpcode (op : Nat) (only : Bool) (first last : Bool) : Nat :=
  let imm := op == 0x01 || op == 0x09
  let b := if op = 0x00 ∨ op = 0x01 then 0x00 else 0x06
  if only || (first && last) then b + (if imm then 5 else 4)
  else if first then b else if last then b + (if imm then 3 else 2) else b + 1

/-- Packet `i` of an entry. -/
def Qp.packet (q : Qp) (e : SqEnt) (i : Nat) : SPkt :=
  let m := q.mtu
  let off := i * m
  if q.isUd then
    let imm := if e.op = 0x01 then be 4 e.w.imm.toNat else []
    ⟨if e.op = 0x01 then 0x65 else 0x64, e.w.solicited, deth (q.f cQkey) (q.f cQpn) ++ imm, e.src.bytes, e.src.poison,
      e.msn, e.w.len, 0⟩
  else if isData e.op then
    let first := i == 0
    let last := i + 1 == e.npkt
    let rh := if (e.op = 0x08 ∨ e.op = 0x09) ∧ (q.isMp ∨ first) then Reth.bytes ⟨e.w.raddr, e.w.rkey, e.w.len⟩ else []
    let im := if (e.op = 0x01 ∨ e.op = 0x09) ∧ (q.isMp ∨ last) then be 4 e.w.imm.toNat else []
    ⟨dataOpcode e.op q.isMp first last, last && e.op != 0x08 && e.w.solicited, rh ++ im, (e.src.bytes.drop off).take m, (e.src.poison.drop (off / 64)).take (m / 64),
      e.msn, e.w.len, off⟩
  else
    let r := Reth.bytes ⟨e.w.raddr, e.w.rkey, e.w.len⟩
    let at_ := atomicEth e.w.raddr e.w.rkey
    match e.op with
    | 0x10 => ⟨0x0C, false, r, [], [], e.msn, e.w.len, 0⟩
    | 0x18 => ⟨0x13, false, at_ e.w.op2 e.w.op1, [], [], e.msn, 8, 0⟩
    | 0x19 => ⟨0x14, false, at_ e.w.op1 0, [], [], e.msn, 8, 0⟩
    | 0x1A => ⟨0x1D, false, Reth.bytes ⟨e.w.raddr, e.w.rkey, 8⟩, be 8 e.w.op1.toNat, [], e.msn, 8, 0⟩
    | _ => ⟨0x1C, false, feth e.w.persist ++ r, [], [], e.msn, 0, 0⟩

/-! ### Paths and transmission (R199, R202, R203) -/

/-- The first path from `p` on that is free of both bits, or else only held, or else `p`. -/
def Qp.path (q : Qp) (p : Nat) : Nat :=
  let n := max 1 (q.f cPaths)
  if !q.isMp then 0
  else
    let ps := (List.range n).map (fun i => (p + i) % n)
    match ps.find? (fun i => !bit (q.f cPathDown) i && !bit (q.f cPathHold) i) with
    | some i => i
    | none => (ps.find? (fun i => !bit (q.f cPathDown) i)).getD (p % n)

/-- The path of the next new packet of the send queue: round-robin in PSN order from path 0 on (R199; DESIGN CHOICE, log 69). -/
def Qp.nextPath (q : Qp) : Nat := q.path q.rr

/-- Scoreboards in use on a die. -/
def Dev.sbdUsed (d : Dev) (die : Die) : Nat :=
  (d.skid.qps.filter (fun e => e.2.die == die && bit (e.2.f cSbd) 15)).length

/-- Retransmit payload on a die: what was sent and is not acknowledged (R204). -/
def Dev.storeUsed (d : Dev) (die : Die) : Nat :=
  ((d.skid.qps.filter (fun e => e.2.die == die)).map (fun e =>
    ((e.2.sent.filter (fun s => !s.sacked)).map (fun s => s.pkt.payload.length)).sum)).sum

/-- The retransmit store of a die has room for a payload: 7 MiB on the die and 2 GiB of overflow (R204; 05_memory,
"The on-die transport and retransmit store"). -/
def Dev.storeRoom (d : Dev) (die : Die) (n : Nat) : Bool := d.storeUsed die + n ≤ 7 * 2 ^ 20 + 2 ^ 31

/-- The queue pair may send another tracked packet (R202): below UNA_PSN + 4,096, one at a time without a
scoreboard, and with store space for a whole packet (DESIGN CHOICE, log 57). -/
def Dev.mayTrack (d : Dev) (q : Qp) (psn : Nat) : Bool :=
  d.storeRoom q.die q.mtu && (psn + 2 ^ 24 - q.f cUna) % 2 ^ 24 < 4096 &&
  (q.sent.isEmpty || bit (q.f cSbd) 15 || d.sbdUsed q.die < 8192)

/-- Take a scoreboard of the die, when one is free. -/
def Dev.takeSbd (d : Dev) (n : Nat) (q : Qp) : Dev :=
  if bit (q.f cSbd) 15 then d
  else
    let used := (d.skid.qps.filter (fun e => e.2.die == q.die && bit (e.2.f cSbd) 15)).map (fun e => bits (e.2.f cSbd) 0 14)
    match (List.range 8192).find? (fun k => k ∉ used) with
    | some k => d.modQp n (fun q => q.put cSbd (32768 + k))
    | none => d

/-- Send packet `i` of the entry at index `k`, tracked. False when the key is exhausted. -/
def Dev.sendNew (d : Dev) (n k i : Nat) : Bool × Dev :=
  match d.qp n with
  | none => (true, d)
  | some q => match q.sq[k]? with
    | none => (true, d)
    | some e =>
      let psn := (e.psn + i) % 2 ^ 24
      let path := q.nextPath
      let p := q.packet e i
      let d := d.takeSbd n q
      let dst := d.destOf q path
      let r := d.sendPkt n q p psn path (e.answered && e.op != 0x10) true false dst
      if r.1 then
        (true, r.2.modQp n (fun q => { q with
          sq := q.sq.set k { e with assigned := i + 1 }
          rr := path + 1
          sent := q.sent ++ [⟨psn, p, path, r.2.clk, d.dieStamp (.io q.die), 1, false, false⟩] }))
      else (false, r.2)

/-- Send a tracked packet again on a path (R202). -/
def Dev.resend (d : Dev) (n : Nat) (s : Sent) (path : Nat) : Dev :=
  match d.qp n with
  | none => d
  | some q =>
    let r := d.sendPkt n q s.pkt s.psn path false true true (d.destOf q path)
    if r.1 then
      r.2.modQp n (fun q => { q with sent := q.sent.map (fun t =>
        if t.psn = s.psn then { t with path := path, at_ := r.2.clk, stamp := d.dieStamp (.io q.die), times := t.times + 1 }
        else t) })
    else
      r.2.entryError n (q.sq.findIdx (fun e => (s.psn + 2 ^ 24 - e.psn) % 2 ^ 24 < e.npkt)) stKeyExhausted

/-! ### Running a send queue (R185, R205, R210 to R212) -/

/-- Messages of a name that have arrived for a plan, on either die (R211; DEDUCED, log 57). -/
def Dev.trigCount (d : Dev) (slot : Nat) (name : W32) : Nat :=
  ((d.skid.trig.filter (fun t => t.slot == slot && t.name == name)).map (·.count)).sum

/-- The WAIT condition of R210; none when the watched queue pair is absent or of another slice. -/
def Dev.waitReady (d : Dev) (q : Qp) (w : Wqe) : Option Bool :=
  match d.qp (bits w.op2.toNat 0 24) with
  | some t =>
    if t.f cSlice = q.f cSlice then
      let c := if bit w.op2.toNat 24 then t.f cRqComp else t.f cSqComp
      some ((c + 2 ^ 32 - bits w.op1.toNat 0 32) % 2 ^ 32 < 2 ^ 31)
    else none
  | none => none

/-- A malformed entry (R185). UD allows SEND only (Table 6.1). -/
def Qp.malformed (q : Qp) (op : Nat) (w : Wqe) : Bool :=
  !wqeOpcodes.contains op || w.reserved != 0 || (w.disarmed && !q.isColl) || (op == 0x30 && q.isColl) || w.len > 2147483648 ||
  (q.isUd && op != 0x00 && op != 0x01 && op != 0x30 && op != 0x31) || (q.isUd && w.len > q.mtu) ||
  ((op == 0x18 || op == 0x19 || op == 0x1A) && w.raddr % 8 != 0)

/-- The local access of an entry, for which LADDR must pass R186. -/
def needsLocal (op : Nat) : Bool := isData op || op == 0x10 || op == 0x18 || op == 0x19

/-- A range of fabric addresses lies in one memory that the die of a queue pair reaches inside the package (R186, Table 5.2). -/
def Dev.fabricRange (d : Dev) (die : Die) (a len : Nat) : Bool :=
  match d.decode (some die) a, d.decode (some die) (a + (len - 1)) with
  | .lpddr _, .lpddr _ => true
  | .stacked i _, .stacked j _ => i == j
  | .ioSram _ _, .ioSram _ _ => true
  | _, _ => false

/-- LADDR passes R186: in memory inside the package for a collective queue pair; else in a window of the slice, translated
where data is read. -/
def Dev.localOk (d : Dev) (q : Qp) (e : SqEnt) : Bool :=
  let len := if isData e.op ∨ e.op = 0x10 then e.w.len else 8
  if len = 0 then true
  else if q.isColl then d.fabricRange q.die e.w.laddr len
  else (d.iovaPort (q.f cSlice) e.w.laddr len (!isData e.op)).isSome && (!isData e.op || e.src.ok)

/-- The source data of an entry when it starts: memory inside the package for a collective queue pair, with its marks
(R186, R196); else what the device read over PCIe. -/
def Dev.sourceOf (d : Dev) (q : Qp) (e : SqEnt) : SrcData :=
  if q.isColl && isData e.op then ⟨true, d.mem.read e.w.laddr e.w.len, d.memMarks [(e.w.laddr, e.w.len)]⟩ else e.src

/-- What becomes of the first entry that has not started. -/
inductive Start where
  | hold
  | fail (status : Nat)
  | finish
  | go
  deriving DecidableEq, Repr

/-- The decision on an entry that every earlier one has started before. -/
def Dev.startOf (d : Dev) (q : Qp) (e : SqEnt) : Start :=
  let before := q.sq.takeWhile (fun x => x.st != .held)
  let fetches := (before.filter (fun x => x.isFetch && x.st == .active)).length
  if q.malformed e.op e.w then .fail stLocQp
  else if e.w.disarmed && d.trigCount (q.f cPlan) e.w.trigName < e.w.trigCount then .hold
  else if e.w.fence && fetches > 0 then .hold
  else match e.op with
    | 0x30 => match d.waitReady q e.w with
      | none => .fail stLocQp
      | some b => if b then .finish else .hold
    | 0x31 => if before.all (fun x => x.st == .done) then .finish else .hold
    | _ =>
      if e.isFetch && fetches ≥ max 1 (q.f cRdReq) then .hold
      else if needsLocal e.op && !d.localOk q e then .fail stLocProt
      else if !q.isSkid && e.src.poison.any (fun b => b) then .fail stPoison
      else if q.isUd && (match tblGet d.skid.ahs (e.w.raddr % 65536) with
          | some a => a.slice != q.f cSlice
          | none => true) then .fail stLocQp
      else .go

/-- Send a UD message: one packet to its address handle; nothing is tracked. -/
def Dev.sendUd (d : Dev) (n k : Nat) (q : Qp) (e : SqEnt) : Dev :=
  match tblGet d.skid.ahs (e.w.raddr % 65536) with
  | none => d
  | some a =>
    let dst : Dest := ⟨bits e.w.rkey.toNat 0 24, a.dstNode, q.f cPeerSession,
      ⟨a.dmac, a.vlan, a.dgid, a.dscp, if d.flag F.SKD_CTRL_ECT_EN 0 then 2 else 0, q.sport 0⟩⟩
    let psn := q.f cSqPsn
    let r := d.sendPkt n q (q.packet e 0) psn 0 false true false dst
    if r.1 then
      r.2.modQp n (fun q => { q.put cSqPsn ((psn + 1) % 2 ^ 24) with
        sq := q.sq.set k { e with st := .active, psn := psn, npkt := 1, assigned := 1 } })
    else r.2.entryError n k stKeyExhausted

/-- One action of a running send queue; none when nothing more can be done now. -/
def Dev.sqStep (d : Dev) (n : Nat) : Option Dev :=
  match d.qp n with
  | none => none
  | some q =>
    if q.f cState ≠ qsRts ∨ q.rnr.isSome ∨ q.cache.isNone then none
    else
      let k := q.sq.findIdx (fun e => e.st = .held ∨ (e.st = .active ∧ e.assigned < e.packets))
      match q.sq[k]? with
      | none => none
      | some e =>
        if e.st = .active then
          if d.mayTrack q ((e.psn + e.assigned) % 2 ^ 24) then
            let r := d.sendNew n k e.assigned
            if r.1 then some r.2 else some (r.2.entryError n k stKeyExhausted)
          else none
        else match d.startOf q e with
          | .hold => none
          | .fail st => some (d.entryError n k st)
          | .finish => some (d.modQp n (fun q => { q with sq := q.sq.set k { e with st := .done } }))
          | .go =>
            if q.isUd then some (d.sendUd n k q e)
            else
              let np := q.psnsOf e.op e.w.len
              some (d.modQp n (fun q =>
                let q' := (q.put cSqPsn ((q.f cSqPsn + np) % 2 ^ 24)).put cSqMsn ((q.f cSqMsn + 1) % 2 ^ 24)
                let src := d.sourceOf q e
                { q' with sq := q.sq.set k { e with
                    st := .active, src := src, poison := e.poison || src.poison.any (fun b => b), msn := q.f cSqMsn, psn := q.f cSqPsn, npkt := np } }))

/-- Run a send queue as far as it goes. -/
def Dev.runSq (d : Dev) (n : Nat) : Nat → Dev
  | 0 => d
  | fuel + 1 => match d.sqStep n with
    | some d' => d'.runSq n fuel
    | none => d

/-- Enough steps for the packets that a window and its entries allow. -/
def sqFuel : Nat := 16384

/-- Run the send queue of a queue pair. -/
def Dev.runQp (d : Dev) (n : Nat) : Dev := d.runSq n sqFuel

/-- The queue pair has an entry that waits for store space. -/
def Dev.waitsStore (d : Dev) (n : Nat) : Bool :=
  match d.qp n with
  | some q => !d.storeRoom q.die q.mtu && q.f cState == qsRts && q.rnr.isNone && q.cache.isSome &&
      q.sq.any (fun e => e.st == .active && e.assigned < e.packets)
  | none => false

/-- Store space of a die that was full is free again: the queue pairs that wait for it go on. -/
def Dev.wakeStore (d : Dev) (die : Die) (was : Bool) : Dev :=
  if was then ((d.skid.qps.filter (fun e => e.2.die == die)).map (·.1)).foldl Dev.runQp d else d

/-- Run every send queue that holds a WAIT: a completion count moved (R210). -/
def Dev.wakeWaits (d : Dev) : Dev :=
  ((d.skid.qps.filter (fun e => e.2.sq.any (fun s => s.op == 0x30 && s.st == .held))).map (·.1)).foldl Dev.runQp d

/-! ### Work queue entries as commands -/

/-- Entries posted to the send ring beyond those fetched; more than depth − 1 reads as empty (R256). -/
def Qp.posted (q : Qp) : Nat :=
  let n := (q.sqTail + 131072 - (q.f cSqIdx + q.sq.length)) % 65536
  if n + q.sq.length > 2 ^ q.f cSqLog2 - 1 then 0 else n

/-- New work is fetched (Table 8.10): the slice is ACTIVE, and its function issues requests. -/
def Dev.sliceFetches (d : Dev) (s : Nat) : Bool :=
  (d.slice s).state == .active && d.canIssue (d.slice s).home (d.slice s).kind && !d.fatal

/-- Address of the send ring entry that is fetched next (R185). -/
def Qp.sqEntry (q : Qp) : Nat := q.f cSqAddr + 64 * ((q.f cSqIdx + q.sq.length) % 2 ^ q.f cSqLog2)

/-- The device fetches one send entry and runs the queue. In ERR the entry completes with FLUSH_ERR (R213).
Without a posted entry, while a completion queue holds completions (R208), or while the slice holds its Boom quota
(R280), nothing is fetched. An entry whose ring address is in no window completes with LOC_PROT_ERR (R186). Entries of a
collective queue pair are posted by sequencer cores, in no ring of the host, while the plan is RUNNING or STOPPING. An entry
with a reserved opcode keeps it (R185). -/
def Dev.wqe (d : Dev) (n op : Nat) (w : Wqe) (src : SrcData) : Dev :=
  match d.qp n with
  | none => d
  | some q =>
    let can := if q.isColl then (match d.plan (q.f cPlan) with
        | some p => p.state == .running || p.state == .stopping
        | none => false) else q.posted > 0 && d.sliceFetches (q.f cSlice) && d.cqRoom (q.f cScqn) && d.cellRoom q.die (q.f cSlice)
    if !can || q.cache.isNone then d
    else
      let read := q.isColl || (d.iovaPort (q.f cSlice) q.sqEntry 64 false).isSome
      let w := if read then w else { w with wrId := Config.lostWrId n (q.f cSqIdx + q.sq.length) }
      let e : SqEnt := ⟨if wqeOpcodes.contains w.opcode then op else w.opcode, w, src, .held, 0, 0, 0, 0, 0, 0, [],
        src.poison.any (fun b => b), stOk, false⟩
      if q.f cState = qsErr then
        (d.modQp n (fun q => { q with sqTail := if q.isColl then (q.sqTail + 1) % 65536 else q.sqTail })).sqComplete n
          { e with status := stFlush }
      else if q.f cState = qsRts ∨ q.f cState = qsSqd then
        let d := (d.modQp n (fun q => { q with
          sq := q.sq ++ [e], sqTail := if q.isColl then (q.sqTail + 1) % 65536 else q.sqTail }))
        let d := (if read then d else d.entryError n q.sq.length stLocProt).runQp n
        if d.waitsStore n then d.count itStoreWait else d
      else d

/-- The condition of Table 6.6 for an entry that has started. -/
def SqEnt.complete (e : SqEnt) : Bool :=
  e.st == .done ||
  (e.st == .active && (isData e.op || e.op == 0x1A) && e.assigned ≥ e.packets && e.departed ≥ e.packets)

/-- The front entry of a send queue completes (R205): its CQE, its count, and what waits goes on. -/
def Dev.wqeComplete (d : Dev) (n : Nat) : Dev :=
  match d.qp n with
  | none => d
  | some q => match q.sq with
    | [] => d
    | e :: rest =>
      if e.complete then
        let last := (e.psn + max 1 e.npkt - 1) % 2 ^ 24
        let unacked := e.st = .active ∧ q.sent.any (fun s => s.psn = last)
        let d := d.modQp n (fun q => { q with
          sq := rest, late := if unacked then q.late ++ [⟨e.w.wrId, e.psn, last, e.op⟩] else q.late })
        ((d.sqComplete n e).runQp n).wakeWaits
      else d

/-! ### Acknowledgements and loss (R202, R203) -/

/-- `a` is at or before `b` in serial order (R218). -/
def atOrBefore (a b : Nat) : Bool := (b + 2 ^ 24 - a) % 2 ^ 24 < 2 ^ 23

/-- Update SRTT and RTTVAR with a sample in ns (R203); the first sample as RFC 6298 has it (PRESUMED, log 16). -/
def Qp.sample (q : Qp) (r : Nat) : Qp :=
  let s := q.f cSrtt
  if s = 0 then (q.put cSrtt r).put cRttvar (r / 2)
  else
    let v := q.f cRttvar
    let dlt := if s ≥ r then s - r else r - s
    (q.put cRttvar (v - v / 4 + dlt / 4)).put cSrtt (s - s / 8 + r / 8)

/-- The send entry of a PSN, if it has started and has not completed. -/
def Qp.entryAt (q : Qp) (psn : Nat) : Option SqEnt :=
  q.sq.find? (fun e => e.st != .held && (psn + 2 ^ 24 - e.psn) % 2 ^ 24 < e.npkt)

/-- A tracked request whose answer is still due: an acknowledgement of its PSN does not free it, since the request is sent
again when the answer is lost (R202, R204). -/
def Qp.awaits (q : Qp) (s : Sent) : Bool :=
  match q.entryAt s.psn with
  | some e => e.st == .active && e.answered
  | none => false

/-- Acknowledge PSNs up to `cum` and the ranges: store entries are freed, UNA_PSN advances. The round trip is taken from the
Ring stamps of packets sent once (R203). -/
def Dev.ackPsns (d : Dev) (n cum : Nat) (ranges : List (Nat × Nat)) : Dev :=
  match d.qp n with
  | none => d
  | some q =>
    let una := q.f cUna
    let next := (cum + 1) % 2 ^ 24
    let fwd := (next + 2 ^ 24 - una) % 2 ^ 24
    let adv : Bool := decide (0 < fwd) && decide (fwd ≤ (q.f cSqPsn + 2 ^ 24 - una) % 2 ^ 24)
    let inR := fun (p : Nat) => ranges.any (fun r => atOrBefore r.1 p && atOrBefore p r.2)
    let inC := fun (p : Nat) => adv && atOrBefore p cum
    let acked := q.sent.filter (fun s => inC s.psn || inR s.psn)
    let q' := acked.foldl (fun q s =>
      let q := { q with tmos := tblDel q.tmos s.path }
      if s.times = 1 ∧ !s.sacked then q.sample (d.dieStamp (.io q.die) - s.stamp).toNat else q) q
    let q' : Qp := { q' with
      sent := (q.sent.filter (fun s => !inC s.psn || q.awaits s)).map (fun s =>
        if inC s.psn || inR s.psn then { s with sacked := true } else s)
      late := if adv then q.late.filter (fun e => !atOrBefore e.last cum) else q.late }
    let q' := if adv then ((q'.put cUna next).put cBackoff 0).put cRetryLeft (q.f cRetry) else q'
    let q' := if q'.sent.isEmpty then q'.put cSbd 0 else q'
    ((d.modQp n (fun _ => q')).runQp n).wakeStore q.die (!d.storeRoom q.die 4096)

/-- The path after `p` for a retransmission (R202). -/
def Qp.after (q : Qp) (p : Nat) : Nat := q.path ((p + 1) % max 1 (q.f cPaths))

/-- Gaps older than REORDER_WIN below an acknowledged PSN are lost and sent again (R202). -/
def Dev.reorderExpiry (d : Dev) (n : Nat) : Dev :=
  match d.qp n with
  | none => d
  | some q =>
    let win := usTicks (max 1 (d.fld F.SKD_RETX_REORDER_WIN 0))
    let lost := q.sent.filter (fun s => !s.sacked && d.clk - s.at_ ≥ win && s.times = 1 &&
      q.sent.any (fun t => t.sacked && t.psn != s.psn && atOrBefore s.psn t.psn))
    if q.isSkid then lost.foldl (fun d s => d.resend n s (q.after s.path)) d else d

/-- The index of the send entry of a PSN. -/
def Qp.entryOf (q : Qp) (psn : Nat) : Nat := q.sq.findIdx (fun e => e.st != .held && (psn + 2 ^ 24 - e.psn) % 2 ^ 24 < e.npkt)

/-- A send entry of a DIAG queue pair that completed with OK and is not acknowledged is reported in a further completion, and
its retransmit entries are freed (R214, R215; DESIGN CHOICE, log 70). -/
def Dev.reportLate (d : Dev) (n : Nat) (l : Late) (status : Nat) : Dev :=
  match d.qp n with
  | none => d
  | some q =>
    let d := d.modQp n (fun q => { q with
      late := q.late.filter (fun x => x != l)
      sent := q.sent.filter (fun s => !(atOrBefore l.first s.psn && atOrBefore s.psn l.last)) })
    (d.postCqe (q.f cScqn) ⟨l.wrId, status, none, n, stRemAccess, l.op, false, true, true⟩).sendReport n status

/-- The error of a PSN: on its entry while that has not completed, else on the queue pair (R205, R213). -/
def Dev.psnError (d : Dev) (n psn status : Nat) : Dev :=
  match d.qp n with
  | none => d
  | some q =>
    let k := q.entryOf psn
    if k < q.sq.length then d.entryError n k status
    else if q.isDiag then
      match q.late.find? (fun l => atOrBefore l.first psn && atOrBefore psn l.last) with
      | some l => d.reportLate n l status
      | none => d.modQp n (fun q => { q with sent := q.sent.filter (fun s => s.psn != psn) })
    else d.qpError n none

/-- The retransmit timeout, in ns: max(RTO_MIN, SRTT + 4 × RTTVAR) × 2^BACKOFF (R203). -/
def Qp.rto (q : Qp) : Nat := max (q.f cRtoMin * 1000) (q.f cSrtt + 4 * q.f cRttvar) * 2 ^ q.f cBackoff

/-- A tracked packet that the timeout covers: not acknowledged, or a request that is not answered (R202). -/
def Qp.unanswered (q : Qp) (s : Sent) : Bool := !s.sacked || q.awaits s

/-- The retransmit timeout of the oldest unacknowledged PSN expires (R203); before its time has passed since the last
transmission nothing happens. -/
def Dev.retransmitTimeout (d : Dev) (n : Nat) : Dev :=
  match d.qp n with
  | none => d
  | some q => match q.sent.find? q.unanswered with
    | none => d
    | some s =>
      if (q.f cState ≠ qsRts ∧ q.f cState ≠ qsSqd) ∨ (d.clk - s.at_) * 4 < q.rto then d
      else if q.f cRetryLeft = 0 then d.psnError n s.psn stRetryExc
      else
        let c := tblGetD q.tmos s.path 0 + 1
        let q' := (q.put cBackoff (min 7 (q.f cBackoff + 1))).put cRetryLeft (q.f cRetryLeft - 1)
        let q' := { q' with tmos := tblPut q'.tmos s.path c }
        let q' := if q.isSkid ∧ c ≥ 3 then q'.put cPathDown (q'.f cPathDown ||| 2 ^ s.path) else q'
        let d := d.modQp n (fun _ => q')
        if q.isSkid then d.resend n s (q'.after s.path)
        else (q.sent.filter q.unanswered).foldl (fun d t => d.resend n t 0) d

/-- A down path carries a probe (R203): a packet of no payload at the last acknowledged PSN, with ACKREQ, which
its receiver answers as a duplicate (DESIGN CHOICE, log 17). -/
def Dev.pathProbe (d : Dev) (n path : Nat) : Dev :=
  match d.qp n with
  | none => d
  | some q =>
    if bit (q.f cPathDown) path ∧ q.f cState = qsRts ∧ path < q.f cPaths then
      let psn := (q.f cUna + 2 ^ 24 - 1) % 2 ^ 24
      let d := (d.sendPkt n q ⟨0x04, false, [], [], [], 0, 0, 0⟩ psn path true false false (d.destOf q path)).2
      d.modQp n (fun q => { q with probes := addOnce q.probes path })
    else d

/-- PATH_HOLD µs after a CNP its path is free (R217). -/
def Dev.pathHoldExpiry (d : Dev) (n path : Nat) : Dev :=
  (d.modQp n (fun q => q.put cPathHold (q.f cPathHold - bits (q.f cPathHold) path 1 * 2 ^ path))).runQp n

/-! ### Congestion control (R217) -/

/-- Low 32 bits of Ring NS. -/
def Dev.ns32 (d : Dev) : Nat := d.ns.toNat % 2 ^ 32

/-- Flume enforces the current rate. -/
def Dev.applyRate (d : Dev) (n : Nat) : Dev :=
  match d.qp n with
  | some q => match q.cache with
    | some k => d.modBq (queueKey q.die k) (fun b => { b with rate := q.f cRc })
    | none => d
  | none => d

/-- A CNP arrives for a queue pair, naming a path. -/
def Dev.cnp (d : Dev) (n path : Nat) : Dev :=
  match d.qp n with
  | none => d
  | some q =>
    let now := d.ns32
    let hold := fun (q : Qp) => if q.isSkid then q.put cPathHold (q.f cPathHold ||| 2 ^ (path % 128)) else q
    let far : Bool := match q.cutAt with
      | some t => decide (d.clk - t ≥ usTicks (d.fld F.SKD_CC_CUT_CUT_INT 0))
      | none => true
    if far then
      let pr := min (q.f cPress + 1) 15
      let rc := q.f cRc
      let cut := min (pr * max 1 (d.fld F.SKD_CC_CUT_CUT_STEP 0)) 128
      let q := [(cPress, pr), (cRt, rc), (cRc, max (rc - rc * cut / 256) 100), (cSg, 0), (cCcBytes, 0), (cCcLast, now),
        (cCnpLast, now)].foldl (fun q e => q.put e.1 e.2) (hold q)
      (d.modQp n (fun _ => { q with cutAt := some d.clk })).applyRate n
    else d.modQp n (fun q => (hold q).put cCnpLast now)

/-- PR_DECAY µs without a CNP (R217). -/
def Dev.pressureDecay (d : Dev) (n : Nat) : Dev :=
  let step := max 1 (d.fld F.SKD_CC_CUT_PR_DECAY 0) * 1000
  d.modQp n (fun q => (q.put cPress (q.f cPress - 1)).put cCnpLast ((q.f cCnpLast + step) % 2 ^ 32))

/-- A recovery event (R217). -/
def Dev.recovery (d : Dev) (n : Nat) : Dev :=
  match d.qp n with
  | none => d
  | some q =>
    let port := d.portRate (q.f cPort)
    let f := max 1 (d.fld F.SKD_CC_RECOVER_F 0)
    let ai := d.fld F.SKD_CC_INC_R_AI 0 * 100
    let sg := min 255 (q.f cSg + 1)
    let rc := q.f cRc
    let rt := q.f cRt
    let r : Nat × Nat :=
      if sg ≤ f then (rc + (rt - rc) / 4, rt)
      else
        let step := if sg ≤ 2 * f then ai else ai * 2 ^ min (sg - 2 * f) (d.fld F.SKD_CC_INC_R_LOG 0)
        let rt := min (rt + step) port
        (rc + (rt - rc) / 2, rt)
    (d.modQp n (fun q => [(cSg, sg), (cRc, min r.1 port), (cRt, r.2), (cCcBytes, 0), (cCcLast, d.ns32)].foldl
      (fun q e => q.put e.1 e.2) q)).applyRate n

end Sys2Proof.Machine
end

