-- ==== Sys2Proof/Machine/SkidRx.lean ====
section
/-! DEFINITION. Receiving: checks, miss chains, placement, requests and responses (06_skid_transport R187, R192,
R193, R200 to R207, R212, R215, R216, R218; 13 R401). -/

namespace Sys2Proof.Machine

/-! ### Acceptance -/

/-- Drop a received packet and count it. -/
def Dev.rxDrop (d : Dev) (die : Die) (why : Nat) : Dev := d.count (itSkid die why)

/-- The highest IVCTR of a session that has verified (R401). -/
def Dev.noteIv (d : Dev) (id iv : Nat) : Dev :=
  { d with bark := { d.bark with sessions := tblMod d.bark.sessions id (fun s => { s with highIv := max s.highIv iv }) } }

/-- The session whose SESSION_RX slot a packet names, when R401 lets Bark open it for the queue pair. -/
def Dev.rxSession (d : Dev) (q : Qp) (h : PktHdr) : Option Nat :=
  match d.key h.session with
  | some k => match k.owner with
    | .session id => match d.session id with
      | some s => if k.use = 4 ∧ s.rx = h.session ∧ s.peer = h.srcNode ∧ s.slice = q.f cSlice ∧ h.dstNode = d.node ∧
          h.ivctr + 2 ^ 24 > s.highIv then some id else none
      | none => none
    | _ => none
  | none => none

/-- A sealed packet is dropped and counted (R189, Table 13.11). -/
def Dev.tagDrop (d : Dev) (die : Die) : Dev :=
  (d.rxDrop die skDropTag).bumpFld (F.BRK_DIE_ERR_AUTH_FAIL die.num) 0 1

/-- A packet passes the checks of its mode (R182, R189, R195, R401): its opcode is one of its kind and of the mode, its ICRC
is that of its bytes, and in Skid mode the SXH is of this generation, the session is open for the queue pair and the tag is
that of its headers and its body. A sealed packet without such a session fails as its tag would (DESIGN CHOICE, log 67). -/
def Dev.rxOpen (d : Dev) (q : Qp) (p : RxPkt) : Bool × Dev :=
  let h := rxHdr p
  if h.skid != q.isSkid then (false, d.rxDrop h.die skDropHdr)
  else if !p.ops.contains h.op then (false, d.rxDrop h.die skDropOption)
  else if !q.isSkid && (h.op == 0xC0 || h.op == 0xC1) then (false, d.rxDrop h.die skDropHdr)
  else if !h.skid then
    if h.icrc = icrcOf h.net (h.bth ++ p.body) then (true, d) else (false, d.rxDrop h.die skDropIcrc)
  else if !h.sxhOk then (false, d.rxDrop h.die skDropHdr)
  else match d.rxSession q h, d.key h.session with
    | some id, some k =>
      let x := gcmSeal k.bytes (nonce k.salt h.ivctr) (h.bth ++ h.sxh) p.body
      if h.icrc ≠ icrcOf h.net (h.bth ++ h.sxh ++ x.1 ++ h.icv) then (false, d.rxDrop h.die skDropIcrc)
      else if x.2 = h.icv then (true, d.noteIv id h.ivctr) else (false, d.tagDrop h.die)
    | _, _ => (false, d.tagDrop h.die)

/-- Chains in use on a die (R192). -/
def Dev.chainsOn (d : Dev) (die : Die) : Nat := (d.skid.chains.filter (fun e => e.1 / 2 ^ 24 == die.num)).length

/-- The miss chain of a queue pair on a die. -/
def Dev.chain (d : Dev) (die : Die) (n : Nat) : List RxPkt := tblGetD d.skid.chains (chainKey die n) []

/-- A packet for a context that is not cached joins the miss chain of its QPN on the die that it came to, or is dropped
(R192, R193); without free cells in the pool it is dropped too (R235). -/
def Dev.parkPkt (d : Dev) (n : Nat) (p : RxPkt) : Dev :=
  let die := (rxHdr p).die
  let chain := d.chain die n
  let full := chain.length ≥ max 1 (d.fld F.SKD_MISS_CFG_CHAIN_MAX 0) || (chain.isEmpty && d.chainsOn die ≥ 2048) ||
    d.missCells die + p.cells > d.fld F.SKD_MISS_CFG_CELLS 0
  if !d.bsEn || n ≥ d.fld F.SKD_BS_CTRL_COUNT 0 || n ∈ d.skid.absent then d.rxDrop die skDropAbsent
  else if full then d.rxDrop die skDropChain
  else if p.cells > d.boomFree die then d.count (itBoomDrop die 3)
  else
    let d := ({ d with skid := { d.skid with chains := tblPut d.skid.chains (chainKey die n) (chain ++ [p]) } }).noteFree die
    if chain.isEmpty then d.fetchCtx n else d

/-! ### Answers -/

/-- The first ranges of consecutive PSNs among PSNs in serial order, at most so many (R197, R201). -/
def gapRanges : Nat → List Nat → List (Nat × Nat)
  | _, [] => []
  | 0, _ => []
  | k + 1, p :: ps =>
    let run := (List.range (ps.length + 1)).takeWhile (fun i => (p :: ps).getD i 0 == (p + i) % 2 ^ 24)
    let m := run.length - 1
    (p, (p + m) % 2 ^ 24) :: gapRanges k (ps.drop m)

/-- PSNs held beyond EPSN in serial order. -/
def Qp.heldSorted (q : Qp) : List Nat :=
  let e := q.f cEpsn
  let ds := (q.held.map (fun p => (p + 2 ^ 24 - e) % 2 ^ 24)).foldr (fun x l => markInsert x l) []
  ds.map (fun x => (x + e) % 2 ^ 24)
where
  /-- Insert a number into rising numbers. -/
  markInsert (x : Nat) : List Nat → List Nat
    | [] => [x]
    | y :: t => if x ≤ y then x :: y :: t else y :: markInsert x t

/-- Acknowledge what has arrived (R201): in Skid mode with the cumulative PSN EPSN - 1 in the AETH and the lowest four ranges;
in standard mode by an IBTA acknowledgement, whose AETH carries the MSN. -/
def Dev.sendAck (d : Dev) (n path : Nat) : Dev :=
  match d.qp n with
  | none => d
  | some q =>
    let psn := (q.f cEpsn + 2 ^ 24 - 1) % 2 ^ 24
    let d := d.modQp n (fun q => { q with unacked := 0 })
    if q.isUd then d
    else if q.isSkid then d.sendAnswer n 0xC1 psn path (aeth 0 psn ++ sackEth (gapRanges 4 q.heldSorted)) [] [] 0 0 0
    else d.sendAnswer n 0x11 psn path (aeth 0 (q.f cRqMsn)) [] [] 0 0 0

/-- The AETH syndrome of a NAK (IBTA) (PRESUMED, log 14). -/
def nakSyn (q : Qp) : NakKind → Nat
  | .seqErr => 0x60
  | .remInv => 0x61
  | .remAccess => 0x62
  | .remOp => 0x63
  | .rnr => 0x20 + q.f cRnrTimer

/-- Answer a PSN with a NAK. -/
def Dev.sendNak (d : Dev) (n psn path : Nat) (k : NakKind) : Dev :=
  match d.qp n with
  | some q => d.sendAnswer n 0x11 psn path (aeth (nakSyn q k) (q.f cRqMsn)) [] [] 0 0 0
  | none => d

/-- The answer that the syndrome of a NAK names (IBTA) (PRESUMED, log 14). -/
def nakKind (syn : Nat) : Option NakKind :=
  if syn / 32 = 1 then some .rnr
  else match syn with
    | 0x60 => some .seqErr
    | 0x61 => some .remInv
    | 0x62 => some .remAccess
    | 0x63 => some .remOp
    | _ => none

/-- A CNP to the sender of a data packet marked CE, at most one per CNP_INT (R216): to the peer of a reliable queue pair, and
for a datagram to the queue pair and the address that it came from. -/
def Dev.sendCnp (d : Dev) (n : Nat) (p : DataPkt) : Dev :=
  match d.qp n with
  | none => d
  | some q =>
    let h := p.hdr
    let due : Bool := match q.cnpAt with
      | some t => decide (d.clk - t ≥ usTicks (max 1 (d.fld F.SKD_CC_CNP_CNP_INT 0)))
      | none => true
    if d.flag F.SKD_CTRL_CNP_EN 0 && due then
      let dst := d.destOf q h.path
      let dst : Dest := if q.isUd then { dst with
          qpn := p.srcQp, node := h.srcNode, net := { dst.net with dmac := BitVec.ofNat 48 h.smac, dgid := BitVec.ofNat 128 h.source } }
        else dst
      ((d.modQp n (fun q => { q with cnpAt := some d.clk })).sendPkt n q ⟨0x81, false, zeros 16, [], [], 0, 0, 0⟩ 0 h.path
        false false false dst).2
    else d

/-! ### The receive tracker (R201, R218) -/

/-- The class of a received PSN. -/
inductive PsnClass where
  | next
  | gap
  | ahead
  | dup
  deriving DecidableEq, Repr

/-- Class of a PSN at a queue pair: one held already is a duplicate. -/
def Qp.psnClass (q : Qp) (psn : Nat) : PsnClass :=
  let x := (psn + 2 ^ 24 - q.f cEpsn) % 2 ^ 24
  if x = 0 then .next
  else if x < 4096 then (if psn ∈ q.held then .dup else .gap)
  else if x < 2 ^ 23 then .ahead else .dup

/-- Trackers in use on a die. -/
def Dev.trkUsed (d : Dev) (die : Die) : Nat := (d.skid.qps.filter (fun e => e.2.die == die && bit (e.2.f cTrk) 15)).length

/-- The lowest free tracker of a die. -/
def Dev.freeTrk (d : Dev) (die : Die) : Option Nat :=
  let used := (d.skid.qps.filter (fun e => e.2.die == die && bit (e.2.f cTrk) 15)).map (fun e => bits (e.2.f cTrk) 0 14)
  (List.range 8192).find? (fun k => k ∉ used)

/-- EPSN moves over held PSNs. -/
def closeGaps : Nat → Nat → List Nat → Nat × List Nat
  | 0, e, h => (e, h)
  | fuel + 1, e, h => if e ∈ h then closeGaps fuel ((e + 1) % 2 ^ 24) (h.filter (· != e)) else (e, h)

/-- Take PSNs from `psn` on, `span` of them; a gap needs a tracker, which is returned when EPSN closes it. -/
def Dev.takePsn (d : Dev) (n psn span : Nat) : Dev :=
  match d.qp n with
  | none => d
  | some q =>
    let d := if q.psnClass psn = .gap ∧ !bit (q.f cTrk) 15 then
        match d.freeTrk q.die with
        | some k => d.modQp n (fun q => q.put cTrk (32768 + k))
        | none => d
      else d
    d.modQp n (fun q =>
      let h := if q.psnClass psn = .next then q.held.filter (fun p => (p + 2 ^ 24 - psn) % 2 ^ 24 ≥ span)
        else q.held ++ (List.range span).map (fun i => (psn + i) % 2 ^ 24)
      let r := closeGaps (h.length + 1) (if q.psnClass psn = .next then (psn + span) % 2 ^ 24 else q.f cEpsn) h
      let q := { q.put cEpsn r.1 with held := r.2, unacked := q.unacked + 1 }
      if r.2.isEmpty then q.put cTrk 0 else q)

/-- Whether a PSN is taken now; otherwise what is done about it. -/
def Dev.psnGate (d : Dev) (n : Nat) (h : PktHdr) : Bool × Dev :=
  match d.qp n with
  | none => (false, d)
  | some q => match q.psnClass h.psn with
    | .next => (true, d)
    | .dup => (false, d.sendAck n h.path)
    | .gap =>
      if !q.isSkid then (false, d.sendNak n (q.f cEpsn) h.path .seqErr)
      else if bit (q.f cTrk) 15 || (d.freeTrk q.die).isSome then (true, d) else (false, d.rxDrop q.die skDropWindow)
    | .ahead =>
      if q.isSkid then (false, d.rxDrop q.die skDropWindow) else (false, d.sendNak n (q.f cEpsn) h.path .seqErr)

/-- Acknowledge when R201 says so. -/
def Dev.ackPolicy (d : Dev) (n : Nat) (h : PktHdr) : Dev :=
  match d.qp n with
  | none => d
  | some q =>
    if h.ackreq || q.unacked ≥ max 1 (d.fld F.SKD_RETX_ACK_COALESCE 0) then d.sendAck n h.path else d

/-! ### Placement (R186, R187, R196, R200) -/

/-- Where data goes: behind a PCIe port, or pieces of package memory in turn, address and length. -/
inductive Place where
  | pcie (port addr : Nat)
  | mem (parts : List (Nat × Nat))
  deriving DecidableEq, Repr

/-- Write data at a place. -/
def Dev.placeAt (d : Dev) (s : Nat) (pl : Place) (bs : List Byte) (ms : List Bool) : Dev :=
  match pl with
  | .mem parts => d.memPlace parts bs ms
  | .pcie p a => d.dmaSlice s p a bs (alignMarks a bs.length ms) true

/-- The place of an address that the queue pair's own side names (R186). -/
def Dev.localPlace (d : Dev) (q : Qp) (addr len : Nat) : Option Place :=
  if q.isColl then (if d.fabricRange q.die addr len then some (.mem [(addr, len)]) else none)
  else (d.iovaPort (q.f cSlice) addr len true).map (fun p => .pcie p addr)

/-- The fabric address lies in pages of a plan (R186). -/
def Dev.inPlan (d : Dev) (slot a len : Nat) : Bool :=
  match d.plan slot with
  | some p => p.pages.any (fun r => d.pageAddr r.1 ≤ a && a + len ≤ d.pageAddr (r.1 + r.2))
  | none => false

/-- The place of a remote access (R187): rights of the queue pair and of the region, or, for a collective queue
pair, the pages of its plan (DEDUCED, log 18). Rights: 0 WRITE, 1 READ, 2 atomic, 3 FLUSH. -/
def Dev.remotePlace (d : Dev) (q : Qp) (rkey : W32) (va len right : Nat) : Option Place :=
  if !bit (q.f cAccess) right then none
  else if q.isColl then (if d.inPlan (q.f cPlan) va len then some (.mem [(va, len)]) else none)
  else match d.region (q.f cSlice) rkey (q.f cPd) va len right with
    | none => none
    | some m =>
      if m.lpddr then (d.slicePieces (q.f cSlice) va len).map Place.mem
      else if (d.slice (q.f cSlice)).dmaOk m.port va len (right != 1) then some (.pcie m.port va) else none

/-- A place needs a function that cannot issue requests now: the packet is dropped unacknowledged and counted, and its sender
sends it again (R273). -/
def Dev.placeHeld (d : Dev) (s : Nat) (pl : Place) : Bool :=
  match pl with
  | .pcie port _ => !d.canIssue port (d.slice s).kind
  | .mem _ => false

/-- A READ or an atomic request needs such a function (R273). -/
def Dev.reqHeld (d : Dev) (q : Qp) (p : RxPkt) : Bool :=
  let held := fun (pl : Option Place) => match pl with
    | some pl => d.placeHeld (q.f cSlice) pl
    | none => false
  match p with
  | .read x => held (d.remotePlace q x.rkey x.va x.len 1)
  | .atomic _ x => held (d.remotePlace q x.rkey x.va 8 2)
  | _ => false

/-! ### Named arrivals (R211, R212) -/

/-- Entries of a die's trigger table. -/
def Dev.trigUsed (d : Dev) (die : Die) : Nat := (d.skid.trig.filter (fun t => t.die == die)).length

/-- An arrival of a name can be entered: not a name of another step, an entry exists, or one is free. -/
def Dev.trigRoom (d : Dev) (die : Die) (slot : Nat) (name : W32) : Bool :=
  match d.plan slot with
  | some p =>
    let b := bits name.toNat 24 8
    (b != p.step.toNat % 256 && b != (p.step.toNat + 1) % 256) ||
    d.skid.trig.any (fun t => t.die == die && t.slot == slot && t.name == name) || d.trigUsed die < 32768
  | none => true

/-- A named message of a plan arrived: its count, the counters bound to it, and the requests it arms. -/
def Dev.arrive (d : Dev) (die : Die) (slot : Nat) (name : W32) : Dev :=
  match d.plan slot with
  | none => d
  | some p =>
    let b := bits name.toNat 24 8
    if b ≠ p.step.toNat % 256 ∧ b ≠ (p.step.toNat + 1) % 256 then d.count (itSkid die skTrigStep)
    else
      let has := d.skid.trig.any (fun t => t.die == die && t.slot == slot && t.name == name)
      let trig := if has then d.skid.trig.map (fun t =>
            if t.die == die && t.slot == slot && t.name == name then { t with count := t.count + 1 } else t)
        else d.skid.trig ++ [⟨die, slot, name, 1⟩]
      let d := { d with skid := { d.skid with trig := trig } }
      let tag := bits name.toNat 0 24
      let d := (p.cfg.syncs.filter (fun s => s.role = 2 && s.arg = tag)).foldl
        (fun d s => d.signal (p.cores.getD s.lcore 0) s.counter) d
      ((d.skid.qps.filter (fun e => e.2.isColl && e.2.f cPlan == slot)).map (·.1)).foldl Dev.runQp d

/-! ### Requests in order of their MSN (R200, R206) -/

/-- The bytes and marks that a responder reads: of package memory, or what the device read over PCIe. -/
def Dev.readPlace (d : Dev) (pl : Place) (len : Nat) (src : SrcData) : List Byte × List Bool :=
  match pl with
  | .mem parts => (d.memBytes parts, d.memMarks parts)
  | .pcie _ _ => (bytesAt src.bytes 0 len, src.poison)

/-- Send the answer of a READ: response packets, never tracked; with multipath each takes the path after the one before
(R199). The MIDDLE form has no AETH (IBTA; PRESUMED, log 14). -/
def Dev.readAnswer (d : Dev) (n : Nat) (p : ReqPkt) (bs : List Byte) (ms : List Bool) : Dev :=
  match d.qp n with
  | none => d
  | some q =>
    let m := q.mtu
    let k := max 1 ((p.len + m - 1) / m)
    (List.range k).foldl (fun d i =>
      let op := if q.isMp ∨ k = 1 then 0x10 else if i = 0 then 0x0D else if i + 1 = k then 0x0F else 0x0E
      let path := match d.qp n with
        | some q => q.path q.rrResp
        | none => 0
      (d.modQp n (fun q => { q with rrResp := path + 1 })).sendAnswer n op ((p.hdr.psn + i) % 2 ^ 24) path
        (if op = 0x0E then [] else aeth 0 (q.f cRqMsn))
        ((bs.drop (i * m)).take m) ((ms.drop (i * m / 64)).take (m / 64)) p.hdr.msn p.len (i * m)) d

/-- Do a READ, or answer it again (R204). A standard-mode queue pair sends no poisoned data (R196): it answers such a READ
with a remote operation error (DESIGN CHOICE, log 71). -/
def Dev.doRead (d : Dev) (n : Nat) (q : Qp) (p : ReqPkt) : Dev :=
  match d.remotePlace q p.rkey p.va p.len 1 with
  | none => d.sendNak n p.hdr.psn p.hdr.path .remAccess
  | some pl =>
    let x := d.readPlace pl p.len p.mem
    let d := match pl with
      | .pcie port a => d.readSlice (q.f cSlice) port .buffer a p.len
      | .mem _ => d
    let failed := match pl with
      | .pcie _ _ => !p.mem.ok
      | .mem _ => false
    if failed || (!q.isSkid && x.2.any (fun b => b)) then d.sendNak n p.hdr.psn p.hdr.path .remOp else d.readAnswer n p x.1 x.2

/-- The new value of an atomic operation. -/
def atomicNew (op : AtomicOp) (old a b : W64) : W64 :=
  match op with
  | .cmpSwap => if old = a then b else old
  | .fetchAdd => old + a
  | .write => a

/-- The AtomicOp of PCIe that an operation runs as (R206). -/
def pcieOp (op : AtomicOp) (a b : W64) : PcieAtomic :=
  match op with
  | .cmpSwap => .cas a b
  | .fetchAdd => .fetchAdd a
  | .write => .swap a

/-- Do an atomic operation (R206): 64-bit, naturally aligned. Remote atomic right; ATOMIC WRITE too. -/
def Dev.doAtomic (d : Dev) (n : Nat) (q : Qp) (op : AtomicOp) (p : ReqPkt) : Dev :=
  if p.va % 8 ≠ 0 then d.sendNak n p.hdr.psn p.hdr.path .remInv
  else match d.remotePlace q p.rkey p.va 8 2 with
    | none => d.sendNak n p.hdr.psn p.hdr.path .remAccess
    | some pl =>
      let old : W64 := BitVec.ofNat 64 (unle (d.readPlace pl 8 p.mem).1)
      let new := atomicNew op old p.a p.b
      let done := fun (d : Dev) =>
        let d := d.modQp n (fun q => { q with atomics := ((p.hdr.psn, old) :: q.atomics).take 128 })
        if op = .write then d.sendAck n p.hdr.path
        else d.sendAnswer n 0x12 p.hdr.psn p.hdr.path (aeth 0 (q.f cRqMsn) ++ be 8 old.toNat) [] [] p.hdr.msn 8 0
      match pl with
      | .mem parts => done (d.memPlace parts (le 8 new.toNat) [])
      | .pcie port a =>
        let d := d.atomicSlice (q.f cSlice) port a (pcieOp op p.a p.b)
        if p.mem.ok then done d else d.sendNak n p.hdr.psn p.hdr.path .remOp

/-- The zero-length reads for which a FLUSH waits (R206): on the ports that carried data placed since the last one, and, with
PERSIST, one of the region behind PCIe as its persistence step (DESIGN CHOICE, log 72). -/
def Dev.flushReads (d : Dev) (q : Qp) (p : ReqPkt) (persist : Bool) : List (Nat × Nat) :=
  match d.region (q.f cSlice) p.rkey (q.f cPd) p.va p.len 3 with
  | none => []
  | some m => q.placed.map (fun k => (k, 0)) ++ (if persist && m.persist && !m.lpddr then [(m.port, p.va)] else [])

/-- Answer a FLUSH once the data is placed (R206). PERSIST without the region's attribute is answered with a remote invalid
request error, as R206 says (DESIGN CHOICE, log 73). -/
def Dev.doFlush (d : Dev) (n : Nat) (q : Qp) (p : ReqPkt) (persist : Bool) : Dev :=
  if !bit (q.f cAccess) 3 then d.sendNak n p.hdr.psn p.hdr.path .remAccess
  else match d.region (q.f cSlice) p.rkey (q.f cPd) p.va p.len 3 with
    | none => d.sendNak n p.hdr.psn p.hdr.path .remAccess
    | some m =>
      if persist ∧ !m.persist then d.sendNak n p.hdr.psn p.hdr.path .remInv
      else (d.modQp n (fun q => { q with placed := [] })).sendAnswer n 0x10 p.hdr.psn p.hdr.path (aeth 0 (q.f cRqMsn)) [] []
          p.hdr.msn 0 0

/-- Do a request. -/
def Dev.doReq (d : Dev) (n : Nat) (q : Qp) : RxPkt → Dev
  | .read p => d.doRead n q p
  | .atomic op p => d.doAtomic n q op p
  | .flush p persist => d.doFlush n q p persist
  | _ => d

/-- A message is whole (R200): its completion and immediate data are posted, or its name arrives. A WRITE with immediate data
takes the receive entry of its MSN (IBTA; PRESUMED, log 14). -/
def Dev.finishMsg (d : Dev) (n : Nat) (q : Qp) (m : RxMsg) : Dev :=
  let d := match m.rqe with
    | some r =>
      let d := d.modQp n (fun q => { q.put cRqIdx ((q.f cRqIdx + 1) % 65536) with rq := tblDel q.rq m.msn })
      d.rqComplete n r.wrId m.got m.imm (if !m.isWrite ∧ m.got > r.len then stLocLen else stOk) m.poison false
    | none => if m.isWrite ∧ m.imm.isSome then d.rqComplete n 0 m.got m.imm stOk m.poison false else d
  match m.imm with
  | some w => if q.isColl then d.arrive q.die (q.f cPlan) w else d
  | none => d

/-- The message or the request with the MSN that completes next, once it is whole (R200, R206). -/
def Qp.frontMsg (q : Qp) : Option RxMsg := q.msgs.find? (fun m => m.msn = q.f cRqMsn ∧ m.got ≥ m.len)
def Qp.frontReq (q : Qp) : Option RxReq := if q.frontMsg.isSome then none else q.reqs.find? (fun r => r.msn = q.f cRqMsn)

/-- The named message that completes next finds no room in the trigger table: it is held (R212). -/
def Dev.frontHeld (d : Dev) (q : Qp) : Bool :=
  match q.frontMsg with
  | some m => match m.imm with
    | some w => q.isColl && !d.trigRoom q.die (q.f cPlan) w
    | none => false
  | none => false

/-- The port to which a receive completion goes. -/
def Dev.rcqPort (d : Dev) (q : Qp) : Option Nat :=
  match tblGet d.skid.cqs (q.f cRcqn) with
  | some c => d.iovaPort c.slice (c.addr + 32 * (c.written % 2 ^ c.log2)) 32 true
  | none => none

/-- The zero-length reads for which the front waits: before a receive completion those on the data ports other than its own
(R207), before the answer of a FLUSH those of R206. -/
def Dev.frontReads (d : Dev) (q : Qp) : List (Nat × Nat) :=
  match q.frontMsg, q.frontReq with
  | some m, _ =>
    if q.isColl || (m.rqe.isNone && m.imm.isNone) then []
    else (m.ports.filter (fun p => some p != d.rcqPort q)).map (fun p => (p, 0))
  | none, some ⟨.flush p persist, _, _⟩ => d.flushReads q p persist
  | none, _ => []

/-- The front completes or is answered, and the next MSN comes to the front. -/
def Dev.finishFront (d : Dev) (n : Nat) (q : Qp) : Dev :=
  let k := q.f cRqMsn
  let next := fun (q : Qp) => { q.put cRqMsn ((k + 1) % 2 ^ 24) with fence := none }
  match q.frontMsg, q.frontReq with
  | some m, _ => (d.modQp n (fun q => { next q with msgs := q.msgs.filter (fun x => x.msn != k) })).finishMsg n q m
  | none, some x => (d.modQp n (fun q => { next q with reqs := q.reqs.filter (fun y => y.msn != k) })).doReq n q x.pkt
  | none, none => d

/-- Complete messages and answer requests in MSN order, as far as they are whole and their zero-length reads have ended. -/
def Dev.serveMsns (d : Dev) (n : Nat) : Nat → Dev
  | 0 => d
  | fuel + 1 => match d.qp n with
    | none => d
    | some q =>
      if (q.frontMsg.isNone && q.frontReq.isNone) || d.frontHeld q then d
      else match q.fence with
        | some id => if d.fenceOpen id then d else (d.finishFront n q).serveMsns n fuel
        | none =>
          let reads := d.frontReads q
          if reads.isEmpty then (d.finishFront n q).serveMsns n fuel
          else (d.startFence n (q.f cSlice) reads).serveMsns n fuel

/-- Enough steps for what a queue pair can hold. -/
def msnFuel : Nat := 8192

/-- Zero-length reads have ended: the queue pairs that waited for them go on (R206, R207). -/
def Dev.settleFences (d : Dev) : Dev :=
  let ready := d.skid.qps.filter (fun e => match e.2.fence with
    | some id => !d.fenceOpen id
    | none => false)
  if ready.isEmpty then d else ((ready.map (·.1)).foldl (fun d n => d.serveMsns n msnFuel) d).wakeWaits

/-- Entries of the trigger tables are free again: held named messages complete (R212). -/
def Dev.settleNames (d : Dev) : Dev :=
  ((d.skid.qps.filter (fun e => e.2.isColl && e.2.frontMsg.isSome)).map (·.1)).foldl (fun d n => d.serveMsns n msnFuel) d

/-! ### Packets by kind -/

/-- The MSN of a packet: in standard mode that of the message that it continues or begins. -/
def Qp.msnOf (q : Qp) (h : PktHdr) : Nat := if q.isSkid then h.msn else q.rxMsn

/-- The packet takes a receive entry: a SEND, or immediate data of a WRITE, unless on a collective queue pair. -/
def Qp.takesRqe (q : Qp) (p : DataPkt) : Bool := !p.isWrite || (p.imm.isSome && !q.isColl)

/-- A message whose receive completion could not be written, that has no receive entry, or whose trigger entry has no room,
is answered with RNR NAK (R200, R208, R212). -/
def Dev.rnrNeeded (d : Dev) (q : Qp) (p : DataPkt) (msn : Nat) : Bool :=
  (q.takesRqe p && !q.isColl && !d.cqRoom (q.f cRcqn)) || (q.takesRqe p && (tblGet q.rq msn).isNone) ||
  (match p.imm with
    | some w => q.isColl && !d.trigRoom q.die (q.f cPlan) w
    | none => false)

/-- Note the bytes of a packet in its message. In standard mode the length of a message is known with its last packet. -/
def Qp.noteMsg (q : Qp) (p : DataPkt) (msn off : Nat) (base : Option Reth) (rqe : Option Rqe) (port : Option Nat) : Qp :=
  let len := if q.isSkid then p.hdr.msgLen else off + p.payload.length + (if p.last then 0 else 1)
  let add := fun (m : RxMsg) => { m with
    len := len, got := m.got + p.payload.length, imm := if p.imm.isSome then p.imm else m.imm
    poison := m.poison || p.marks.any (fun b => b)
    rqe := if rqe.isSome then rqe else m.rqe
    ports := match port with
      | some k => addOnce m.ports k
      | none => m.ports }
  let q : Qp := match port with
    | some k => { q with placed := addOnce q.placed k }
    | none => q
  let q : Qp := if q.isSkid || !p.last then q else { q with rxMsn := (msn + 1) % 2 ^ 24 }
  if q.msgs.any (fun m => m.msn = msn) then { q with msgs := q.msgs.map (fun m => if m.msn = msn then add m else m) }
  else { q with msgs := q.msgs ++ [add ⟨msn, len, 0, p.isWrite, base, none, false, [], rqe⟩] }

/-- Where the payload of a packet goes (R186, R187, R200): within the range of its RETH, whose access is checked whole, or
within the buffer of its receive entry. -/
def Dev.dataPlace (d : Dev) (q : Qp) (p : DataPkt) (off : Nat) (base : Option Reth) (rqe : Option Rqe) : Option Place :=
  let n := p.payload.length
  if n = 0 then some (.mem [])
  else if p.isWrite then match base with
    | some r =>
      if off + n ≤ r.len ∧ (d.remotePlace q r.rkey r.va r.len 0).isSome then d.remotePlace q r.rkey (r.va + off) n 0 else none
    | none => none
  else match rqe with
    | some e => if off + n ≤ e.len then d.localPlace q (e.addr + off) n else none
    | none => none

/-- A SEND that its receive entry cannot take (R186, R213, R214): the entry completes with the error, and the queue pair
enters ERR, or reports it. -/
def Dev.sendRefused (d : Dev) (n : Nat) (q : Qp) (h : PktHdr) (msn : Nat) (rqe : Option Rqe) (st : Nat) : Dev :=
  let d := d.sendNak n h.psn h.path .remInv
  let d := match rqe with
    | some e =>
      (d.modQp n (fun q => { q.put cRqIdx ((q.f cRqIdx + 1) % 65536) with rq := tblDel q.rq msn })).rqComplete n e.wrId
        (if q.isDiag then st else 0) none (if q.isDiag then stRemAccess else st) false q.isDiag
    | none => d
  if q.isDiag then d.sendReport n st else d.qpError n none

/-- A SEND or WRITE packet of a reliable queue pair. A WRITE packet without a RETH whose message has brought none yet is
dropped and counted, for its sender to send again (DESIGN CHOICE, log 71). -/
def Dev.rxData (d : Dev) (n : Nat) (q : Qp) (p : DataPkt) : Dev :=
  let h := p.hdr
  let d := if h.ce then d.sendCnp n p else d
  let g := d.psnGate n h
  if !g.1 then g.2
  else
    let d := g.2
    let msn := q.msnOf h
    let m := q.msgs.find? (fun m => m.msn = msn)
    let off := if q.isSkid then h.offset else match m with
      | some m => m.got
      | none => 0
    let base : Option Reth := if rethOps.contains h.op then some p.reth else match m with
      | some m => m.reth
      | none => none
    if d.rnrNeeded q p msn then d.sendNak n h.psn h.path .rnr
    else if p.isWrite && base.isNone then d.rxDrop h.die skDropHdr
    else
      let rqe := if q.takesRqe p then tblGet q.rq msn else none
      match d.dataPlace q p off base rqe with
      | none =>
        if p.isWrite then d.sendNak n h.psn h.path .remAccess
        else d.sendRefused n q h msn rqe (match rqe with
          | some e => if off + p.payload.length > e.len then stLocLen else stLocProt
          | none => stLocProt)
      | some pl =>
        if d.placeHeld (q.f cSlice) pl then d.rxDrop h.die skDropHeld
        else
        let d := if p.payload.isEmpty then d else d.placeAt (q.f cSlice) pl p.payload p.marks
        let port := match pl with
          | .pcie k _ => some k
          | .mem _ => none
        let d := (d.takePsn n h.psn 1).modQp n (fun q => q.noteMsg p msn off base rqe port)
        ((d.serveMsns n msnFuel).wakeWaits).ackPolicy n h

/-- A UD message takes the oldest posted receive entry that is free; one without an entry or with another Q_Key is dropped and
counted (IBTA; PRESUMED, log 14). -/
def Dev.rxUd (d : Dev) (n : Nat) (q : Qp) (p : DataPkt) : Dev :=
  let d := if p.hdr.ce then d.sendCnp n p else d
  match q.rq.find? (fun e => !q.msgs.any (fun m => m.msn == e.1)) with
  | none => d.rxDrop q.die skDropState
  | some (k, r) =>
    if p.qkey.toNat ≠ q.f cQkey ∨ !d.cqRoom (q.f cRcqn) then d.rxDrop q.die skDropState
    else match (if p.payload.length ≤ r.len then d.localPlace q r.addr p.payload.length else none) with
      | none => d.rxDrop q.die skDropState
      | some pl =>
        if d.placeHeld (q.f cSlice) pl then d.rxDrop q.die skDropHeld
        else
        let d := d.placeAt (q.f cSlice) pl p.payload p.marks
        let ports := match pl with
          | .pcie j _ => [j]
          | .mem _ => []
        let m : RxMsg := ⟨k, p.payload.length, p.payload.length, false, none, p.imm, p.marks.any (fun b => b), ports, some r⟩
        ((d.modQp n (fun q => { q with msgs := q.msgs ++ [m] })).serveMsns n msnFuel).wakeWaits

/-- A request packet: it takes its PSNs and waits for every earlier MSN. A duplicate is answered again, unless it still waits
to be answered (R204, R206). -/
def Dev.rxReq (d : Dev) (n : Nat) (q : Qp) (p : RxPkt) (span : Nat) : Dev :=
  let h := rxHdr p
  if d.reqHeld q p then d.rxDrop h.die skDropHeld
  else if q.psnClass h.psn = .dup then
    if q.reqs.any (fun r => r.psn = h.psn) then d.sendAck n h.path
    else match p with
      | .read x => d.doRead n q x
      | .flush x persist => d.doFlush n q x persist
      | .atomic op _ =>
        (match q.atomics.find? (fun e => e.1 = h.psn) with
        | some e => if op = .write then d.sendAck n h.path else
            d.sendAnswer n 0x12 h.psn h.path (aeth 0 (q.f cRqMsn) ++ be 8 e.2.toNat) [] [] h.msn 8 0
        | none => d)
      | _ => d
  else
    let g := d.psnGate n h
    if !g.1 then g.2
    else if q.reqs.length ≥ max 1 (q.f cRdRsp) then g.2.sendNak n h.psn h.path .remInv
    else
      let msn := q.msnOf h
      let d := (g.2.takePsn n h.psn span).modQp n (fun q =>
        { q with reqs := q.reqs ++ [⟨p, msn, h.psn⟩], rxMsn := if q.isSkid then q.rxMsn else (msn + 1) % 2 ^ 24 })
      ((d.serveMsns n msnFuel).wakeWaits).ackPolicy n h

/-- A response that belongs to a started entry. -/
def Qp.answering (q : Qp) (psn : Nat) : Option (Nat × SqEnt) :=
  let k := q.entryOf psn
  match q.sq[k]? with
  | some e => if e.st = .active ∧ e.answered then some (k, e) else none
  | none => none

/-- The request of an entry is answered: every earlier PSN has arrived (R206), its store entry is freed, and UNA_PSN passes it
when it is the oldest. -/
def Dev.answerDone (d : Dev) (n : Nat) (e : SqEnt) : Dev :=
  let d := d.ackPsns n ((e.psn + 2 ^ 24 - 1) % 2 ^ 24) []
  match d.qp n with
  | none => d
  | some q =>
    if q.f cUna = e.psn then d.ackPsns n ((e.psn + max 1 e.npkt - 1) % 2 ^ 24) []
    else (d.modQp n (fun q => { q with sent := q.sent.filter (fun s => s.psn != e.psn) })).runQp n

/-- A READ response, or the answer of a FLUSH (R200, R205). Bytes that an earlier response brought are not placed or counted
again. -/
def Dev.rxReadResp (d : Dev) (n : Nat) (q : Qp) (h : PktHdr) (bs : List Byte) (ms : List Bool) : Dev :=
  match q.answering h.psn with
  | none => d
  | some (k, e) =>
    if e.op = 0x20 then (d.modQp n (fun q => { q with sq := q.sq.set k { e with st := .done } })).answerDone n e
    else if e.op ≠ 0x10 then d
    else
      let off := if q.isSkid then h.offset else (h.psn + 2 ^ 24 - e.psn) % 2 ^ 24 * q.mtu
      if off ∈ e.seen ∨ off + bs.length > e.w.len then d
      else
        let pl : Option Place := if bs.isEmpty then some (.mem []) else d.localPlace q (e.w.laddr + off) bs.length
        match pl with
        | none => d.entryError n k stLocProt
        | some pl =>
          if d.placeHeld (q.f cSlice) pl then d.rxDrop h.die skDropHeld
          else
          let d := if bs.isEmpty then d else d.placeAt (q.f cSlice) pl bs (pxhMarks h ms)
          let got := e.got + bs.length
          let e' := { e with
            got := got, seen := off :: e.seen, poison := e.poison || (pxhMarks h ms).any (fun b => b)
            st := if got ≥ e.w.len then SqState.done else .active }
          let d := d.modQp n (fun q => { q with sq := q.sq.set k e' })
          if got ≥ e.w.len then d.answerDone n e else d

/-- An atomic response places the original value at LADDR (R205). -/
def Dev.rxAtomicResp (d : Dev) (n : Nat) (q : Qp) (h : PktHdr) (orig : W64) : Dev :=
  match q.answering h.psn with
  | none => d
  | some (k, e) =>
    if e.op ≠ 0x18 ∧ e.op ≠ 0x19 then d
    else match d.localPlace q e.w.laddr 8 with
      | none => d.entryError n k stLocProt
      | some pl =>
        if d.placeHeld (q.f cSlice) pl then d.rxDrop h.die skDropHeld
        else
        ((d.placeAt (q.f cSlice) pl (le 8 orig.toNat) []).modQp n (fun q =>
          { q with sq := q.sq.set k { e with st := .done } })).answerDone n e

/-- A NAK (R182, R203, R213). -/
def Dev.rxNak (d : Dev) (n : Nat) (q : Qp) (h : PktHdr) : Dev :=
  let before := (h.psn + 2 ^ 24 - 1) % 2 ^ 24
  match nakKind h.syndrome with
  | none => d.rxDrop h.die skDropOption
  | some .seqErr =>
    let d := d.ackPsns n before []
    match d.qp n with
    | some q => (q.sent.filter q.unanswered).foldl (fun d s => d.resend n s (q.after s.path)) d
    | none => d
  | some .rnr =>
    let d := if q.isMp then d else d.ackPsns n before []
    d.modQp n (fun q => { q with rnr := some h.psn })
  | some .remAccess => d.psnError n h.psn stRemAccess
  | some .remInv => d.psnError n h.psn stRemInv
  | some .remOp => d.psnError n h.psn stRemOp

/-- An acknowledgement (R201 to R203): the cumulative PSN of an RC SACK is in its AETH, that of an IBTA acknowledgement in its
BTH. On a path with a probe under way the path returns to service. -/
def Dev.rxSack (d : Dev) (n : Nat) (h : PktHdr) (ranges : List (Nat × Nat)) : Dev :=
  if h.syndrome / 32 ≠ 0 then d.rxDrop h.die skDropOption
  else
    let d := d.modQp n (fun q =>
      if h.path ∈ q.probes then
        { q.put cPathDown (q.f cPathDown - bits (q.f cPathDown) h.path 1 * 2 ^ h.path) with
          probes := q.probes.filter (· != h.path), tmos := tblDel q.tmos h.path }
      else q)
    if h.op = 0xC1 then d.ackPsns n h.aethNum ranges else d.ackPsns n h.psn []

/-- An RC REPORT (R215): a completion on the receive completion queue; no entry is consumed. -/
def Dev.rxReport (d : Dev) (n status : Nat) : Dev := d.rqComplete n 0 status none stRemAccess false true

/-- A received packet for a cached queue pair; a kind or an opcode that its type does not take is dropped and counted. -/
def Dev.rxCached (d : Dev) (n : Nat) (q : Qp) (p : RxPkt) : Dev :=
  let st := q.f cState
  let h := rxHdr p
  let o := d.rxOpen q p
  if !o.1 then o.2
  else if st = qsReset ∨ st = qsInit ∨ st = qsErr then o.2.rxDrop h.die skDropState
  else
    let d := o.2
    match p, q.isUd with
    | .cnp h, _ => d.cnp n h.path
    | .report h, false => d.rxReport n (h.syndrome / 8)
    | .data x, true => if udOps.contains h.op then d.rxUd n q x else d.rxDrop h.die skDropOption
    | .data x, false => if udOps.contains h.op then d.rxDrop h.die skDropOption else d.rxData n q x
    | .read x, false => d.rxReq n q p (max 1 ((x.len + q.mtu - 1) / q.mtu))
    | .atomic _ _, false => d.rxReq n q p 1
    | .flush _ _, false => d.rxReq n q p 1
    | .sack h rs, false => d.rxSack n h rs
    | .nak h, false => d.rxNak n q h
    | .readResp h bs ms, false => d.rxReadResp n q h bs ms
    | .atomicResp h v, false => d.rxAtomicResp n q h v
    | _, true => d.rxDrop h.die skDropOption

/-- The slice takes packets (R282, Table 8.10): in ACTIVE and QUIESCING. -/
def Dev.takesPackets (d : Dev) (s : Nat) : Bool := (d.slice s).state == .active || (d.slice s).state == .quiescing

/-- A received Skid packet: a packet whose slice is not the queue pair's is dropped, and so is one for a slice that takes none;
one for a context that is not cached, or behind a chain, is parked; one for no queue pair is dropped and counted. -/
def Dev.rx (d : Dev) (p : RxPkt) : Dev :=
  let h := rxHdr p
  let n := h.qpn
  match d.qp n with
  | none =>
    if (match p with
      | .report _ => true
      | _ => false) then d.rxDrop h.die skReportLost
    else if d.bsEn then d.parkPkt n p else d.rxDrop h.die skDropAbsent
  | some q =>
    if q.f cSlice ≠ h.slice ∨ d.fatal then d.rxDrop h.die skDropHdr
    else if !d.takesPackets h.slice then d.rxDrop h.die skDropSlice
    else if q.cache.isNone || !(d.chain h.die n).isEmpty then d.parkPkt n p
    else d.rxCached n q p

/-- ACK_DELAY after the first unacknowledged arrival (R201). -/
def Dev.ackDelay (d : Dev) (n : Nat) : Dev :=
  match d.qp n with
  | some q => if q.unacked > 0 then d.sendAck n 0 else d
  | none => d

/-- The RNR timer runs out (R182): the request is sent again, or the retries are exhausted. -/
def Dev.rnrExpiry (d : Dev) (n : Nat) : Dev :=
  match d.qp n with
  | none => d
  | some q => match q.rnr with
    | none => d
    | some psn =>
      let left := q.f cRnrLeft
      if left = 0 then (d.modQp n (fun q => { q with rnr := none })).psnError n psn stRnrExc
      else
        let d := d.modQp n (fun q => { (if q.f cRnrRetry = 7 then q else q.put cRnrLeft (left - 1)) with rnr := none })
        let again := if q.isMp then q.sent.filter (fun s => s.psn = psn) else q.sent.filter q.unanswered
        (again.foldl (fun d s => d.resend n s (q.after s.path)) d).runQp n

/-! ### Doorbells and fetches (R192, R193, R256, R257) -/

/-- The slice and the port of the page that a doorbell came through, when it counts: a page, aligned, of full
size, not poisoned, and the slice takes doorbells (R257, Table 8.10). -/
def Dev.pageOk (d : Dev) (via : Via) (size want : Nat) (poisoned : Bool) : Option Nat :=
  match via with
  | .bar0 _ => none
  | .rom _ _ => none
  | .page port kind s =>
    let sl := d.slice s
    if size = want ∧ !poisoned ∧ !d.fatal ∧ sl.kind = kind ∧ d.pageOn s port ∧ sl.state = .active then some s else none

/-- A poisoned write through a path is logged by its function (R269). -/
def Dev.notePoison (d : Dev) (via : Via) (poisoned : Bool) : Dev :=
  if poisoned then match via with
    | .page port kind _ => d.poisonedTlp (port % 4) kind
    | .bar0 port => d.poisonedTlp (port % 4) .pf0
    | .rom port kind => d.poisonedTlp (port % 4) kind
  else d

/-- Count a discarded doorbell or signal of a port. -/
def Dev.bellLost (d : Dev) (via : Via) : Dev :=
  match via with
  | .page port _ _ => d.count (0x084 + 32 * (port % 4))
  | .bar0 port => d.count (0x084 + 32 * (port % 4))
  | .rom _ _ => d

/-- The address of a receive ring entry, `i` entries beyond those posted (R185). -/
def Qp.rqEntry (q : Qp) (i : Nat) : Nat := q.f cRqAddr + 32 * ((q.f cRqIdx + q.rq.length + i) % 2 ^ q.f cRqLog2)

/-- Post a receive entry: the k-th one is for MSN k after the entry to RTR (R200). -/
def Qp.postRqe (q : Qp) (e : Rqe) : Qp := { q with rq := tblPut q.rq q.rqNext e, rqNext := (q.rqNext + 1) % 2 ^ 24 }

/-- A receive entry completes unused. -/
def Dev.rqeFails (d : Dev) (n : Nat) (wrId : W64) (bytes status : Nat) (reported : Bool) : Dev :=
  (d.modQp n (fun q => q.put cRqIdx ((q.f cRqIdx + 1) % 65536))).rqComplete n wrId bytes none status false reported

/-- Act on a doorbell of a cached queue pair: the producer index moves; the receive entries that the device then
fetches are those given. In ERR they complete with FLUSH_ERR. An entry whose ring address is in no window of the slice
completes with LOC_PROT_ERR (R186, R213, R214). -/
def Dev.bell (d : Dev) (n : Nat) (rq : Bool) (ix : Nat) (rqes : List Rqe) : Dev :=
  match d.qp n with
  | none => d
  | some q =>
    if !rq then (d.modQp n (fun q => { q with sqTail := ix })).runQp n
    else
      let ahead := (ix + 65536 - q.f cRqIdx) % 65536
      let fresh := if ahead > 2 ^ q.f cRqLog2 - 1 then 0 else ahead - q.rq.length
      let es := rqes.take fresh
      let read := ((List.range es.length).takeWhile (fun i => (d.iovaPort (q.f cSlice) (q.rqEntry i) 32 false).isSome)).length
      let d := d.modQp n (fun q => { q with rqTail := ix })
      if q.f cState = qsErr then es.foldl (fun d e => d.rqeFails n e.wrId 0 stFlush false) d
      else if q.f cState = qsReset ∨ q.f cState = qsInit then d
      else
        let d := (es.take read).foldl (fun d e => d.modQp n (fun q => q.postRqe e)) d
        if read = es.length then d
        else
          let d := d.rqeFails n (Config.lostWrId n (q.f cRqIdx + q.rq.length + read)) (if q.isDiag then stLocProt else 0)
            (if q.isDiag then stRemAccess else stLocProt) q.isDiag
          if q.isDiag then d.sendReport n stLocProt else d.qpError n none

/-- A queue-pair doorbell (R256); a set reserved bit discards it (R257). One for an uncached queue pair starts a fetch and is acted on later. -/
def Dev.qpBell (d : Dev) (via : Via) (size : Nat) (val : W64) (poisoned : Bool) (rqes : List Rqe) : Dev :=
  match d.pageOk via size 8 poisoned with
  | none => (d.bellLost via).notePoison via poisoned
  | some s =>
    let n := bits val.toNat 0 24
    let rq := val.getLsbD 24
    let ix := bits val.toNat 32 16
    match d.qp n with
    | none => d.bellLost via
    | some q =>
      if bits val.toNat 25 7 ≠ 0 ∨ bits val.toNat 48 16 ≠ 0 ∨ q.f cSlice ≠ s ∨ q.isColl ∨ (q.cache.isNone ∧ n ∈ d.skid.absent) then d.bellLost via
      else if q.cache.isNone then
        (d.modQp n (fun q => { q with bells := q.bells.filter (fun b => b.1 != rq) ++ [(rq, ix, rqes)] })).fetchCtx n
      else d.bell n rq ix rqes

/-- A completion queue doorbell (R256): the consumer index moves, the vector is armed, held completions are
written, and the send queues that feed the queue go on. -/
def Dev.cqBell (d : Dev) (via : Via) (size : Nat) (val : W64) (poisoned : Bool) : Dev :=
  match d.pageOk via size 8 poisoned with
  | none => (d.bellLost via).notePoison via poisoned
  | some s =>
    let n := bits val.toNat 0 20
    match tblGet d.skid.cqs n with
    | none => d.bellLost via
    | some c =>
      if c.slice ≠ s ∨ bits val.toNat 20 4 ≠ 0 ∨ bits val.toNat 25 7 ≠ 0 then d.bellLost via
      else
        let c' : Cq := { c with head := bits val.toNat 32 32, armed := c.armed || val.getLsbD 24 }
        let d := { d with skid := { d.skid with cqs := tblPut d.skid.cqs n c' } }
        d.releaseCqes n (c.held.length + 1)

/-- The packets of the miss chains of a queue pair, which leave them. -/
def Dev.takeChains (d : Dev) (n : Nat) : List RxPkt × Dev :=
  (d.chain .west n ++ d.chain .east n,
   { d with skid := { d.skid with chains := tblDel (tblDel d.skid.chains (chainKey .west n)) (chainKey .east n) } })

/-- Process a miss chain in arrival order (R192). -/
def Dev.runChain (d : Dev) (n : Nat) : Dev :=
  let x := d.takeChains n
  x.1.foldl Dev.rx x.2

/-- Discard a miss chain and count each packet. -/
def Dev.dropChain (d : Dev) (n : Nat) : Dev :=
  let x := d.takeChains n
  x.1.foldl (fun d p => d.rxDrop (rxHdr p).die skDropAbsent) x.2

/-- The context that an entry of the backing store holds for a QPN (R191): authentic, VERSION 0x0100. -/
def Dev.openEntry (d : Dev) (n : Nat) (bs : List Byte) : Option (BitVec 2048) :=
  let ctr := fieldAt bs 0x100 6
  let try_ := fun die => d.openInternal (ikBacking die) ctr (le 4 n) (bytesAt bs 0 256) (bytesAt bs 0x110 16)
  match (match try_ .west with
    | some pt => some pt
    | none => try_ .east) with
  | some pt => if fieldAt pt 0 2 = 0x0100 then some (BitVec.ofNat 2048 (unle pt)) else none
  | none => none

/-- A context fetch ends (R192, R193). A queue pair that the fetched context describes has the fields of that
copy. While no slot of the cache can be freed the fetch is issued again. -/
def Dev.fetchDone (d : Dev) (n : Nat) (r : CtxFetch) : Dev :=
  let die : Die := match d.qp n with
    | some q => q.die
    | none => .west
  match r with
  | .failed => (d.dropChain n).faultOpen (4 + die.num) .contained die.num (d.bsAddr n)
  | .entry bs =>
    match d.openEntry n bs, d.qp n with
    | some ctx, some q =>
      if q.cache.isSome then d
      else
        let d := ((d.modQp n (fun q => { q with ctx := ctx, writeback := false })).cacheQp n)
        match d.qp n with
        | some q' =>
          if q'.cache.isNone then d.fetchCtx n
          else
            let bells := q.bells
            let d := d.modQp n (fun q => { q with bells := [] })
            (bells.foldl (fun d b => d.bell n b.1 b.2.1 b.2.2) d).runChain n
        | none => d
    | _, _ =>
      let d := d.dropChain n
      { d with skid := { d.skid with absent := addOnce d.skid.absent n } }

/-- A context write-back ends (R193): a fetch that waited is issued. -/
def Dev.writebackDone (d : Dev) (n : Nat) : Dev :=
  match d.qp n with
  | some q =>
    if q.writeback then
      let d := d.modQp n (fun q => { q with writeback := false })
      if !(d.takeChains n).1.isEmpty || !q.bells.isEmpty then d.fetchCtx n else d
    else d
  | none => d

/-- 1 ms after a failed fetch (R193). -/
def Dev.absentExpiry (d : Dev) (n : Nat) : Dev := { d with skid := { d.skid with absent := d.skid.absent.filter (· != n) } }

end Sys2Proof.Machine
end

