-- ==== Sys2Proof/Machine/SkidCmd.lean ====
section
/-! DEFINITION. The commands on queue pairs, completion queues, memory regions and address handles
(06_skid_transport R184, R188, R190, R191, R193, 12 R377 and Table 12.8). -/

namespace Sys2Proof.Machine

def rsNoCapacity : Nat := 0x42

/-! ### Templates (R377) -/

/-- The fields of a template that host software sets, beside MODE. -/
def templateFields : List CF :=
  [cDestQpn, cDstNode, cDgid, cDmac, cVlan, cDscp, cTc, cPmtu, cPaths, cSport, cPort, cAccess, cKeySlot, cPeerSession,
   cRetry, cRnrRetry, cRnrTimer, cRtoMin, cQkey, cSqAddr, cRqAddr, cSqLog2, cRqLog2, cScqn, cRcqn, cRdReq, cRdRsp, cPd]

/-- Copy the fields that lie in words of the mask, one bit per 4 B of the template. -/
def Qp.copyFrom (q : Qp) (t : Nat) (mask : Nat) : Qp :=
  templateFields.foldl (fun q c => if bit mask (c.lo / 32) then q.put c (bits t c.lo c.w) else q) q

/-- MODE of a template: UD and MP as written; SKID and DIAG as the path has them (R377). -/
def modeOf (t : Nat) (mgr : Bool) : Nat :=
  bits t 24 2 + (if mgr then 4 * bits t 26 1 + 16 * bits t 28 1 else 4)

/-- The values of a context that the device can use (Table 6.3). -/
def Qp.fieldsOk (q : Qp) : Bool :=
  1 ≤ q.f cPmtu && q.f cPmtu ≤ 5 && 1 ≤ q.f cPaths && q.f cPaths ≤ 128 && (q.isMp || q.f cPaths = 1) &&
  6 ≤ q.f cSqLog2 && q.f cSqLog2 ≤ 16 && 6 ≤ q.f cRqLog2 && q.f cRqLog2 ≤ 16 && 8 ≤ q.f cRtoMin &&
  1 ≤ q.f cRdReq && q.f cRdReq ≤ 128 && 1 ≤ q.f cRdRsp && q.f cRdRsp ≤ 128 && !(q.isUd && q.isMp)

/-- The objects that a context names belong to its slice (R377). -/
def Dev.namesOk (d : Dev) (c : Cmd) (q : Qp) : Bool :=
  let s := q.f cSlice
  let cqOk := fun n => match tblGet d.skid.cqs n with
    | some k => k.slice == s
    | none => false
  cqOk (q.f cScqn) && cqOk (q.f cRcqn) &&
  (match d.key (q.f cKeySlot) with
    | some k => d.keySlice k == some s || (k.owner == .device && c.mgrPort.isSome)
    | none => false)

/-- Queue pairs of a slice. -/
def Dev.qpCount (d : Dev) (s : Nat) : Nat := (d.skid.qps.filter (fun e => e.2.f cSlice == s)).length

/-- The lowest free QPN from 2 on; within the backing store's entries while it is enabled. -/
def Dev.freeQpn (d : Dev) : Option Nat :=
  let top := if d.bsEn then d.fld F.SKD_BS_CTRL_COUNT 0 else 2 ^ 24
  ((List.range (d.skid.qps.length + 1)).map (· + 2)).find? (fun n => n < top && (d.qp n).isNone)

/-- The fields of a context at creation (R217). -/
def Dev.newCtx (d : Dev) (q : Qp) (n s mode : Nat) : Qp :=
  let rate := d.portRate (q.f cPort)
  [(cVersion, 0x0100), (cState, qsReset), (cMode, mode), (cQpn, n), (cSlice, s), (cRc, rate), (cRt, rate),
   (cRetryLeft, q.f cRetry), (cRnrLeft, q.f cRnrRetry)].foldl (fun q e => q.put e.1 e.2) q

/-- Put a new queue pair: cached when its die has room or can make some, and written to the backing store. -/
def Dev.addQp (d : Dev) (n : Nat) (q : Qp) : Dev :=
  let d := { d with skid := { d.skid with qps := tblPut d.skid.qps n q } }
  ((d.cacheQp n).bsWrite n q.die q.ctx)

/-- The slice that a command acts on is managed and takes commands on objects. -/
def Dev.objectSlice (d : Dev) (c : Cmd) : Option Nat :=
  if !d.mayName c then some rsNotPermitted
  else if (d.slice c.target).state ≠ .active ∧ (d.slice c.target).state ≠ .quiescing ∧
    (d.slice c.target).state ≠ .quiesced then some rsWrongState
  else none

/-- QP_CREATE; the template as it was read, none when it could not be read. -/
def Dev.qpCreate (c : Cmd) (tpl : Option (List Byte)) (d : Dev) : Reply :=
  let s := c.target
  if !zeroFrom c 1 then .refuse d rsBadField
  else match d.objectSlice c, tpl with
    | some r, _ => .refuse d r
    | none, none => .refuse d rsBadField
    | none, some t =>
      if (d.slice s).state ≠ .active then .refuse d rsWrongState
      else
        let t := unle (bytesAt t 0 256)
        let mode := modeOf t c.mgrPort.isSome
        let q := (((Qp.of 0).put cMode mode).put cSlice s).copyFrom t (2 ^ 64 - 1)
        if !bit mode 2 ∨ !q.fieldsOk then .refuse d rsBadField
        else if !d.namesOk c q then .refuse d rsNotPermitted
        else match d.freeQpn with
          | none => .refuse d rsNoCapacity
          | some n =>
            if d.qpCount s ≥ (d.slice s).qpQuota ∨ (!d.bsEn && (d.cacheSlot q.die).isNone) then .refuse d rsNoCapacity
            else
              let d := (d.addQp n (d.newCtx q n s mode)).refKey (q.f cKeySlot) true
              .ok d (le 3 n)

/-- The IBTA transitions that QP_MODIFY makes (R184). -/
def transitionOk (a b : Nat) : Bool :=
  b == qsReset || b == qsErr || (a == qsReset && b == qsInit) || (a == qsInit && (b == qsInit || b == qsRtr)) ||
  (a == qsRtr && b == qsRts) || (a == qsRts && (b == qsRts || b == qsSqd)) ||
  (a == qsSqd && (b == qsSqd || b == qsRts)) || (a == qsSqe && b == qsRts)

/-- Move a queue pair to a state (R184, R200, R213). -/
def Dev.qpMove (d : Dev) (n st : Nat) : Dev :=
  match d.qp n with
  | none => d
  | some q =>
    if st = qsErr then d.qpError n none
    else if st = qsReset then d.modQp n (fun q => q.toReset)
    else if st = qsRtr then d.modQp n (fun q => { q.put cState st with rq := [], rqNext := q.f cRqMsn, rxMsn := q.f cRqMsn })
    else (d.modQp n (fun q => q.put cState st)).runQp n

/-- A cached queue pair whose pending port lies on the other die moves there once its egress queue is empty (R190, R240). -/
def Dev.settleMove (d : Dev) (n : Nat) : Dev :=
  match d.qp n with
  | none => d
  | some q => match q.cache with
    | none => d
    | some k =>
      let b := d.bq (queueKey q.die k)
      match b.rebind with
      | some (p, t) =>
        if b.frames.isEmpty ∧ portDie p ≠ q.die then
          ((d.unbindQueue q.die k).modQp n (fun q => { (q.put cPort p).put cTc t with cache := none })).cacheQp n
        else d
      | none => d

/-- The queue pair waits to move to the other die. -/
def Dev.moves (d : Dev) (q : Qp) : Bool :=
  match q.cache with
  | some k => (d.bq (queueKey q.die k)).rebind.isSome
  | none => false

/-- Queues may be empty now: the queue pairs that wait to move do. -/
def Dev.settleMoves (d : Dev) : Dev := ((d.skid.qps.filter (fun e => d.moves e.2)).map (·.1)).foldl Dev.settleMove d

/-- A queue pair moves to another port or class: its egress queue follows once it is empty (R240). Until then a queue pair
that changes dies stays with its port and class on the die that serves it (DESIGN CHOICE, log 74). -/
def Dev.moveQueue (d : Dev) (n : Nat) (old new : Qp) : Dev :=
  if old.f cPort = new.f cPort ∧ old.f cTc = new.f cTc then d
  else match new.cache with
    | none => d
    | some k =>
      let d := d.rebindQueue old.die k (new.f cPort) (new.f cTc)
      if old.die = new.die then d
      else (d.modQp n (fun q => (q.put cPort (old.f cPort)).put cTc (old.f cTc))).settleMove n

/-- Bring the context of a command's queue pair into the cache (R193); false when it could not be fetched. Without an answer
of the fetch it is issued, and the command does not act. -/
def Dev.withContext (d : Dev) (n : Nat) (r : Option CtxFetch) : Bool × Dev :=
  match d.qp n with
  | none => (true, d)
  | some q =>
    if q.cache.isSome then (true, d)
    else match r with
      | none => (false, d.fetchCtx n)
      | some .failed => (false, d.fetchDone n .failed)
      | some (.entry bs) => (true, d.fetchDone n (.entry bs))

/-- The queue pair that a command may name; one whose entry of the store was not authentic does not exist (R191). -/
def Dev.cmdQp (d : Dev) (c : Cmd) (n : Nat) : Nat ⊕ Qp :=
  match d.qp n with
  | none => .inl rsWrongState
  | some q =>
    if q.cache.isNone ∧ n ∈ d.skid.absent then .inl rsWrongState
    else if q.f cSlice ≠ c.target then .inl rsNotPermitted
    else .inr q

/-- QP_MODIFY; the template, and the context fetch of an uncached queue pair. -/
def Dev.qpModify (c : Cmd) (tpl : Option (List Byte)) (r : Option CtxFetch) (d : Dev) : Reply :=
  let n := bits (c.w 0) 0 24
  let st := bits (c.w 0) 24 3
  let mask := c.w 1
  if !zeroFrom c 3 ∨ c.w 0 ≥ 2 ^ 27 ∨ st = 7 ∨ st = qsSqe then .refuse d rsBadField
  else match d.objectSlice c with
    | some rs => .refuse d rs
    | none =>
      let x := d.withContext n r
      let d := x.2
      if !x.1 then .refuse d rsFetchFailed
      else match d.cmdQp c n with
      | .inl rs => .refuse d rs
      | .inr q =>
        if q.isColl then .refuse d rsNotPermitted
        else if !transitionOk (q.f cState) st then .refuse d rsWrongState
        else
          let t := unle (bytesAt (tpl.getD []) 0 256)
          let mode := if bit mask 0 then (if c.mgrPort.isSome then modeOf t true
              else modeOf t false + 16 * bits (q.f cMode) 4 1) else q.f cMode
          let q' := (q.put cMode mode).copyFrom t mask
          if (mask ≠ 0 ∧ tpl.isNone) ∨ !q'.fieldsOk ∨ !q'.isSkid then .refuse d rsBadField
          else if !d.namesOk c q' then .refuse d rsNotPermitted
          else
            let d := (d.refKey (q.f cKeySlot) false).refKey (q'.f cKeySlot) true
            let d := (d.modQp n (fun _ => q')).moveQueue n q q'
            .ok (d.qpMove n st) []

/-- The fields that a copy for a manager shows as 0 (R281). -/
def hideFields (ctx : BitVec 2048) : BitVec 2048 :=
  ([cSqAddr, cRqAddr, cQkey, cPd, cKeySlot].foldl (fun q c => q.put c 0) (Qp.of ctx)).ctx

/-- QP_QUERY (R281). -/
def Dev.qpQuery (c : Cmd) (o : Owner) (d : Dev) : Reply :=
  let n := c.w 0
  if !zeroFrom c 2 ∨ n ≥ 2 ^ 24 then .refuse d rsBadField
  else match d.objectSlice c with
    | some rs => .refuse d rs
    | none => match d.cmdQp c n with
      | .inl rs => .refuse d rs
      | .inr q =>
        let ctx := if c.mgrPort.isSome ∧ (d.slice c.target).kind = .tenant then hideFields q.ctx else q.ctx
        .ok (d.report o (c.w 1) (le 256 ctx.toNat)) []

/-- Destroy a queue pair: waits on it break, its miss chain is discarded, its queue is unbound, its entry in the
store becomes VERSION 0, and its resources are free. -/
def Dev.dropQp (d : Dev) (n : Nat) : Dev :=
  match d.qp n with
  | none => d
  | some q =>
    let d := (d.breakWaits n).dropChain n
    let d := match q.cache with
      | some k => d.unbindQueue q.die k
      | none => d
    let d := (d.refKey (q.f cKeySlot) false).bsWrite n q.die (((q.put cVersion 0).put cState qsReset).ctx)
    { d with skid := { d.skid with qps := tblDel d.skid.qps n, absent := d.skid.absent.filter (· != n) } }

/-- QP_DESTROY (R193). -/
def Dev.qpDestroy (c : Cmd) (r : Option CtxFetch) (d : Dev) : Reply :=
  let n := c.w 0
  if !zeroFrom c 1 ∨ n ≥ 2 ^ 24 then .refuse d rsBadField
  else match d.objectSlice c with
    | some rs => .refuse d rs
    | none =>
      let x := d.withContext n r
      let d := x.2
      if !x.1 then .refuse d rsFetchFailed
      else match d.cmdQp c n with
      | .inl rs => .refuse d rs
      | .inr q => if q.isColl then .refuse d rsNotPermitted else .ok (d.dropQp n) []

/-! ### Completion queues (R208) -/

/-- CQ_CREATE. -/
def Dev.cqCreate (c : Cmd) (d : Dev) : Reply :=
  let lg2 := bits (c.w 1) 0 5
  let vec := bits (c.w 1) 5 11
  if !zeroFrom c 2 ∨ c.w 1 ≥ 2 ^ 16 ∨ lg2 < 6 ∨ lg2 > 22 ∨ vec ≥ (d.slice c.target).vecCount then .refuse d rsBadField
  else match d.objectSlice c with
    | some rs => .refuse d rs
    | none => match tblFree d.skid.cqs (2 ^ 20) with
      | none => .refuse d rsNoCapacity
      | some n =>
        let k : Cq := ⟨c.target, c.w 0, lg2, vec, 0, 0, false, []⟩
        .ok { d with skid := { d.skid with cqs := tblPut d.skid.cqs n k } } (le 3 n)

/-- CQ_DESTROY: refused while a queue pair names it. -/
def Dev.cqDestroy (c : Cmd) (d : Dev) : Reply :=
  let n := c.w 0
  if !zeroFrom c 1 ∨ n ≥ 2 ^ 20 then .refuse d rsBadField
  else match d.objectSlice c with
    | some rs => .refuse d rs
    | none => match tblGet d.skid.cqs n with
      | none => .refuse d rsWrongState
      | some k =>
        if k.slice ≠ c.target then .refuse d rsNotPermitted
        else if d.skid.qps.any (fun e => !e.2.isColl && e.2.f cSlice == c.target && (e.2.f cScqn == n || e.2.f cRcqn == n)) then
          .refuse d rsWrongState
        else .ok { d with skid := { d.skid with cqs := tblDel d.skid.cqs n } } []

/-! ### Memory regions (R187) -/

/-- Pages of the slice that a region needs and no region has brought in yet are allocated from its quota
(DEDUCED, log 19). -/
def Dev.regionPages (d : Dev) (s base len : Nat) : Option Dev :=
  let first := base / pageBytes
  let n := if len = 0 then 0 else (base + len - 1) / pageBytes + 1 - first
  let need := ((List.range n).map (· + first)).filter (fun p => (tblGet d.skid.pages (s * 2 ^ 20 + p)).isNone)
  if n > 2 ^ 20 then none
  else match d.allocPages s 100 need.length with
    | none => none
    | some (rs, d) =>
      let got := (rs.map (fun r => (List.range r.2).map (· + r.1))).flatten
      some { d with skid := { d.skid with pages := (need.zip got).foldl (fun t e => tblPut t (s * 2 ^ 20 + e.1) e.2) d.skid.pages } }

/-- MR_REG. A region behind PCIe lies in the slice's windows on its port. -/
def Dev.mrReg (c : Cmd) (d : Dev) : Reply :=
  let s := c.target
  let base := c.w 0
  let len := c.w 1
  let rights := bits (c.w 2) 0 4
  let port := bits (c.w 2) 4 2
  let lp := bit (c.w 2) 6
  let persist := bit (c.w 2) 7
  if !zeroFrom c 4 ∨ c.w 2 ≥ 256 ∨ c.w 3 ≥ 2 ^ 24 ∨ len = 0 ∨ base + len > 2 ^ 64 then .refuse d rsBadField
  else match d.objectSlice c with
    | some rs => .refuse d rs
    | none =>
      let sl := d.slice s
      let dma := (!bit rights 0 || sl.dmaOk port base len true) && (!bit rights 1 || sl.dmaOk port base len false) &&
        (!bit rights 2 || (sl.dmaOk port base len true && sl.dmaOk port base len false))
      let d' : Option Dev := if lp then d.regionPages s base len else if dma then some d else none
      match d', tblFree d.skid.mrs (2 ^ 24) with
      | none, _ => .refuse d (if lp then rsNoCapacity else rsBadField)
      | _, none => .refuse d rsNoCapacity
      | some d, some ix =>
        let tag := (tblGetD d.skid.mrTags ix 0 + 1) % 256
        .ok { d with skid := { d.skid with
          mrs := tblPut d.skid.mrs ix ⟨s, tag, base, len, rights, port, lp, persist, c.w 3⟩
          mrTags := tblPut d.skid.mrTags ix tag } } (le 4 (ix + tag * 2 ^ 24))

/-- A READ or atomic waits at the responder that names the region. -/
def Dev.regionBusy (d : Dev) (s ix : Nat) : Bool :=
  d.skid.qps.any (fun e => e.2.f cSlice == s && e.2.reqs.any (fun r => match r.pkt with
    | .read p => bits p.rkey.toNat 0 24 == ix
    | .atomic _ p => bits p.rkey.toNat 0 24 == ix
    | _ => false))

/-- MR_DEREG. -/
def Dev.mrDereg (c : Cmd) (d : Dev) : Reply :=
  let ix := bits (c.w 0) 0 24
  if !zeroFrom c 1 ∨ c.w 0 ≥ 2 ^ 32 then .refuse d rsBadField
  else match d.objectSlice c with
    | some rs => .refuse d rs
    | none => match tblGet d.skid.mrs ix with
      | none => .refuse d rsWrongState
      | some m =>
        if m.slice ≠ c.target then .refuse d rsNotPermitted
        else if m.tag ≠ bits (c.w 0) 24 8 then .refuse d rsWrongState
        else if d.regionBusy m.slice ix then .refuse d rsWrongState
        else .ok { d with skid := { d.skid with mrs := tblDel d.skid.mrs ix } } []

/-! ### Address handles -/

/-- AH_CREATE; the 32 B as read. -/
def Dev.ahCreate (c : Cmd) (ah : Option (List Byte)) (d : Dev) : Reply :=
  if !zeroFrom c 1 then .refuse d rsBadField
  else match d.objectSlice c, ah with
    | some rs, _ => .refuse d rs
    | none, none => .refuse d rsBadField
    | none, some b =>
      if !zeroAt b 28 4 ∨ fieldAt b 24 1 ≥ 64 ∨ fieldAt b 25 1 ≥ 32 then .refuse d rsBadField
      else match tblFree d.skid.ahs (2 ^ 16) with
        | none => .refuse d rsNoCapacity
        | some n =>
          let a : Ah := ⟨c.target, BitVec.ofNat 128 (fieldAt b 0 16), BitVec.ofNat 48 (fieldAt b 16 6), fieldAt b 22 2,
            fieldAt b 24 1, fieldAt b 25 1, fieldAt b 26 2⟩
          .ok { d with skid := { d.skid with ahs := tblPut d.skid.ahs n a } } (le 2 n)

/-- AH_DESTROY. -/
def Dev.ahDestroy (c : Cmd) (d : Dev) : Reply :=
  let n := c.w 0
  if !zeroFrom c 1 ∨ n ≥ 2 ^ 16 then .refuse d rsBadField
  else match d.objectSlice c with
    | some rs => .refuse d rs
    | none => match tblGet d.skid.ahs n with
      | none => .refuse d rsWrongState
      | some a => if a.slice ≠ c.target then .refuse d rsNotPermitted
        else .ok { d with skid := { d.skid with ahs := tblDel d.skid.ahs n } } []

/-! ### Collective queue pairs (R211, Table 6.15) -/

/-- The address handle of a slice that reaches a node: the lowest-indexed one. -/
def Dev.handleTo (d : Dev) (s node : Nat) : Option Ah :=
  (d.skid.ahs.find? (fun e => e.2.slice == s && e.2.dstNode == node)).map (·.2)

/-- The context of a collective queue pair at admission, in RESET. -/
def Dev.collQp (d : Dev) (n s slot node paths : Nat) (a : Ah) : Qp :=
  let base := [(cDstNode, node), (cDgid, a.dgid.toNat), (cDmac, a.dmac.toNat), (cVlan, a.vlan), (cDscp, a.dscp),
    (cPort, a.port), (cTc, a.dscp / 8), (cPmtu, 5), (cPaths, paths), (cSport, d.node * 128 % 16384), (cAccess, 1),
    (cRetry, 7), (cRnrRetry, 7), (cRnrTimer, 1), (cRtoMin, 64), (cRdReq, 16), (cRdRsp, 16), (cPlan, slot),
    (cSqLog2, 16), (cRqLog2, 16)].foldl (fun q e => Qp.put q e.1 e.2) (Qp.of 0)
  d.newCtx base n s ((if paths > 1 then 2 else 0) + 4 + 8 + 32)

/-- Connect a collective queue pair from RESET or ERR to RTS with the session's values (R211). -/
def Dev.collConnect (d : Dev) (n txSlot peerRx peerQpn : Nat) : Dev :=
  match d.qp n with
  | none => d
  | some q =>
    if q.f cState ≠ qsReset ∧ q.f cState ≠ qsErr then d
    else (if q.f cState = qsErr then d.refKey (q.f cKeySlot) false else d).modQp n (fun q =>
      let q := q.toReset
      ((((q.put cState qsRts).put cDestQpn peerQpn).put cKeySlot txSlot).put cPeerSession peerRx))

end Sys2Proof.Machine
end

