-- ==== Sys2Proof/Machine/Sessions.lean ====
section
/-! DEFINITION. The SPDM responder, and sessions between devices (13_bark_security R388 to R391, R399 to R403,
R408, R410). -/

namespace Sys2Proof.Machine

/-! ### SPDM responder (R390, Table 13.3). Request, response and error codes are those of DSP0274 (PRESUMED, log 20) -/

/-- The number of a transport. -/
def viaKey : SpdmVia → Nat
  | .doe p => p % 4
  | .mctp d => 4 + d.num
  | .peer n => 16 + n

/-- The transport is another device's. -/
def viaPeer : SpdmVia → Option Nat
  | .peer n => some n
  | _ => none

/-- Bark answers on a transport: PCIe, the sideband and the network serve from HOST_WAIT on, and in BOOT_HOLD the
sideband of Scaler W alone (R365, R374, R449); after a fatal fault no packet goes to a peer (R429). -/
def Dev.viaUp (d : Dev) (via : SpdmVia) : Bool :=
  (d.scaler.boot == .hostWait || d.scaler.boot == .running || (d.scaler.boot == .hold && via == .mctp .west)) &&
  ((viaPeer via).isNone || !d.fatal)

/-- A request that arrives on a transport, where Bark answers there. -/
def Dev.viaRun (d : Dev) (via : SpdmVia) (f : Dev → Dev) : Dev := if d.viaUp via then f d else d

/-- Answer with an ERROR. -/
def Dev.spdmErr (d : Dev) (via : SpdmVia) (code : Nat) : Dev := d.emit (.spdm via 0x7F [code] [] none)

def speInvalid : Nat := 0x01
def speUnexpected : Nat := 0x04
def speUnsupported : Nat := 0x07
def speVersion : Nat := 0x41

/-- A requester's connection. -/
def Dev.conn (d : Dev) (via : SpdmVia) : SpdmConn := tblGetD d.bark.conns (viaKey via) ⟨0, 0, none⟩

/-- Set a requester's connection. -/
def Dev.setConn (d : Dev) (via : SpdmVia) (c : SpdmConn) : Dev :=
  { d with bark := { d.bark with conns := tblPut d.bark.conns (viaKey via) c } }

/-- GET_VERSION: the responder answers 1.2 and 1.3, and the connection starts over. -/
def Dev.spdmVersion (d : Dev) (via : SpdmVia) : Dev :=
  (d.setConn via ⟨1, 0, none⟩).emit (.spdm via 0x04 [0x12, 0x13] [] none)

/-- The capability flags of Table 13.3: CERT, CHAL, MEAS with signature, MEAS_FRESH, ENCRYPT, MAC, MUT_AUTH,
KEY_EX, ENCAP, HBEAT. -/
def spdmFlags : Nat := 0x02 + 0x04 + 0x10 + 0x20 + 0x40 + 0x80 + 0x100 + 0x200 + 0x1000 + 0x2000

/-- GET_CAPABILITIES. -/
def Dev.spdmCapabilities (d : Dev) (via : SpdmVia) (version : Nat) : Dev :=
  if (d.conn via).step < 1 then d.spdmErr via speUnexpected
  else if version ≠ 0x12 ∧ version ≠ 0x13 then d.spdmErr via speVersion
  else (d.setConn via ⟨2, version, none⟩).emit (.spdm via 0x61 [spdmFlags, 4096] [] none)

/-- NEGOTIATE_ALGORITHMS: `supported` says that the request offers the algorithms of Table 13.3. -/
def Dev.spdmAlgorithms (d : Dev) (via : SpdmVia) (supported : Bool) : Dev :=
  let c := d.conn via
  if c.step < 2 then d.spdmErr via speUnexpected
  else if !supported then d.spdmErr via speUnsupported
  else (d.setConn via { c with step := 3 }).emit (.spdm via 0x63 [] [] none)

/-- A request that needs a negotiated connection. -/
def Dev.spdmReady (d : Dev) (via : SpdmVia) (f : Dev → Dev) : Dev :=
  if (d.conn via).step < 3 then d.spdmErr via speUnexpected else f d

/-- GET_DIGESTS: slot 0 only. -/
def Dev.spdmDigests (d : Dev) (via : SpdmVia) : Dev :=
  d.spdmReady via (fun d => d.emit (.spdm via 0x01 [1] [(0, Config.chainDigest)] none))

/-- GET_CERTIFICATE of slot 0. -/
def Dev.spdmCertificate (d : Dev) (via : SpdmVia) (slot offset len : Nat) : Dev :=
  d.spdmReady via (fun d =>
    if slot ≠ 0 then d.spdmErr via speUnsupported
    else if len > 4096 then d.spdmErr via speUnsupported
    else d.emit (.spdm via 0x02 [slot, offset, len] [] none))

/-- The indices of Table 13.2. -/
def measIndices : List Nat := (List.range 11).map (· + 1) ++ (List.range 64).map (· + 16)

/-- Bytes that a signature covers: the nonce and the blocks of the response. -/
def signedBytes (nonce : BitVec 256) (bs : List (Nat × BitVec 256)) : List Byte :=
  le 32 nonce.toNat ++ (bs.map (fun b => le 1 b.1 ++ be 32 b.2.toNat)).flatten

/-- CHALLENGE of slot 0: signed by IDK. -/
def Dev.spdmChallenge (d : Dev) (via : SpdmVia) (slot : Nat) (nonce : BitVec 256) : Dev :=
  d.spdmReady via (fun d =>
    if slot ≠ 0 then d.spdmErr via speUnsupported
    else
      let bs := [(0, Config.chainDigest)]
      d.emit (.spdm via 0x03 [0] bs (some (d.signIdk (signedBytes nonce bs)))))

/-- GET_MEASUREMENTS (R388, R391): index 0 asks for the number of blocks, 0xFF for all. -/
def Dev.spdmMeasurements (d : Dev) (via : SpdmVia) (index : Nat) (signed : Bool) (nonce : BitVec 256) : Dev :=
  d.spdmReady via (fun d =>
    let ixs := if index = 0 then [] else if index = 0xFF then measIndices else measIndices.filter (· = index)
    if index ≠ 0 ∧ ixs.isEmpty then d.spdmErr via speInvalid
    else
      let bs := ixs.map (fun i => (i, d.measOf i))
      d.emit (.spdm via 0x60 [measIndices.length] bs (if signed then some (d.signIdk (signedBytes nonce bs)) else none)))

/-! ### Sessions (R399, R400, R402, R410) -/

/-- Remove a session with both its slots. -/
def Dev.dropSession (d : Dev) (id : Nat) : Dev :=
  let d := d.freeKeys (fun _ k => k.owner == .session id)
  { d with bark := { d.bark with sessions := tblDel d.bark.sessions id } }

/-- Close a session: END_SESSION goes to the peer (R408, R410). -/
def Dev.closeSession (d : Dev) (id : Nat) : Dev :=
  match d.session id with
  | some s => (d.emit (.spdm (.peer s.peer) 0xEC [id] [] none)).dropSession id
  | none => d

/-- The key and SALT of a direction (R400). -/
def sessionKey (ems : BitVec 256) (dir : String) : BitVec 512 × BitVec 48 :=
  let b := hkdfExpand (be 32 ems.toNat) (ascii "erward skid " ++ ascii dir) 38
  (BitVec.ofNat 512 (unle (b.take 32)), BitVec.ofNat 48 (unle (b.drop 32)))

/-- Load a slot of a session. -/
def Dev.loadSession (d : Dev) (slot : Nat) (k : BitVec 512 × BitVec 48) : Dev :=
  d.modKey slot (fun s => { s with state := .loaded, key := k.1, salt := k.2, limit := 2 ^ 48 - 1, next := 0 })

/-- Both sides hold the secret: the slots are loaded (R400). -/
def Dev.establish (d : Dev) (id peerRx qpn : Nat) (ver : BitVec 16) : Dev :=
  match d.session id with
  | none => d
  | some s =>
    let ems := Config.exportSecret s.peer id
    let req := sessionKey ems "req"
    let rsp := sessionKey ems "rsp"
    let d := d.loadSession s.tx (if s.requester then req else rsp)
    let d := d.loadSession s.rx (if s.requester then rsp else req)
    d.modSession id (fun s => { s with step := 9, owner := none, peerRx := peerRx, peerQpn := qpn, version := ver })

/-- Move every queue pair that names the old slots to the new ones, between two packets (R402). -/
def Dev.moveQps (d : Dev) (old new : Session) : Dev :=
  (d.skid.qps.filter (fun e => e.2.f cKeySlot == old.tx)).foldl (fun d e =>
    ((d.modQp e.1 (fun q => (q.put cKeySlot new.tx).put cPeerSession new.peerRx)).refKey old.tx false).refKey new.tx true) d

/-- A replacement is established: the queue pairs move, and the old session waits 1 s. -/
def Dev.replaced (d : Dev) (id : Nat) : Dev :=
  match d.session id with
  | some s => match s.replaces with
    | some o => match d.session o with
      | some old => ((d.moveQps old s).modSession o (fun t => { t with old := true })).modSession id (fun t =>
          { t with replaces := none })
      | none => d
    | none => d
  | none => d

/-- 1 s after the move both old slots are freed (R402). -/
def Dev.oldExpiry (d : Dev) (id : Nat) : Dev :=
  match d.session id with
  | some s => if s.old then d.dropSession id else d
  | none => d

/-- A handshake ends without a session: the slots are freed, and the command that waits is told why. -/
def Dev.failSession (d : Dev) (id reason : Nat) : Dev :=
  match d.session id with
  | none => d
  | some s =>
    let d := d.dropSession id
    let d := match s.replaces with
      | some o => d.modSession o (fun t => { t with stuck := true })
      | none => d
    match s.owner with
    | some o => d.finish o stRefused reason []
    | none => d

/-- The collective message versions of the device (interface 2). -/
def ownVersions : List (BitVec 16) := [0x0100]

/-- The version agreed with a peer (R133): the highest major number that both sides name, with the lower of the two
minor numbers for it. -/
def agreedOf (vs : List (BitVec 16)) : Option (BitVec 16) :=
  let both := (ownVersions.map (fun o => (vs.filter (fun v => v.toNat / 256 = o.toNat / 256)).map (fun v =>
    min v.toNat o.toNat))).flatten
  match both with
  | [] => none
  | v :: t => some (BitVec.ofNat 16 (t.foldl (fun a x => if x / 256 > a / 256 then x else if x / 256 = a / 256 then min a x else a) v))

/-- A peer's answer arrives (R399): the next step, the session, or the end of the handshake. -/
def Dev.spdmResponse (d : Dev) (id : Nat) (r : SpdmResp) : Dev :=
  match d.session id with
  | none => d
  | some s =>
    if !s.requester ∨ s.step ≥ 9 then d
    else
      let next := fun (n : Nat) => if s.step + 1 = n then (d.modSession id (fun s => { s with step := n })).sendStep id else d
      match r with
      | .version => next 1
      | .capabilities => next 2
      | .algorithms => next 3
      | .vendorDefined ok => if s.step ≠ 3 then d else if ok then next 4 else d.failSession id rsPeerRefused
      | .digests => next 5
      | .certificate => next 6
      | .measurements => next 7
      | .keyExchange => next 8
      | .error => d.failSession id rsPeerRefused
      | .finish chk =>
        if s.step ≠ 8 then d
        else if !chk.chainOk ∨ !chk.policyOk ∨ !chk.nodeOk then d.failSession id rsPolicyMismatch
        else if !chk.targetOk then d.failSession id rsPeerRefused
        else
          let ver := if s.plan.isSome then agreedOf chk.versions else some 0
          match ver with
          | none => d.failSession id rsPeerRefused
          | some v =>
            let d := (d.establish id chk.peerSlot chk.qpn v).replaced id
            match s.owner with
            | some o => d.finish o stOk 0 (le 6 (s.tx + s.rx * 2 ^ 16 + chk.peerSlot * 2 ^ 32))
            | none => d

/-- No answer within 2 s. -/
def Dev.sessionTimeout (d : Dev) (id : Nat) : Dev :=
  match d.session id with
  | some s => if s.requester ∧ s.step < 9 then d.failSession id rsPeerUnreachable else d
  | none => d

/-- SESSION_OPEN (R399, Table 13.8). -/
def Dev.sessionOpen (c : Cmd) (o : Owner) (d : Dev) : Reply :=
  let peer := bits (c.w 0) 0 16
  let ah := bits (c.w 0) 16 16
  let ps := bits (c.w 0) 32 9
  if !zeroFrom c 1 ∨ c.w 0 ≥ 2 ^ 41 then .refuse d rsBadField
  else match d.objectSlice c with
    | some rs => .refuse d rs
    | none => match tblGet d.skid.ahs ah with
      | none => .refuse d rsNotPermitted
      | some a =>
        if a.slice ≠ c.target then .refuse d rsNotPermitted
        else if !d.trng then .refuse d rsWrongState
        else match d.openSession peer c.target ps none (some o) none with
          | some d => .defer d
          | none => .refuse d rsNoFreeSlot

/-- SESSION_CLOSE. -/
def Dev.sessionClose (c : Cmd) (d : Dev) : Reply :=
  let n := c.w 0
  if !zeroFrom c 1 ∨ n ≥ 4096 then .refuse d rsBadField
  else match d.bark.sessions.find? (fun e => e.2.step = 9 ∧ (e.2.tx = n ∨ e.2.rx = n)) with
    | none => .refuse d rsNotPermitted
    | some (id, s) =>
      if s.slice ≠ c.target ∨ !d.mayName c then .refuse d rsNotPermitted
      else if s.plan.isSome ∨ d.keyRefs s.tx > 0 ∨ d.keyRefs s.rx > 0 then .refuse d rsSlotInUse
      else .ok (d.closeSession id) []

/-! ### The responder of a handshake -/

/-- The plan slot that holds a plan digest. -/
def Dev.planOfDigest (d : Dev) (g : BitVec 256) : Option Nat := (d.mill.plans.find? (fun e => e.2.digest == g)).map (·.1)

/-- VENDOR_DEFINED_REQUEST of a device (R399): the slice is ACTIVE, has room and accepts; or the plan is admitted.
The answer carries the versions of interface 2 and the queue pair for the peer (DESIGN CHOICE, log 39). -/
def Dev.spdmVendor (d : Dev) (via : SpdmVia) (vendor : Nat) (slice : Option Nat) (dig : BitVec 256)
    (versions : List (BitVec 16)) (qpn : Nat) : Dev :=
  d.spdmReady via (fun d => match viaPeer via with
    | none => d.spdmErr via speUnsupported
    | some node =>
      if vendor ≠ 0x1F3C then d.spdmErr via speUnsupported
      else match slice with
        | some s =>
          if s < 512 ∧ (d.slice s).state = .active ∧ d.slotQuota s 2 ∧ d.flag F.BRK_SLICE_SLOTS_ACCEPT s then
            (d.setConn via { d.conn via with target := some s }).emit (.spdm via 0x7E [s] [] none)
          else d.spdmErr via speInvalid
        | none => match d.planOfDigest dig with
          | none => d.spdmErr via speInvalid
          | some slot => match d.plan slot, agreedOf versions with
            | some p, some v =>
              (d.setConn via { d.conn via with target := some (512 + slot + 1024 * qpn) }).emit
                (.spdm via 0x7E [slot, v.toNat, tblGetD p.qps node 0] [] none)
            | _, _ => d.spdmErr via speInvalid)

/-- KEY_EXCHANGE (Table 13.3): only from a device that named what it wants; two slots are reserved. -/
def Dev.spdmKeyExchange (d : Dev) (via : SpdmVia) : Dev :=
  d.spdmReady via (fun d => match viaPeer via, (d.conn via).target with
    | some node, some t =>
      let slot := t % 1024 - 512
      let slice := if t < 512 then t else match d.plan slot with
        | some p => p.slice
        | none => 0
      (match d.makeSession node slice slice (if t < 512 then none else some slot) false none none with
      | some (id, d) => (d.modSession id (fun s => { s with step := 8, peerQpn := t / 1024 })).emit
          (.spdm via 0x64 [id] [] none)
      | none => d.spdmErr via speInvalid)
    | none, _ => d.spdmErr via speUnsupported
    | _, none => d.spdmErr via speUnexpected)

/-- The handshake with a node as responder that has reached KEY_EXCHANGE. -/
def Dev.pendingOf (d : Dev) (node : Nat) : Option Nat :=
  (d.bark.sessions.find? (fun e => !e.2.requester && e.2.peer = node && e.2.step = 8)).map (·.1)

/-- FINISH (R399): the responder accepts the requester when the four conditions hold. -/
def Dev.spdmFinish (d : Dev) (via : SpdmVia) (chk : PeerCheck) : Dev :=
  match viaPeer via with
  | none => d.spdmErr via speUnsupported
  | some node => match d.pendingOf node with
    | none => d.spdmErr via speUnexpected
    | some id => match d.session id with
      | none => d
      | some s =>
        let target := match s.plan with
          | some k => (d.plan k).isSome
          | none => (d.slice s.slice).state == .active && d.flag F.BRK_SLICE_SLOTS_ACCEPT s.slice
        let ver := if s.plan.isSome then agreedOf chk.versions else some 0
        if !chk.chainOk ∨ !chk.policyOk ∨ !chk.nodeOk ∨ !target then (d.dropSession id).spdmErr via speInvalid
        else match ver with
          | none => (d.dropSession id).spdmErr via speInvalid
          | some v => (d.establish id chk.peerSlot (if s.plan.isSome then s.peerQpn else chk.qpn) v).emit
              (.spdm via 0x65 [id, s.rx] [] none)

/-- END_SESSION of a peer. -/
def Dev.spdmEnd (d : Dev) (via : SpdmVia) (id : Nat) : Dev :=
  match viaPeer via, d.session id with
  | some node, some s =>
    if s.peer = node ∧ s.step = 9 then (d.dropSession id).emit (.spdm via 0x6C [id] [] none)
    else d.spdmErr via speInvalid
  | _, _ => d.spdmErr via speInvalid

/-- HEARTBEAT of a session. -/
def Dev.spdmHeartbeat (d : Dev) (via : SpdmVia) (id : Nat) : Dev :=
  match viaPeer via, d.session id with
  | some node, some s =>
    if s.peer = node ∧ s.step = 9 then d.emit (.spdm via 0x68 [id] [] none) else d.spdmErr via speInvalid
  | _, _ => d.spdmErr via speInvalid

/-- The slice's sessions close with END_SESSION, an open in progress ends with PEER_REFUSED, and its slots that are
not HELD are freed (R410). -/
def Dev.sliceKeysReset (d : Dev) (s : Nat) : Dev :=
  let d := (d.bark.sessions.filter (fun e => e.2.slice = s)).foldl (fun d e =>
    if e.2.step < 9 then d.failSession e.1 rsPeerRefused else d.closeSession e.1) d
  d.freeKeys (fun _ k => k.owner == .slice s && !k.held)

end Sys2Proof.Machine
end

