-- ==== Sys2Proof/Machine/Mill.lean ====
section
/-! DEFINITION. Admission of plans and the commands on plan slots (03_mill R104 to R115, R460, 05_memory R168,
04_collectives R136, R159, 11 R352, 13 R403). -/

namespace Sys2Proof.Machine

def rsNotManagerSlice : Nat := 0x13
def rsStartFail : Nat := 0x16
def rsNoKeySlots : Nat := 0x17

/-- Count numeric events for a plan, each count saturating at 48 bits, and in Tally (R78, R440). -/
def Dev.addEvents (d : Dev) (slot : Nat) (e : Events) : Dev :=
  let d := [e.sat, e.inf, e.nan, e.nanGrp, e.nanLost, e.invalid].foldl (fun (a : Nat × Dev) n => (a.1 + 1, a.2.countN a.1 n))
    (0x600, d)
  d.2.modPlan slot (fun p =>
    let s := p.events.add e
    let m := fun n => min n (2 ^ 48 - 1)
    { p with events := ⟨m s.sat, m s.inf, m s.nan, m s.nanGrp, m s.nanLost, m s.invalid⟩ })

/-! ### Units (R460, R113) -/

/-- A unit: 0 to 7 arrays, 8 to 15 vector units. -/
def Dev.unit (d : Dev) (n : Nat) : MillUnit := tblGetD d.mill.units n ⟨1, 0, 0, []⟩

/-- Put a unit. -/
def Dev.setUnit (d : Dev) (n : Nat) (u : MillUnit) : Dev :=
  { d with mill := { d.mill with units := tblPut d.mill.units n u } }

/-- Units in service serve a plan slot (Table 3.21, LAST_SLOT). Which units work on a plan is not given: its arrays,
and the vector units of the die or of all dies (DESIGN CHOICE, log 38). -/
def Dev.serve (d : Dev) (slot : Nat) (units : List Nat) : Dev :=
  units.foldl (fun d n => if (d.unit n).state = 3 then d else d.setUnit n { d.unit n with lastSlot := slot }) d

/-- The vector units. -/
def vectorUnits : List Nat := (List.range 8).map (· + 8)

/-- The array that a compute die can give for a role: one that has it, or the lowest one of no role. -/
def Dev.arrayOf (d : Dev) (die role : Nat) (taken : List Nat) : Option Nat :=
  let cand := [2 * die, 2 * die + 1].filter (fun n => (d.unit n).state ≠ 3 && !taken.contains n)
  match cand.find? (fun n => (d.unit n).role = role) with
  | some n => some n
  | none => cand.find? (fun n => (d.unit n).role = 0)

/-- Choose up to `n` arrays of a role, at most one per compute die, in ascending die number. -/
def Dev.chooseUpTo (d : Dev) (role n : Nat) (taken : List Nat) : List Nat × Dev :=
  [0, 1, 2, 3].foldl (fun (a : List Nat × Dev) die =>
    if a.1.length ≥ n then a
    else match a.2.arrayOf die role (taken ++ a.1) with
      | some u => (a.1 ++ [u], a.2.setUnit u { a.2.unit u with role := role })
      | none => a) ([], d)

/-- Choose `n` arrays of a role (R460); none when fewer dies can give one. -/
def Dev.chooseArrays (d : Dev) (role n : Nat) (taken : List Nat) : Option (List Nat × Dev) :=
  let r := d.chooseUpTo role n taken
  if r.1.length = n then some r else none

/-- Arrays that no admitted plan uses return to role none. -/
def Dev.settleRoles (d : Dev) : Dev :=
  (List.range 8).foldl (fun d n =>
    let u := d.unit n
    if u.role ≠ 0 ∧ !d.mill.plans.any (fun e => e.2.xArrays.contains n || e.2.gArrays.contains n) then
      d.setUnit n { u with role := 0 }
    else d) d

/-- The unit that stands in for one that left service (R113): one of the same role on another compute die, the lowest,
or else the lowest unit left. -/
def Dev.standIn (d : Dev) (u : Nat) : Option Nat :=
  let left := ((List.range 8).map (· + u / 8 * 8)).filter (fun n => (d.unit n).state ≠ 3)
  match left.find? (fun n => (d.unit n).role = (d.unit u).role && n / 2 != u / 2) with
  | some n => some n
  | none => left.head?

/-- The unit that takes the operations which a core issues to unit `u` (R84, R113): the unit itself, or its stand-in,
which stays until the plan is started again. -/
def Dev.routeOf (d : Dev) (c u : Nat) : Option Nat :=
  match tblGet d.mill.routes (c * 32 + u) with
  | some n => if (d.unit n).state ≠ 3 then some n else d.standIn u
  | none => if (d.unit u).state ≠ 3 then some u else d.standIn u

/-- Keep the route of a core's operations to a unit. -/
def Dev.keepRoute (d : Dev) (c u : Nat) : Dev :=
  match d.routeOf c u with
  | some n => if n = u then d else { d with mill := { d.mill with routes := tblPut d.mill.routes (c * 32 + u) n } }
  | none => d

/-- The routes of a plan's cores are those of the units assigned to it (R113). -/
def Dev.dropRoutes (d : Dev) (cores : List Nat) : Dev :=
  { d with mill := { d.mill with routes := d.mill.routes.filter (fun e => !cores.contains (e.1 / 32)) } }

/-- Word `i` of a queued descriptor (Table 11.11), and the unit that it names: 0 to 7 arrays, 8 to 15 vector units, of the
core's own compute die (R84). -/
def QOp.w (o : QOp) (i : Nat) : Nat := (o.words.getD i 0).toNat
def QOp.unit (o : QOp) : Nat := bits (o.w 1) 15 1
def QOp.ownUnit (o : QOp) (c target : Nat) : Nat := 8 * target + 2 * ((c - 0x80) / 16) + o.unit

/-- The units of a plan that are out of service. -/
def Dev.unitsShort (d : Dev) (p : Plan) : Bool :=
  p.xArrays.length < p.cfg.xgroup || p.gArrays.length < p.cfg.garrays ||
  (p.xArrays ++ p.gArrays ++ p.vectors).any (fun n => (d.unit n).state = 3)

/-- An array or vector unit leaves service (R113): operations that wait for it or run on it go to its stand-in, with their
queue's later ones. -/
def Dev.unitOut (d : Dev) (n : Nat) : Dev :=
  if n ≥ 16 ∨ (d.unit n).state = 3 then d
  else
    let d := d.setUnit n { d.unit n with state := 3 }
    let up := d.fld F.MIL_STATUS_UNIT_UP 0
    let d := (d.setFld F.MIL_STATUS_UNIT_UP 0 (up - bits up n 1 * 2 ^ n)).setFlag F.MIL_STATUS_DEGRADED 0 true
    let d := d.faultOpen (24 + n % 8 / 2) .contained n 0
    let d := d.kerf.cores.foldl (fun d e => [0, 1].foldl (fun d t =>
      (tblGetD e.2.queues t []).foldl (fun d o => d.keepRoute e.1 (o.ownUnit e.1 t)) d) d) d
    { d with mill := { d.mill with plans := tblMap d.mill.plans (fun _ p =>
        if p.xArrays.contains n || p.gArrays.contains n || (n ≥ 8 && (p.state == .running || p.state == .stopping)) then
          { p with degraded := true } else p) } }

/-! ### Sequencer cores (R84, R352) -/

/-- Cores in use by plans. -/
def Dev.coresUsed (d : Dev) : List Nat := (d.mill.plans.map (fun e => e.2.cores)).flatten

/-- The compute die that a logical core must lie on. -/
def PlanCfg.dieOf (p : PlanCfg) (l : Nat) : Option Nat :=
  ((p.progs.filter (fun g => g.lcore = l && g.die < 4)).map (·.die)).head?

/-- Assign physical cores: logical cores bound to a die first, then the others, each the lowest free one. -/
def Dev.assignCores (d : Dev) (p : PlanCfg) : Option (List Nat) :=
  let used := d.coresUsed
  let bound := (List.range p.seq).filter (fun l => (p.dieOf l).isSome)
  let free := (List.range p.seq).filter (fun l => (p.dieOf l).isNone)
  let pick := fun (a : Option (Tbl Nat)) (l : Nat) => match a with
    | none => none
    | some t =>
      let lo := match p.dieOf l with
        | some m => 0x80 + 16 * m
        | none => 0x80
      let n := if (p.dieOf l).isSome then 16 else 64
      match ((List.range n).map (· + lo)).find? (fun c => !used.contains c && !t.any (fun e => e.2 = c)) with
      | some c => some (tblPut t l c)
      | none => none
  match (bound ++ free).foldl pick (some []) with
  | some t => some (t.map (·.2))
  | none => none

/-- Words of an image in local memory. -/
def imageWords (ws : List W36) : Tbl W36 := ((List.range ws.length).zip ws).filter (fun e => e.2 ≠ 0)

/-- Segments 1 to 7 of a plan's core: the runs of the plan's pages (DEDUCED, log 22). -/
def Dev.planSegs (d : Dev) (p : Plan) : Tbl Seg :=
  ((List.range 7).map (· + 1)).filterMap (fun i => (p.pages[i - 1]?).map (fun r =>
    (i, Seg.mk (BitVec.ofNat 64 (d.pageAddr r.1)) (BitVec.ofNat 32 (min (2 ^ 32 - 1) (r.2 * pageBytes))) 7)))

/-- Load the step program of a logical core and set its segments (R352). Every plan counter is cleared. -/
def Dev.loadCore (d : Dev) (slot : Nat) (p : Plan) (l c : Nat) : Dev :=
  let ws := match p.cfg.progs.find? (fun g => g.lcore = l ∧ g.kind = 0) with
    | some g => g.words
    | none => match p.cfg.progs.find? (fun g => g.lcore = l) with
      | some g => g.words
      | none => []
  d.setCore c { Core.init with
    state := .halted, mem := imageWords ws, segs := d.planSegs p, logical := l, job := .none_, exc := (d.core c).exc, srSeed := p.cfg.seed
    ctrs := tblMap (d.core c).ctrs (fun n v => if n < 40 then SyncCtr.init else v) }

/-! ### Stacked SRAM (R168) -/

/-- Banks of a compute die that plans may hold. -/
def Dev.sramBanks (d : Dev) (m : Nat) : Nat := d.fld (F.MEM_SRAM_AVAIL_BANKS_OK (2 + m)) 0 - 8

/-- Banks of a compute die in use. -/
def Dev.sramUsed (d : Dev) (m : Nat) : List Run :=
  ((d.mill.plans.map (fun e => e.2.sram)).flatten.filter (fun b => b.1 = m)).map (fun b => b.2)

/-- Take the banks of a plan: equal parts on its dies, each rounded up (DESIGN CHOICE, log 38). -/
def Dev.takeSram (d : Dev) (slice bytes : Nat) (dies : List Nat) : Option (List (Nat × Nat × Nat)) :=
  let n := max 1 dies.length
  let banks := ((bytes + n - 1) / n + 2 ^ 20 - 1) / 2 ^ 20
  let parts := dies.map (fun m => (takeRuns banks (gaps (d.sramBanks m) 0 (runSort (d.sramUsed m)))).map
    (fun rs => rs.map (fun r => (m, r.1, r.2))))
  let total := ([0, 1, 2, 3].map d.sramBanks).sum
  let held := (((d.mill.plans.filter (fun e => e.2.slice = slice)).map (fun e => e.2.sram)).flatten.map (fun b => b.2.2)).sum
  if parts.all Option.isSome && (held + banks * dies.length) * 100 ≤ total * (d.slice slice).share then
    some (parts.filterMap id).flatten
  else none

/-! ### Spill window (R106, R109, R178) -/

/-- Pages of a slice's spill window in use. -/
def Dev.spillUsed (d : Dev) (s : Nat) : Nat :=
  ((d.mill.plans.filter (fun e => e.2.slice = s)).map (fun e => e.2.spillBytes / pageBytes)).sum

/-- The lowest `n` free pages of a slice's spill window, as runs. -/
def Dev.spillPlace (d : Dev) (s n : Nat) : Option (List Run) :=
  if !d.flag F.MEM_SPILL_CTRL_EN s then none
  else
    let used := ((d.mill.plans.filter (fun e => e.2.slice = s)).map (fun e => e.2.spillRuns)).flatten
    takeRuns n (gaps (d.fld F.MEM_SPILL_SIZE_PAGES s) 0 (runSort used))

/-- Bandwidth of a PCIe port in MB/s each way: its speed code and width as the link came up, 0 while it is down (Table 8.1;
DEDUCED, log 62: raw bits by lane, 8 a byte). -/
def Dev.pcieBw (d : Dev) (port : Nat) : Nat :=
  let q := d.port port
  if !q.up then 0 else 250 * 2 ^ q.speed * q.width

/-- B_L and B_S in MB/s: the plan's share of 1,228.8 GB/s, and the window's limit, which the bandwidth of its port caps
(R109, R178). -/
def spillBl (share : Nat) : Nat := share * 12288
def Dev.spillBs (d : Dev) (s : Nat) : Nat :=
  let set := max 10 (d.fld F.MEM_SPILL_CTRL_BW s) * 100
  match d.pcieBw (d.fld F.MEM_SPILL_CTRL_PORT s) with
  | 0 => set
  | bw => min set bw

/-! ### Rates (R98) -/

/-- Bits per element of a descriptor, times 256 (Table 2.6). -/
def Desc.bits256 (d : Desc) : Nat := d.bytes 256 * 8

/-- Bandwidth of the route between two dies in bytes per second: of their link, or of the narrower one of the detour
(Table 1.2, R24, R26). -/
def Dev.routeBw (d : Dev) (a b : Node) : Nat :=
  let bw := fun (x y : Node) => match linkOf x y with
    | some 8 => 1024000000000
    | some _ => 512000000000
    | none => 0
  if d.links.joins a b then bw a b
  else match d.links.detour a b with
    | some m => min (bw a m) (bw m b)
    | none => 0

/-- What the rates of a plan rest on beside its image: the bandwidth of its wire ports in bits per second, the number and
the rate of its transform arrays, the narrowest of its die-to-die routes in bytes per second, and the vector units in
service. -/
structure Means where
  wire : Nat
  arrays : Nat
  route : Nat
  vectors : Nat
  deriving DecidableEq, Repr

/-- The means of a plan on its arrays and compute dies (DESIGN CHOICE, log 21): its wire ports are those of the address
handles of its plan peers, or its PCIe ports where P is 1, and its routes lead from the I/O dies of those ports to its
compute dies. -/
def Dev.means (d : Dev) (s : Nat) (p : PlanCfg) (xs dies : List Nat) : Means :=
  let peers := (planPeers p.sched (p.sched.peers.findIdx (· == d.node))).map (·.1)
  let ports := (peers.filterMap (fun n => (d.handleTo s n).map (·.port))).foldl addOnce []
  let ios : List Node := if p.np = 1 then
      ((p.sched.regions.filter (fun r => r.mask != 0)).map (fun r => Node.io (if r.port < 2 then .west else .east))).eraseDups
    else (ports.map (fun q => Node.io (portDie q))).eraseDups
  let bws := (ios.map (fun a => dies.map (fun m => d.routeBw a (.mill m)))).flatten
  { wire := (ports.map d.portRate).sum * 1000000
    arrays := xs.length
    route := bws.foldl min (bws.headD 512000000000)
    vectors := ((List.range 8).filter (fun n => (d.unit (8 + n)).state ≠ 3)).length }

/-- Stage rates of a stream (Table 3.6, R98): (rate, stage code), those that its kind uses. The transform runs at the
lower rate of Table 3.3 where its matrix is binary32 (R81); a vector unit takes 2,048 elements of a hop step or
quantization per cycle (Table 3.4). -/
def PlanCfg.rates (p : PlanCfg) (m : Means) (s : StreamCfg) : List (Nat × Nat) :=
  let x := p.xformOf s
  let b := match x with
    | some x => 2 ^ x.log2b
    | none => 256
  let macs := if x.any (fun x => x.kind = 1 && x.wfmt = 1) then 12288000000000 else 49152000000000
  let contrib := ((sub p.sched.regions (bits s.source.toNat 0 16) 8).filter (fun r => r.mask != 0)).length
  let wireBits := max 1 (Desc.of s.wireFmt).bits256
  (if p.np > 1 then [(m.wire * 256 / wireBits, 0)] else []) ++
  (if p.np > 1 ∧ s.kind = 0 then [(m.arrays * macs / (b * (1 + b2n s.xprec)), 1)] else []) ++
  (if s.kind ≠ 3 ∧ contrib > 0 then [(970000000000 * 8 * 256 / (max 1 (Desc.of s.inFmt).bits256 * contrib), 2)] else []) ++
  (if s.resid ≠ 0xFF then [(p.share * 12288000000 / (2 * (if s.resid = 1 then 4 else 2)), 3)] else []) ++
  [(m.route * 8 * 256 / wireBits, 4), (p.share * m.vectors * 2048 * 15000000, 5)]

/-- The least element rate of a plan and its stage; all ones without a stream of kind 0 to 3 (R98). -/
def PlanCfg.rate (p : PlanCfg) (m : Means) : Nat × Nat :=
  match ((p.streams.filter (fun s => s.kind < 4)).map (p.rates m)).flatten with
  | [] => (2 ^ 64 - 1, 2 ^ 32 - 1)
  | x :: xs => xs.foldl (fun a y => if y.1 < a.1 then y else a) x

/-! ### Admission (R104 to R108) -/

/-- The admission report (Table 3.11). -/
def admitReport (status reason slot skipped : Nat) (planId : BitVec 16) (slice binding sram lp spill rate k upd short : Nat) :
    List Byte :=
  le 2 0x0100 ++ le 2 status ++ le 2 reason ++ le 1 slot ++ le 1 skipped ++ le 2 planId.toNat ++ le 2 slice ++
  le 4 binding ++ le 8 sram ++ le 8 lp ++ le 8 spill ++ le 8 rate ++ le 4 k ++ le 4 upd ++ le 8 short

/-- A stream at admission. -/
def StreamSt.init (q : List W32) : StreamSt :=
  { latches := [], signalled := [], phase := 0, ended := false, nodeSum := [], resid := [], residNew := [], sourced := 0, acc := [],
    red := .start, early := [], wire := [], fetched := [], upd := none, theta := [], m := [], v := [], w := [], grad := [],
    qfac := q, phat := [], lowStep := 0, lowBad := false, outp := [], gat := .start, tscale := 0, ready := [] }

/-- The factor Q of a stream at admission (R95), with its events. -/
def PlanCfg.factor (p : PlanCfg) (s : StreamCfg) : List W32 × Events :=
  if s.kind = 1 then match p.xformOf s with
    | some x => initFactor x.tseed s.shapeN s.rank
    | none => ([], Events.zero)
  else ([], Events.zero)

/-- A plan at admission. -/
def PlanCfg.plan (p : PlanCfg) (slice : Nat) (dig : BitVec 256) (node : Nat) (pages : List Run)
    (sram : List (Nat × Nat × Nat)) (xs gs vs cores : List Nat) (spill : Nat) (at_ : List Run) (qps : Tbl Nat) : Plan :=
  { state := .admitted, slice := slice, cfg := p, digest := dig, rank := p.sched.peers.findIdx (· == node), step := p.step0,
    spillBytes := spill, spillRuns := at_, spillTags := [], spillBad := [], pages := pages, sram := sram, degraded := false,
    efStale := false, events := p.streams.foldl (fun e s => e.add (p.factor s).2) Events.zero, xArrays := xs, gArrays := gs,
    vectors := vs, cores := cores, lrMul := 0x3F800000, lrStep := 0x3F800000, started := false, armed := false, begun := false,
    applied := false, skipped := false, rerun := .normal, serving := false, nextRedo := false, kappa := 0x3F800000,
    streams := p.streams.map (fun s => StreamSt.init (p.factor s).1),
    groups := p.opts.map (fun o => ⟨max 1 o.t0, false, false⟩), scal := none, preDone := false, postDone := false,
    maxima := [], earlyS := [], startX := none, earlyStart := [], stopOwner := none, retireOwner := none, held := false, cut := none,
    heldPower := false, qps := qps, tables := [], rings := [], jobs := [], fail := none, aborted := false, running := [] }

/-- The state of a plan as at admission (R328). -/
def Plan.fresh (p : Plan) : Plan :=
  { p with
    step := p.cfg.step0
    efStale := false
    events := p.cfg.streams.foldl (fun e s => e.add (p.cfg.factor s).2) Events.zero
    lrMul := 0x3F800000
    lrStep := 0x3F800000
    started := false
    begun := false
    applied := false
    skipped := false
    streams := p.cfg.streams.map (fun s => StreamSt.init (p.cfg.factor s).1)
    groups := p.cfg.opts.map (fun o => ⟨max 1 o.t0, false, false⟩)
    tables := [] }

/-- Create the collective queue pairs of a plan (R211): one per plan peer, cached and PINNED. -/
def Dev.addColl (d : Dev) (s slot : Nat) (peers : List (Nat × Nat)) : Option (Tbl Nat × Dev) :=
  peers.foldl (fun (a : Option (Tbl Nat × Dev)) e => match a with
    | none => none
    | some (t, d) => match d.handleTo s e.1, d.freeQpn with
      | some h, some n =>
        let q := d.collQp n s slot e.1 e.2 h
        if d.qpCount s ≥ (d.slice s).qpQuota ∨ d.pinnedOn q.die ≥ 16384 then none
        else
          let d := d.addQp n q
          if (match d.qp n with
            | some q' => q'.cache.isSome
            | none => false) then some (tblPut t e.1 n, d) else none
      | _, _ => none) (some ([], d))

/-- What step 5 of R105 finds: a refusal reason, or the resources. -/
structure Res where
  slot : Nat
  xs : List Nat
  gs : List Nat
  cores : List Nat
  sram : List (Nat × Nat × Nat)
  qps : Tbl Nat
  deriving DecidableEq, Repr

/-- Step 5 of R105: fixed resources, in its order. -/
def Dev.fixedRes (d : Dev) (s : Nat) (p : PlanCfg) (rank : Nat) : Nat ⊕ (Res × Dev) :=
  let peers := (planPeers p.sched rank).foldl (fun (l : List (Nat × Nat)) e =>
    if l.any (fun x => x.1 = e.1) then l else l ++ [e]) []
  let shares := (d.mill.plans.map (fun e => e.2.cfg.share)).sum
  let sliceShares := ((d.mill.plans.filter (fun e => e.2.slice = s)).map (fun e => e.2.cfg.share)).sum
  match tblFree d.mill.plans 64 with
  | none => .inl rsNoSlot
  | some slot =>
    if d.mill.plans.any (fun e => e.2.slice = s && e.2.cfg.planId == p.planId) then .inl rsDuplicateId
    else match d.chooseArrays 1 p.xgroup [] with
      | none => .inl rsNoArrays
      | some (xs, d) => match d.chooseArrays 2 p.garrays xs with
        | none => .inl rsNoArrays
        | some (gs, d) => match d.assignCores p with
          | none => .inl rsNoCores
          | some cores =>
            let dies := ((xs ++ gs).map (· / 2) ++ cores.map (fun c => (c - 0x80) / 16)).foldl addOnce []
            match d.takeSram s p.sramBytes dies with
            | none => .inl rsNoSram
            | some sram =>
              if shares + p.share > 100 ∨ sliceShares + p.share > (d.slice s).share then .inl rsNoShare
              else if peers.any (fun e => (d.handleTo s e.1).isNone) then .inl rsNoRoute
              else match d.addColl s slot peers with
                | none => .inl rsNoQp
                | some (qps, d) =>
                  if !d.slotQuota s (2 * peers.length) then .inl rsNoKeySlots
                  else .inr (⟨slot, xs, gs, cores, sram, qps⟩, d)

/-- The PLAN_ID of a header, as far as the image could be read. -/
def headerId (img : Option (List Byte)) : BitVec 16 :=
  match img with
  | some im => if im.length ≥ 6 then half im 4 else 0
  | none => 0

/-- Refuse an admission with its report: `skipped` optional sections were skipped before the refusal (R107, R108).
BINDING, RATE_EST, UPD_REL, SRAM_PLACED and LPDDR_PLACED, which Table 3.11 states for no refusal, are 0 (DESIGN CHOICE,
log 38). -/
def Dev.admitFail (d : Dev) (c : Cmd) (o : Owner) (img : Option (List Byte)) (st reason short skipped : Nat) : Reply :=
  ⟨d.report o (c.w 2) (admitReport st reason 0xFF skipped (headerId img) c.slice 0 0 0 0 0 0 0 short), st, reason, []⟩

/-- Place an admitted plan (step 8 of R105). K_RATIO is truncated to 1/256 as UPD_REL is to 1/65,536 (DESIGN CHOICE,
log 38: Table 3.11 states truncation of UPD_REL only). -/
def Dev.placePlan (d : Dev) (c : Cmd) (o : Owner) (p : PlanCfg) (dig : BitVec 256) (r : Res) (runs : List Run)
    (spill : Nat) (at_ : List Run) : Reply :=
  let s := c.slice
  let pl := p.plan s dig d.node runs r.sram r.xs r.gs (vectorUnits.filter (fun n => (d.unit n).state ≠ 3)) r.cores spill at_ r.qps
  let d := { d with mill := { d.mill with plans := tblPut d.mill.plans r.slot pl } }
  let d := (((List.range r.cores.length).zip r.cores).foldl (fun d e => d.loadCore r.slot pl e.1 e.2) d)
  let d := (d.measure (16 + r.slot) dig).planHistory 1 r.slot dig
  let bl := spillBl p.share
  let bs := d.spillBs s
  let rate := p.rate (d.means s p r.xs ((r.sram.map (·.1)).eraseDups))
  let k := if spill = 0 then 0 else bl * 256 / bs
  let upd := if spill = 0 then 65536 else
    p.spillable * bs * 65536 / max 1 ((p.spillable - spill) * bs + spill * bl)
  let st := if spill = 0 then stOk else stSpill
  let rep := admitReport st 0 r.slot p.skipped p.planId s rate.2 ((r.sram.map (fun b => b.2.2)).sum * 2 ^ 20)
    (runsLen runs * pageBytes) spill rate.1 k upd 0
  ⟨d.report o (c.w 2) rep, st, 0, le 1 r.slot⟩

/-- The windows of a slice hold a region on its port. -/
def Slice.holds (s : Slice) (r : Region) : Bool :=
  s.windows.any (fun w => w.2.en && w.2.port = r.port && w.2.base ≤ r.addr && r.addr + r.bytes ≤ w.2.base + w.2.size)

/-- The device demands signed plans (R105, step 3). -/
def Dev.signedPlans (d : Dev) : Bool :=
  match d.scaler.accepted with
  | some a => a.signedPlans
  | none => false

/-- PLAN_ADMIT (R104 to R108): the image as it was read, none when it could not be (its structure then fails, DEDUCED, log 36), and
the verdict on its signature (DEDUCED, log 38). -/
def Dev.planAdmit (c : Cmd) (img : Option (List Byte)) (sigOk : Bool) (o : Owner) (d : Dev) : Reply :=
  let s := c.slice
  if !zeroFrom c 3 then .refuse d rsBadField
  else if !d.mayName c then .refuse d rsNotPermitted
  else if d.mill.admitBusy then ⟨d, stBusy, 0, []⟩
  else if (d.slice s).kind ≠ .pf0 then d.admitFail c o img stRefused rsNotManagerSlice 0 0
  else if (d.slice s).state ≠ .active then .refuse d rsWrongState
  else match img with
    | none => d.admitFail c o img stRefused rsBadStructure 0 0
    | some im =>
      if d.agreedVer c.iss 2 ≠ some (half im 0) then d.admitFail c o img stVersion 0 0 0
      else if c.w 1 ≠ fieldAt im 8 4 ∨ c.w 1 ≠ im.length then d.admitFail c o img stRefused rsBadStructure 0 0
      else match planCheck im d.node (d.slice s).holds with
        | .inl (rs, skipped) => d.admitFail c o img stRefused rs 0 skipped
        | .inr p =>
          if (p.signed ∨ d.signedPlans) ∧ !sigOk then d.admitFail c o img stBadSig 0 0 p.skipped
          else if !p.xforms.all (fun x => x.kind ≠ 1 || orthogonal x) then d.admitFail c o img stRefused rsNotOrthogonal 0 p.skipped
          else match d.fixedRes s p (p.sched.peers.findIdx (· == d.node)) with
            | .inl rs => d.admitFail c o img stRefused rs 0 p.skipped
            | .inr (r, d') =>
              let free := d'.sliceFreePages s
              let need := pagesFor p.lpddrBytes
              let dig := digest im
              if need ≤ free then
                match d'.allocPages s r.slot need with
                | some (runs, d'') => d''.placePlan c o p dig r runs 0 []
                | none => d.admitFail c o img stRefused rsNoMemory 0 p.skipped
              else
                let x := (need - free) * pageBytes
                let at_ := if p.allowSpill ∧ x ≤ p.spillable then d'.spillPlace s (need - free) else none
                match at_, d'.allocPages s r.slot free with
                | some a, some (runs, d'') => d''.placePlan c o p dig r runs x a
                | _, _ =>
                  let room := if !p.allowSpill then 0 else
                    min p.spillable ((d'.fld F.MEM_SPILL_SIZE_PAGES s - d'.spillUsed s) * pageBytes * b2n (d'.flag F.MEM_SPILL_CTRL_EN s))
                  d.admitFail c o img stRefused rsNoMemory (x - room) p.skipped

/-! ### Commands on slots -/

/-- The plan that a command names, of a slice that the issuer manages (R114). -/
def Dev.cmdPlan (d : Dev) (c : Cmd) : Nat ⊕ (Nat × Plan) :=
  let slot := c.w 0
  if slot ≥ 64 then .inl rsBadField
  else match d.plan slot with
    | none => .inl rsWrongState
    | some p => match c.mgrPort with
      | some port => if d.manages port p.slice then .inr (slot, p) else .inl rsNotPermitted
      | none => .inl rsNotPermitted

/-- θ of the shards at the first start (R136): as read from INIT_SRC, or +0; the other arrays +0. -/
def Plan.shardOf (p : Plan) (k : Nat) : Nat × Nat :=
  match p.cfg.streams[k]? with
  | some s =>
    let b := match p.cfg.xformOf s with
      | some x => if s.kind = 0 then 2 ^ x.log2b else 256
      | none => 256
    (Ten.mk 0 s.elements b).shard p.cfg.np p.rank
  | none => (0, 0)

/-- The configuration of a stream. -/
def Plan.cfgOf (p : Plan) (k : Nat) : Option StreamCfg := p.cfg.streams[k]?

/-- The state of a stream. -/
def Plan.stOf (p : Plan) (k : Nat) : StreamSt := p.streams.getD k (StreamSt.init [])

/-- The state arrays of a stream, in the order of Table 4.6; those that its KIND does not have are empty. -/
def StreamSt.arrays (st : StreamSt) : List (List W32) := [st.theta, st.m, st.v, st.w]

/-- Bytes of a state array: 64 B aligned (R134). -/
def arrayBytes (a : List W32) : Nat := (4 * a.length + 63) / 64 * 64

/-- The optimizer state lies in the plan's pages stream by stream, array by array in the order of Table 4.6; the window
holds its highest part (R109, R134; DESIGN CHOICE, log 24). -/
def Plan.stateOff (p : Plan) (k : Nat) : Nat :=
  ((List.range k).map (fun j => ((p.stOf j).arrays.map arrayBytes).sum)).sum

/-- Where array `j` of a stream begins. -/
def Plan.arrayOff (p : Plan) (k j : Nat) : Nat := p.stateOff k + (((p.stOf k).arrays.take j).map arrayBytes).sum

/-- Bytes of optimizer state of a plan. -/
def Plan.stateBytes (p : Plan) : Nat := p.stateOff p.streams.length

/-- First byte of the state that lies in the spill window. -/
def Plan.spillFrom (p : Plan) : Nat := p.stateBytes - min p.spillBytes p.stateBytes

/-- Bytes of a stored residual (R91). -/
def StreamCfg.residBytes (s : StreamCfg) : Nat := if s.resid = 1 then 4 else if s.resid = 2 then 2 else 0

/-- Where the residuals of a stream begin in the plan's pages: after the optimizer state, stream by stream (DESIGN CHOICE, log 24). -/
def Plan.residOff (p : Plan) (k : Nat) : Nat :=
  (p.spillFrom + 63) / 64 * 64 + ((p.cfg.streams.take k).map (fun s => s.elements * s.residBytes)).sum

/-- Bytes that the rows of a table with their state take at an owner, 12 B a column. -/
def EmbTab.ownBytes (t : EmbTab) : Nat := (t.rows / max 1 t.shards + 1) * t.dim * 12

/-- Where a row of a table and its state lie among the embedding rows: table by table (DESIGN CHOICE, log 24). -/
def Plan.embRel (p : Plan) (t : EmbTab) (row : Nat) : Nat :=
  let k := ((row + 1) * t.shards + t.rows - 1) / t.rows - 1
  ((p.cfg.embT.takeWhile (fun u => u.table != t.table)).map EmbTab.ownBytes).sum + (row - k * t.rows / max 1 t.shards) * t.dim * 12

/-- Bytes of embedding rows of a plan. -/
def Plan.embBytes (p : Plan) : Nat := (p.cfg.embT.map EmbTab.ownBytes).sum

/-- First byte of the embedding rows that lies in the spill window: rows go there only as far as the optimizer state does
not cover what is spilled (R109). -/
def Plan.embFrom (p : Plan) : Nat := p.embBytes - min (p.spillBytes - p.stateBytes) p.embBytes

/-- Where the embedding rows begin in the plan's pages: after the residuals (DESIGN CHOICE, log 24). -/
def Plan.embBase (p : Plan) : Nat := p.residOff p.cfg.streams.length

/-- Where a row of a table and its state lie in the plan's pages. -/
def Plan.embOff (p : Plan) (t : EmbTab) (row : Nat) : Nat := p.embBase + p.embRel t row

/-- The fabric ranges of a part of a plan's pages: address and bytes, page by page. -/
def Dev.planRanges (d : Dev) (p : Plan) (off n : Nat) : List (Nat × Nat) :=
  if n = 0 then []
  else (List.range ((off + n + pageBytes - 1) / pageBytes - off / pageBytes)).filterMap (fun i =>
    let k := off / pageBytes + i
    let lo := max off (k * pageBytes)
    (runsNth p.pages k).map (fun g => (d.pageAddr g + (lo - k * pageBytes), min (off + n) ((k + 1) * pageBytes) - lo)))

/-- A write to a part of a plan's pages, as a checkpoint sees it (R322). -/
def Dev.touchPlan (d : Dev) (p : Plan) (off n : Nat) : Dev :=
  if d.cord.pending.isEmpty then d else (d.planRanges p off n).foldl (fun d r => d.touch r.1 r.2) d

/-- A write of whole values to a part of a plan's pages: a checkpoint sees it, and the marks of the granules that it covers
clear (R164, R322). -/
def Dev.rewritePlan (d : Dev) (p : Plan) (off n : Nat) : Dev :=
  let d := d.touchPlan p off n
  { d with mem := { d.mem with poison := (d.planRanges p off n).foldl (fun m r => marksAfter m r.1 r.2 false) d.mem.poison } }

/-- A byte of a plan's pages lies in a poisoned granule (R164, R169). -/
def Dev.planBad (d : Dev) (p : Plan) (off : Nat) : Bool :=
  (d.planRanges p off 1).any (fun r => d.mem.poisoned r.1 1)

/-- A byte of the optimizer state is lost: its granule in the plan's pages, or in the window, carries poison (R164, R180). -/
def Dev.stateBad (d : Dev) (p : Plan) (off : Nat) : Bool :=
  if off < p.spillFrom then d.planBad p off else p.spillBad.contains ((off - p.spillFrom) / 64)

/-- Element `i` of array `j` of a stream is lost. -/
def Dev.lostIn (d : Dev) (p : Plan) (k j i : Nat) : Bool :=
  i < ((p.stOf k).arrays.getD j []).length && d.stateBad p (p.arrayOff k j + 4 * i)

/-- Element `i` of a stream has state that is lost: it is not updated (R141, R180). -/
def Dev.lostAt (d : Dev) (p : Plan) (k i : Nat) : Bool := [0, 1, 2, 3].any (fun j => d.lostIn p k j i)

/-- Writes to the optimizer state of streams that lies in LPDDR5X. -/
def Dev.touchState (d : Dev) (p : Plan) (ks : List Nat) : Dev :=
  ks.foldl (fun d k => d.touchPlan p (min (p.stateOff k) p.spillFrom) (min (p.stateOff (k + 1)) p.spillFrom - min (p.stateOff k) p.spillFrom)) d

/-- All residuals of a plan are written. -/
def Dev.rewriteResids (d : Dev) (p : Plan) : Dev := d.rewritePlan p (p.residOff 0) (p.residOff p.cfg.streams.length - p.residOff 0)

/-- State arrays beside θ of a group (Table 4.6): of a program as many as its PROGRAMS entry names. -/
def PlanCfg.extraArrays (p : PlanCfg) (o : OptCfg) : Nat :=
  match o.kind with
  | 1 => 2
  | 3 => 1
  | 4 => 1
  | 5 => 1
  | 15 => ((p.progs.find? (fun g => g.index = o.program ∧ g.kind = 1)).map (·.arrays)).getD 0
  | _ => 0

/-- Fill the optimizer state at the first start (R136): θ as read from INIT_SRC, or +0; the other arrays +0. -/
def Plan.fill (p : Plan) (init : List (List W32)) : Plan :=
  { p with
    started := true
    streams := p.streams.mapIdx (fun k st =>
      match p.cfg.groupOf k with
      | some (_, o) =>
        if o.kind = 0 then st
        else
          let n := (p.shardOf k).2
          let th : List W32 := if o.init then padTo n 0 (init.getD k []) else List.replicate n 0
          let arr := fun j => if j ≤ p.cfg.extraArrays o then List.replicate n (0 : W32) else []
          { st with theta := th, m := arr 1, v := arr 2, w := arr 3 }
      | none => st) }

/-- The state of a plan is filled (R136): what lies in LPDDR5X is written whole. -/
def Dev.fillState (d : Dev) (slot : Nat) (init : List (List W32)) : Dev :=
  match d.plan slot with
  | some p => (d.modPlan slot (fun p => p.fill init)).rewritePlan (p.fill init) 0 (p.fill init).spillFrom
  | none => d

/-- The reads of θ at the first start (R136): for each stream of a group with INIT, its shard in the lowest-numbered
present region of INIT_SRC, where the streams of the group follow one another in order (DESIGN CHOICE, log 63). -/
def Dev.readInit (d : Dev) (slot : Nat) (p : Plan) : Dev :=
  p.cfg.opts.foldl (fun d o =>
    if !o.init ∨ o.kind = 0 then d
    else match (sub p.cfg.sched.regions (bits o.initSrc.toNat 0 16) 8).find? (fun r => r.mask != 0) with
      | none => d
      | some r => ((List.range o.count).map (· + o.first)).foldl (fun d k =>
          let before := ((List.range k).drop o.first).map (fun j => ((p.cfgOf j).map (·.elements)).getD 0)
          let sh := p.shardOf k
          d.readSlice p.slice r.port (.init slot k) (r.addr + bits o.initSrc.toNat 16 40 + 4 * (before.sum + sh.1)) (4 * sh.2)) d) d

/-- Residuals return to +0 (R92). -/
def Plan.zeroResid (p : Plan) : Plan :=
  { p with streams := p.streams.map (fun s => { s with resid := [], residNew := [] }) }

/-- A plan whose residuals are stale starts: they are zeroed, and one invalid event is counted (R112). -/
def Dev.clearStale (d : Dev) (slot : Nat) : Dev :=
  match d.plan slot with
  | some p =>
    if p.efStale then ((d.rewriteResids p).modPlan slot (fun p => { p.zeroResid with efStale := false })).addEvents slot evInvalid else d
  | none => d

/-- Choose the units of a degraded plan afresh by the rule of admission (R113, R460). Where fewer dies can give an array,
the plan starts on those that can, and stays degraded, as it does while a vector unit it was given is out (DESIGN CHOICE,
log 38: the manual does not say that such a start is refused). -/
def Dev.rechoose (d : Dev) (slot : Nat) : Dev :=
  match d.plan slot with
  | some p =>
    let d := d.dropRoutes p.cores
    if !p.degraded then d
    else
      let d := (d.modPlan slot (fun p => { p with xArrays := [], gArrays := [] })).settleRoles
      let x := d.chooseUpTo 1 p.cfg.xgroup []
      let g := x.2.chooseUpTo 2 p.cfg.garrays x.1
      g.2.modPlan slot (fun p =>
        let p := { p with xArrays := x.1, gArrays := g.1 }
        { p with degraded := g.2.unitsShort p })
  | none => d

/-- The established session of a plan with a node. -/
def Dev.planSession (d : Dev) (slot node : Nat) : Option Session :=
  (d.bark.sessions.find? (fun e => e.2.plan == some slot && e.2.peer == node && e.2.step == 9 && !e.2.old)).map (·.2)

/-- A handshake of a plan with a node is under way. -/
def Dev.planOpening (d : Dev) (slot node : Nat) : Bool :=
  d.bark.sessions.any (fun e => e.2.plan == some slot && e.2.peer == node && e.2.step < 9)

/-- Open the sessions of a plan that are not open (R403). -/
def Dev.openPlanSessions (d : Dev) (slot : Nat) : Dev :=
  match d.plan slot with
  | some p => p.peers.foldl (fun d n =>
      if (d.planSession slot n).isSome || d.planOpening slot n then d
      else match d.openSession n p.slice p.slice (some slot) none none with
        | some d => d
        | none => d) d
  | none => d

/-- Own values in the start exchange (R159). -/
def Plan.startVal (p : Plan) : StartVal := ⟨p.rank, p.step, p.begun, p.applied, p.digest3⟩

/-- PLAN_STOP (R111, R112). -/
def Dev.planStop (c : Cmd) (o : Owner) (d : Dev) : Reply :=
  if !zeroFrom c 2 ∨ c.w 1 ≥ 2 then .refuse d rsBadField
  else match d.cmdPlan c with
    | .inl rs => .refuse d rs
    | .inr (slot, p) =>
      if p.state = .stopping ∧ c.w 1 = 0 then ⟨d, stBusy, 0, []⟩
      else if p.state ≠ .running ∧ p.state ≠ .stopping then .refuse d rsWrongState
      else if p.state = .stopping then ⟨d, stBusy, 0, []⟩
      else
        let endStart := fun (d : Dev) => match p.startX with
          | some x => d.finish x.own stRefused rsStartFail []
          | none => d
        if p.between then .ok (endStart (d.leaveRunning slot .admitted)) []
        else if c.w 1 = 1 then
          let d := d.sendAborts slot d.node 4
          .ok ((d.leaveRunning slot .admitted).modPlan slot (fun p => { p with efStale := true })) []
        else .defer (d.modPlan slot (fun p => { p with state := .stopping, stopOwner := some o }))

/-- Retire a plan: its resources are free, and its measurement is extended and cleared (R389). -/
def Dev.retire (d : Dev) (slot : Nat) : Dev :=
  match d.plan slot with
  | none => d
  | some p =>
    let d := (d.planHistory 2 slot p.digest).measure (16 + slot) 0
    let d := (p.qps.map (·.2)).foldl Dev.dropQp d
    let d := ((d.bark.sessions.filter (fun e => e.2.plan == some slot)).map (·.1)).foldl Dev.closeSession d
    let d := (d.freeTriggers slot none).freePages p.slice slot
    let d := (p.cores.foldl (fun d c => d.setCore c { Core.init with exc := (d.core c).exc }) d).dropRoutes p.cores
    ({ d with mill := { d.mill with plans := tblDel d.mill.plans slot } }).settleRoles

/-- A checkpoint holds the plan or still drains its state (10_checkpoint). -/
def Dev.cordHolds (d : Dev) (p : Plan) : Bool :=
  d.cord.phase != .idle && d.cord.phase != .restore &&
  (match d.cord.snap with
  | some s => s.plans.any (fun q => q.slice == p.slice && q.cfg.planId == p.cfg.planId)
  | none => true)

/-- PLAN_RETIRE (R110): deferred while Cord holds the plan. -/
def Dev.planRetire (c : Cmd) (o : Owner) (d : Dev) : Reply :=
  if !zeroFrom c 1 then .refuse d rsBadField
  else match d.cmdPlan c with
    | .inl rs => .refuse d rs
    | .inr (slot, p) =>
      if p.state ≠ .admitted ∧ p.state ≠ .failed then .refuse d rsWrongState
      else if d.cordHolds p then .defer (d.modPlan slot (fun p => { p with retireOwner := some o }))
      else .ok (d.retire slot) []

/-- PLAN_EF_RESET (R92). -/
def Dev.planEfReset (c : Cmd) (d : Dev) : Reply :=
  if !zeroFrom c 1 then .refuse d rsBadField
  else match d.cmdPlan c with
    | .inl rs => .refuse d rs
    | .inr (slot, p) =>
      if p.state ≠ .admitted then .refuse d rsWrongState else .ok ((d.rewriteResids p).modPlan slot (fun p => p.zeroResid)) []

/-- PLAN_HYPER (R137). −0 is a zero and is accepted. -/
def Dev.planHyper (c : Cmd) (d : Dev) : Reply :=
  let v : W32 := BitVec.ofNat 32 (c.w 1)
  let ok := match decodeCode 1 v.toNat with
    | .fin n m _ => !n || m = 0
    | _ => false
  if !zeroFrom c 2 ∨ c.w 1 ≥ 2 ^ 32 ∨ !ok then .refuse d rsBadField
  else match d.cmdPlan c with
    | .inl rs => .refuse d rs
    | .inr (slot, _) => .ok (d.modPlan slot (fun p => { p with lrMul := v })) []

/-- The failure report (Table 4.16). -/
def failReport (f : Option Failure) : List Byte :=
  match f with
  | some f => le 2 0x0100 ++ le 2 f.reason ++ le 2 f.node ++ le 2 f.origin ++ le 8 f.step.toNat ++ le 1 f.phase ++
      le 1 (b2n f.begun + 2 * b2n f.applied + 4 * b2n f.skipped) ++ le 2 f.level ++ le 4 f.aborts ++ le 8 f.stamp.toNat ++
      zeros 32
  | none => le 2 0x0100 ++ zeros 62

/-- PLAN_STATUS (R110, R158): a FREE slot gives a report of zeros but VERSION. -/
def Dev.planStatus (c : Cmd) (o : Owner) (d : Dev) : Reply :=
  if !zeroFrom c 2 ∨ c.w 0 ≥ 64 then .refuse d rsBadField
  else match d.plan (c.w 0) with
    | none => .ok (d.report o (c.w 1) (failReport none)) []
    | some _ => match d.cmdPlan c with
      | .inl rs => .refuse d rs
      | .inr (_, p) => .ok (d.report o (c.w 1) (failReport (if p.state = .failed then p.fail else none))) []

/-- MIL_EVT_CLR written by a manager function (R114, R115). -/
def itMilDiscard : Nat := 4096 + 0x5B0
def Dev.evtClr (d : Dev) (port : Nat) (val : W32) : Dev :=
  let slot := d.fld F.MIL_PLAN_SEL_SLOT port
  match d.plan slot with
  | none => d
  | some p =>
    if !d.manages port p.slice then d.count itMilDiscard
    else if val.getLsbD 0 then d.modPlan slot (fun p => { p with events := Events.zero })
    else d

end Sys2Proof.Machine
end

