-- ==== Sys2Proof/Machine/Nvme.lean ====
section
/-! DEFINITION. The NVMe front ends: controllers and queues, completions, errors, the unit writes of volumes, and
attaching and detaching them (09_storage). -/

namespace Sys2Proof.Machine

/-! ### Statuses (Table 9.4, and the NVMe base specification that R285 names) -/

def nvOk : NvStatus := ⟨0, 0⟩
def nvBadOpcode : NvStatus := ⟨0, 0x01⟩
def nvBadField : NvStatus := ⟨0, 0x02⟩
def nvTransfer : NvStatus := ⟨0, 0x04⟩
def nvAborted : NvStatus := ⟨0, 0x07⟩
def nvSqDeleted : NvStatus := ⟨0, 0x08⟩
def nvBadNs : NvStatus := ⟨0, 0x0B⟩
def nvSequence : NvStatus := ⟨0, 0x0C⟩
def nvRange : NvStatus := ⟨0, 0x80⟩
def nvBadCq : NvStatus := ⟨1, 0x00⟩
def nvBadQid : NvStatus := ⟨1, 0x01⟩
def nvBadSize : NvStatus := ⟨1, 0x02⟩
def nvBadVector : NvStatus := ⟨1, 0x08⟩
def nvBadLog : NvStatus := ⟨1, 0x09⟩
def nvBadDelete : NvStatus := ⟨1, 0x0C⟩
def nvReadErr : NvStatus := ⟨2, 0x81⟩
def nvReadOnly : NvStatus := ⟨2, 0x82⟩
def nvPath : NvStatus := ⟨3, 0x00⟩
def nvConflict : NvStatus := ⟨7, 0xC0⟩
def nvFenced : NvStatus := ⟨7, 0xC1⟩
def nvLogFull : NvStatus := ⟨7, 0xC2⟩
def nvGen : NvStatus := ⟨7, 0xC3⟩
def nvKey : NvStatus := ⟨7, 0xC4⟩

/-! ### Access -/

/-- A controller after reset: disabled, without queues. -/
def Ctrl.init : Ctrl :=
  { cc := 0, rdy := false, shst := 0, disabling := false, aqa := 0, asq := 0, acq := 0, sqs := [], cqs := [], cmds := [],
    aers := [], events := [], errors := [], errCount := 0, features := [] }

/-- The number of a controller (R284). -/
def ctrlKey (slice port : Nat) : Nat := slice * 4 + port % 4

/-- The number that marks the unit writes of Cord. -/
def cordCtrl : Nat := 2048

/-- A controller. -/
def Dev.ctrl (d : Dev) (k : Nat) : Ctrl := tblGetD d.nvm.ctrls k Ctrl.init

/-- Change a controller. -/
def Dev.modCtrl (d : Dev) (k : Nat) (f : Ctrl → Ctrl) : Dev :=
  { d with nvm := { d.nvm with ctrls := tblPut d.nvm.ctrls k (f (d.ctrl k)) } }

/-- An attached volume. -/
def Dev.vol (d : Dev) (v : Nat) : Option Volume := tblGet d.nvm.vols v

/-- Change an attached volume. -/
def Dev.modVol (d : Dev) (v : Nat) (f : Volume → Volume) : Dev :=
  { d with nvm := { d.nvm with vols := tblMod d.nvm.vols v f } }

/-- The volume of a namespace of a slice: attachment index and volume. -/
def Dev.volOf (d : Dev) (slice nsid : Nat) : Option (Nat × Volume) :=
  d.nvm.vols.find? (fun e => e.2.desc.slice == slice && e.2.desc.nsid == nsid)

/-- The queues of a slice, admin queues included (R286). -/
def Dev.nvQueues (d : Dev) (slice : Nat) : Nat :=
  ((d.nvm.ctrls.filter (fun e => e.1 / 4 = slice)).map (fun e => e.2.sqs.length + e.2.cqs.length)).sum

/-! ### Completions (R285, R304, R306) -/

/-- The 16 B of a completion entry. -/
def NvCqe.bytes (e : NvCqe) (head : Nat) (phase : Bool) : List Byte :=
  le 4 e.result.toNat ++ zeros 4 ++ le 2 head ++ le 2 e.sq ++ le 2 e.cid.toNat ++
  le 2 (b2n phase + 2 * e.status.sc + 512 * e.status.sct)

/-- Write the entry into its completion queue, or hold it while the queue is full; then its interrupt. -/
def Dev.writeNvCqe (d : Dev) (k cq : Nat) (e : NvCqe) : Dev :=
  let c := d.ctrl k
  match tblGet c.cqs cq with
  | none => d
  | some q =>
    if !q.held.isEmpty || q.written - q.head ≥ q.depth - 1 then
      d.modCtrl k (fun c => { c with cqs := tblPut c.cqs cq { q with held := q.held ++ [e] } })
    else
      let ph := phaseAt q.written q.depth
      let hd := match tblGet c.sqs e.sq with
        | some s => s.arrived
        | none => 0
      let sl := d.slice (k / 4)
      let d := d.modCtrl k (fun c => { c with cqs := tblPut c.cqs cq { q with written := q.written + 1 } })
      let a := q.base + 16 * (q.written % q.depth)
      let d := d.emit (.nvmeCqe k cq (q.written % q.depth) ph e)
      let d := if sl.dmaOk (k % 4) a 16 true then d.dmaSlice (k / 4) (k % 4) a (e.bytes hd ph) [] false else d
      if q.ien && q.vector < sl.vecCount then d.msix (k % 4) sl.kind (sl.vecBase + q.vector) else d

/-- Write held entries while the queue has room. -/
def Dev.releaseNv (d : Dev) (k cq : Nat) : Nat → Dev
  | 0 => d
  | n + 1 => match tblGet (d.ctrl k).cqs cq with
    | none => d
    | some q => match q.held with
      | [] => d
      | e :: rest =>
        if q.written - q.head ≥ q.depth - 1 then d
        else ((d.modCtrl k (fun c => { c with cqs := tblPut c.cqs cq { q with held := rest } })).writeNvCqe k cq e).releaseNv
          k cq n

/-- Report events to Asynchronous Event Requests that wait (R295, R304). -/
def Dev.reportEvents (d : Dev) (k : Nat) : Nat → Dev
  | 0 => d
  | n + 1 =>
    let c := d.ctrl k
    match c.aers, c.events, tblGet c.sqs 0 with
    | cid :: aers, e :: evs, some s =>
      let d := d.modCtrl k (fun c => { c with aers := aers, events := evs })
      (d.writeNvCqe k s.cq ⟨BitVec.ofNat 32 (e.1 + 256 * e.2.1 + 65536 * e.2.2), 0, cid, nvOk⟩).reportEvents k n
    | _, _, _ => d

/-- Raise an asynchronous event of a controller. -/
def Dev.nvEvent (d : Dev) (k type info page : Nat) : Dev :=
  (d.modCtrl k (fun c => { c with events := c.events ++ [(type, info, page)] })).reportEvents k 64

/-- Log a failed I/O command, freeze its queue and raise the error event (R304, R306). The information byte of the
event is open (DESIGN CHOICE, log 28). -/
def Dev.nvFail (d : Dev) (k sq : Nat) (cid : BitVec 16) (st : NvStatus) (lba nsid tgt : Nat) : Dev :=
  let was := (tblGet (d.ctrl k).sqs sq).any (·.frozen)
  let d := d.modCtrl k (fun c =>
    let e : NvError := ⟨c.errCount + 1, sq, cid, st, lba, nsid, tgt, d.stamp⟩
    { c with
      errCount := c.errCount + 1
      errors := (e :: c.errors).take 256
      sqs := if sq = 0 then c.sqs else tblMod c.sqs sq (fun q => { q with frozen := true }) })
  let d := match d.volOf (k / 4) nsid with
    | some (v, _) => if was then d else d.modVol v (fun v => { v with freezes := satAdd 16 v.freezes 1 })
    | none => d
  let r := d.fresh
  r.2.nvEvent k 0 (bits r.1.toNat 0 8) 1

/-- Complete a command of a submission queue. -/
def Dev.nvDone (d : Dev) (k sq : Nat) (cid : BitVec 16) (result : W32) (st : NvStatus) (lba nsid tgt : Nat) : Dev :=
  match tblGet (d.ctrl k).sqs sq with
  | none => d
  | some s =>
    let d := if sq ≠ 0 ∧ st ≠ nvOk ∧ st ≠ nvAborted then d.nvFail k sq cid st lba nsid tgt else d
    d.writeNvCqe k s.cq ⟨result, sq, cid, st⟩

/-- Complete an admin command. -/
def Dev.adminDone (d : Dev) (k : Nat) (cid : BitVec 16) (result : Nat) (st : NvStatus) : Dev :=
  d.nvDone k 0 cid (BitVec.ofNat 32 result) st 0 0 0

/-! ### Fetching (R273, R284, R304) -/

/-- The controller fetches: enabled, the slice ACTIVE, and its function working on the port. -/
def Dev.nvFetches (d : Dev) (k : Nat) : Bool :=
  let c := d.ctrl k
  c.rdy && !c.disabling && c.shst == 0 && (d.slice (k / 4)).state == .active && d.sliceOn (k / 4) (k % 4) && !d.fatal

/-- Fetch the entries between head and tail of a queue, in at most two reads; each passes the windows (R284). -/
def Dev.fetchSq (d : Dev) (k sq : Nat) : Dev :=
  match tblGet (d.ctrl k).sqs sq with
  | none => d
  | some q =>
    if q.frozen || !d.nvFetches k || q.tail == q.head then d
    else
      let rd := fun (d : Dev) (i n : Nat) =>
        if n = 0 then d
        else if (d.slice (k / 4)).dmaOk (k % 4) (q.base + 64 * i) (64 * n) false then
          d.readSlice (k / 4) (k % 4) (.nvmeSq (k / 4) sq) (q.base + 64 * i) (64 * n)
        else d
      let d := if q.tail > q.head then rd d q.head (q.tail - q.head) else rd (rd d q.head (q.depth - q.head)) 0 q.tail
      d.modCtrl k (fun c => { c with sqs := tblPut c.sqs sq { q with head := q.tail } })

/-- Fetch for every queue of the controllers of a port whose slice's function is of a kind (R273). -/
def Dev.nvResume (d : Dev) (port : Nat) (kind : FnKind) : Dev :=
  (d.nvm.ctrls.filter (fun e => e.1 % 4 == port && (d.slice (e.1 / 4)).kind == kind)).foldl (fun d e =>
    e.2.sqs.foldl (fun d q => d.fetchSq e.1 q.1) d) d

/-- Fetch for every queue of a slice. -/
def Dev.nvResumeSlice (d : Dev) (s : Nat) : Dev :=
  (d.nvm.ctrls.filter (fun e => e.1 / 4 == s)).foldl (fun d e => e.2.sqs.foldl (fun d q => d.fetchSq e.1 q.1) d) d

/-- A submission queue doorbell (R284). One of a slice that is not ACTIVE is discarded and counted (R257, Table 8.10). -/
def Dev.nvSqDoorbell (d : Dev) (slice port sq tail : Nat) : Dev :=
  let k := ctrlKey slice port
  if (d.slice slice).state ≠ .active then d.count (0x084 + 32 * (port % 4))
  else match tblGet (d.ctrl k).sqs sq with
  | none => d
  | some q =>
    if tail ≥ q.depth then d
    else (d.modCtrl k (fun c => { c with sqs := tblPut c.sqs sq { q with tail := tail } })).fetchSq k sq

/-- A completion queue doorbell. -/
def Dev.nvCqDoorbell (d : Dev) (slice port cq head : Nat) : Dev :=
  let k := ctrlKey slice port
  if (d.slice slice).state ≠ .active then d.count (0x084 + 32 * (port % 4))
  else match tblGet (d.ctrl k).cqs cq with
  | none => d
  | some q =>
    if head ≥ q.depth then d
    else
      let adv := (head + q.depth - q.head % q.depth) % q.depth
      if q.head + adv > q.written then d
      else (d.modCtrl k (fun c => { c with cqs := tblPut c.cqs cq { q with head := q.head + adv } })).releaseNv k cq 65536

/-- A fetched command arrives at its controller, if one is awaited: the next entry of its queue. -/
def Dev.nvArrive (d : Dev) (k sq : Nat) (f : Dev → Dev) : Dev :=
  let c := d.ctrl k
  match tblGet c.sqs sq with
  | none => d
  | some q =>
    if q.arrived = q.head ∨ !c.rdy ∨ c.disabling then d
    else f (d.modCtrl k (fun c => { c with sqs := tblPut c.sqs sq { q with arrived := (q.arrived + 1) % q.depth } }))

/-! ### Extents, encryption and tags (R288 to R292) -/

/-- The map entry that a unit has before its first write. -/
def blankMap : MapEntry := ⟨0, 0, false, 0⟩

/-- The held map entry of a unit. -/
def Volume.entry (v : Volume) (u : Nat) : MapEntry := tblGetD v.map u blankMap

/-- The 64 bits of a map entry (R289). -/
def mapWord (e : MapEntry) : Nat := e.ext % 2 ^ 32 + e.tgt % 16 * 2 ^ 32 + b2n e.valid * 2 ^ 36 + e.gen % 2 ^ 27 * 2 ^ 37

/-- Address of the map entry of a unit (R289). -/
def Volume.entryAddr (v : Volume) (u : Nat) : Nat := v.desc.mapAddr + 64 + 8 * u

/-- First target LBA of an extent (R288). -/
def Volume.extLba (v : Volume) (tgt ext : Nat) : Nat := (v.desc.targets.getD tgt (0, 0, 0)).2.2 + 65 * ext

/-- Extents of a target that a valid entry or a write under way names. -/
def Volume.usedExt (v : Volume) (tgt : Nat) : List Nat :=
  (v.map.filterMap (fun e => if e.2.valid && e.2.tgt == tgt then some e.2.ext else none)) ++
  (v.jobs.filterMap (fun j => if j.step != .queued && !j.invalidate && j.tgt == tgt then some j.ext else none))

/-- The target with the most free extents, the lowest index on a tie, and its lowest free extent (R296)
(DEDUCED, log 45). -/
def Volume.nextExt (v : Volume) : Option (Nat × Nat) :=
  let free := fun t => v.extents.getD t 0 - (v.usedExt t).length
  let t := (List.range v.desc.targets.length).foldl (fun a t => if free t > free a then t else a) 0
  if free t = 0 then none
  else match (List.range (v.extents.getD t 0)).find? (fun x => x ∉ v.usedExt t) with
    | some x => some (t, x)
    | none => none

/-- The XTS tweak of a block (R291). -/
def xtsTweak (vol lba gen : Nat) : Nat := lba % 2 ^ 64 + gen % 2 ^ 32 * 2 ^ 64 + vol % 2 ^ 16 * 2 ^ 96

/-- The additional data of a block's tag (R292), each number with the width of its field in Tables 9.2 and 9.3. -/
def tagAad (vol lba gen : Nat) (ct : List Byte) : List Byte := le 2 vol ++ le 8 lba ++ le 4 gen ++ ct

/-- Encrypt or decrypt a block under the volume's data key. -/
def Dev.volXts (d : Dev) (v : Volume) (enc : Bool) (lba gen : Nat) (b : Block) : Block :=
  match d.key v.desc.keyData with
  | some k => xts enc k.bytes (xtsTweak v.desc.volume lba gen) b
  | none => b

/-- Check the tag of a stored block and decrypt it; none where the tag fails. -/
def Dev.openBlock (d : Dev) (v : Volume) (lba gen : Nat) (x : Block × Nat × List Byte) : Option Block :=
  match d.openKey v.desc.keyTag x.2.1 (tagAad v.desc.volume lba gen x.1) [] x.2.2 with
  | some _ => some (d.volXts v false lba gen x.1)
  | none => none

/-- Encrypt and tag the 64 blocks of a unit: ciphertexts with counter and tag; none when the integrity key gives no
counter value. -/
def Dev.sealUnit (d : Dev) (v : Volume) (unit gen : Nat) : List Block → Nat → Option (List (Block × Nat × List Byte)) × Dev
  | [], _ => (some [], d)
  | b :: bs, i =>
    let lba := unit * 64 + i
    let ct := d.volXts v true lba gen b
    match d.seal v.desc.die v.desc.keyTag (tagAad v.desc.volume lba gen ct) [] with
    | (some (ctr, _, tag), d) => match d.sealUnit v unit gen bs (i + 1) with
      | (some r, d) => (some ((ct, ctr, tag) :: r), d)
      | (none, d) => (none, d)
    | (none, d) => (none, d)

/-- The trailer block of an extent (Table 9.2). -/
def trailerBytes (vol unit gen : Nat) (bs : List (Block × Nat × List Byte)) : List Byte :=
  le 2 0x0100 ++ le 2 vol ++ le 4 unit ++ le 4 (gen % 2 ^ 27) ++ zeros 52 ++
  (bs.map (fun b => le 6 b.2.1 ++ zeros 10 ++ (b.2.2 ++ zeros 16).take 16)).flatten ++ zeros 1984

/-- A block of zeros. -/
def zeroBlock : Block := zeros 4096

/-! ### The end of unit jobs and of commands (R301, R302, R305) -/

/-- Blocks that the cache of a volume holds, and its room (R301): 512 blocks in a page. -/
def Volume.cached (v : Volume) : Nat := ((v.jobs.filter (fun j => j.done)).map (fun j => j.blocks.length)).sum

/-- Unit jobs of a command of a controller. -/
def UnitJob.ofCmd (j : UnitJob) (k sq : Nat) (cid : BitVec 16) : Bool := j.ctrl == k && j.sq == sq && j.cid == cid && !j.done

/-- Take a command out of its controller. -/
def Dev.dropCmd (d : Dev) (k sq : Nat) (cid : BitVec 16) : Dev :=
  d.modCtrl k (fun c => { c with cmds := c.cmds.filter (fun m => !(m.sq == sq && m.cid == cid)) })

/-- Complete the writes whose data find room in the cache, and the commands that wait for nothing any more. -/
def Dev.settleCmd (d : Dev) (k : Nat) (m : NvCmd) : Dev :=
  match m.work with
  | .write js =>
    match d.volOf (k / 4) m.nsid with
    | none => d
    | some (n, v) =>
      let mine := v.jobs.filter (fun j => j.num ∈ js)
      let size := (mine.map (fun j => j.blocks.length)).sum
      if mine.isEmpty then
        let st := m.fail.getD (nvOk, 0)
        (d.dropCmd k m.sq m.cid).nvDone k m.sq m.cid 0 st.1 m.lba m.nsid st.2
      else if m.fail.isNone && v.wce && v.desc.cachePages > 0 && !v.fenced && v.cached + size ≤ v.desc.cachePages * 512 then
        let d := d.modVol n (fun v => { v with jobs := v.jobs.map (fun j => if j.num ∈ js then { j with done := true } else j) })
        (d.dropCmd k m.sq m.cid).nvDone k m.sq m.cid 0 nvOk m.lba m.nsid 0
      else d
  | .flush js =>
    if d.nvm.vols.any (fun e => e.2.desc.slice == k / 4 && e.2.jobs.any (fun j => (e.1 * 2 ^ 40 + j.num) ∈ js)) && m.fail.isNone then d
    else
      let st := m.fail.getD (nvOk, 0)
      (d.dropCmd k m.sq m.cid).nvDone k m.sq m.cid 0 st.1 m.lba m.nsid st.2
  | .read _ _ _ => d

/-- A controller whose fetched writes are done ends its reset or shutdown (R287): its queues go with a reset. -/
def Dev.settleCtrl (d : Dev) (k : Nat) : Dev :=
  let c := d.ctrl k
  let busy := d.nvm.vols.any (fun e => e.2.jobs.any (fun j => j.ctrl == k)) || c.cmds.any (fun m => match m.work with
    | .write _ => true
    | _ => false)
  if busy then d
  else if c.disabling then
    d.modCtrl k (fun c => { Ctrl.init with cc := c.cc, aqa := c.aqa, asq := c.asq, acq := c.acq, errors := c.errors,
                                           errCount := c.errCount })
  else if c.shst = 1 then d.modCtrl k (fun c => { c with shst := 2 })
  else d

/-- Detach a volume: its owner word is cleared, and its pages, queue pairs and keys are free again. -/
def Dev.detachVol (d : Dev) (n : Nat) : Dev :=
  match d.vol n with
  | none => d
  | some v =>
    let d := d.emit (.target n (.swap v.desc.mapAddr v.ownerWord 0))
    let d := v.qps.foldl Dev.dropQp d
    let d := [v.desc.keyData, v.desc.keyTag].foldl (fun d s => (d.refKey s false).modKey s (fun k => { k with held := false })) d
    let d := d.freePages v.desc.slice (256 + n)
    { d with nvm := { d.nvm with vols := tblDel d.nvm.vols n } }

/-- Nothing of a volume is under way: no unit job, and no Read. -/
def Dev.volIdle (d : Dev) (n : Nat) : Bool :=
  (d.vol n).any (fun v => v.jobs.isEmpty) && !d.nvm.ctrls.any (fun e => e.2.cmds.any (fun m => match m.work with
    | .read v _ _ => v == n
    | _ => false))

/-- Volumes that wait to be detached leave once nothing of them is under way. -/
def Dev.settleDetach (d : Dev) : Dev :=
  d.nvm.vols.foldl (fun d e => match e.2.detach with
    | some o => if d.volIdle e.1 then (d.detachVol e.1).finish o stOk 0 [] else d
    | none => d) d

/-- Settle everything that waits for unit jobs: commands in the order of their fetch, controllers, a detach. -/
def Dev.settleNv (d : Dev) : Dev :=
  let d := d.nvm.ctrls.foldl (fun d e => (d.ctrl e.1).cmds.foldl (fun d m => d.settleCmd e.1 m) d) d
  (d.nvm.ctrls.foldl (fun d e => d.settleCtrl e.1) d).settleDetach

/-- A unit job leaves its volume. -/
def Dev.endJob (d : Dev) (n num : Nat) : Dev :=
  (d.modVol n (fun v => { v with jobs := v.jobs.filter (fun j => j.num != num) })).settleNv

/-- Note a failure in the command of a job and in the flushes that wait for it. -/
def Dev.noteFail (d : Dev) (n : Nat) (j : UnitJob) (st : NvStatus) : Dev :=
  { d with nvm := { d.nvm with ctrls := tblMap d.nvm.ctrls (fun k c => { c with cmds := c.cmds.map (fun m =>
      let hit := match m.work with
        | .write js => k == j.ctrl && j.num ∈ js
        | .flush js => (n * 2 ^ 40 + j.num) ∈ js && j.done
        | .read _ _ _ => false
      if hit && m.fail.isNone then { m with fail := some (st, j.tgt) } else m) }) } }

/-- A unit job fails (Table 9.4). Of a command that has not completed it ends, and the unit stays old. Data that the
cache already holds go back to the queue, or on a FENCED volume are given up, and a Flush that waits for them fails
with the status. A write of Cord ends the checkpoint (R326). -/
def Dev.failJob (d : Dev) (n : Nat) (j : UnitJob) (st : NvStatus) (drop : Bool) : Dev :=
  let d := d.noteFail n j st
  if j.ctrl = cordCtrl then ({ d with cord := { d.cord with failed := true } }).endJob n j.num
  else if j.done && !drop then
    (d.modVol n (fun v => { v with jobs := v.jobs.map (fun i => if i.num = j.num then { i with step := .queued, retries := 0 } else i) })).settleNv
  else d.endJob n j.num

/-- Change a job. -/
def Dev.modUnitJob (d : Dev) (n num : Nat) (f : UnitJob → UnitJob) : Dev :=
  d.modVol n (fun v => { v with jobs := v.jobs.map (fun j => if j.num = num then f j else j) })

/-- The job of a unit that is first in order (R298). -/
def Volume.jobOf (v : Volume) (unit : Nat) : Option UnitJob := v.jobs.find? (fun j => j.unit == unit)

/-- The entry that a job swaps in. -/
def UnitJob.newEntry (j : UnitJob) (old : MapEntry) : MapEntry :=
  if j.invalidate then ⟨0, 0, false, old.gen + 1⟩ else ⟨j.ext, j.tgt, true, old.gen + 1⟩

/-- Step 5: the compare-and-swap is issued. -/
def Dev.issueSwap (d : Dev) (n : Nat) (v : Volume) (j : UnitJob) : Dev :=
  let e := v.entry j.unit
  (d.modUnitJob n j.num (fun j => { j with step := .swapping })).emit
    (.target n (.swap (v.entryAddr j.unit) (mapWord e) (mapWord (j.newEntry e))))

/-- Step 3: encrypt the blocks and write the extent; `old` gives the blocks that the write does not cover. -/
def Dev.writeExtent (d : Dev) (n : Nat) (v : Volume) (j : UnitJob) (old : List Block) : Dev :=
  let gen := (v.entry j.unit).gen + 1
  let bs := (List.range 64).map (fun i => tblGetD j.blocks i (old.getD i zeroBlock))
  match d.sealUnit v j.unit gen bs 0 with
  | (none, d) => d.failJob n j nvKey false
  | (some cs, d) =>
    (d.modUnitJob n j.num (fun i => { i with step := .writing, tgt := j.tgt, ext := j.ext })).emit
      (.target n (.write j.tgt (v.extLba j.tgt j.ext) (cs.map (·.1)) (trailerBytes v.desc.volume j.unit gen cs)))

/-- Steps 1 and 2 begin (R296, R303): the first job of the unit takes its extent and reads what it does not cover. -/
def Dev.destage (d : Dev) (n unit : Nat) : Dev :=
  match d.vol n with
  | none => d
  | some v => match v.jobOf unit with
    | none => d
    | some j =>
      if j.step ≠ .queued then d
      else if v.fenced then d.failJob n j nvFenced true
      else if (v.entry unit).gen ≥ 2 ^ 27 - 1 then d.failJob n j nvGen false
      else if j.invalidate then d.issueSwap n v j
      else match v.nextExt with
        | none => d.failJob n j nvLogFull false
        | some (t, x) =>
          let j := { j with tgt := t, ext := x }
          let e := v.entry unit
          if e.valid && j.blocks.length < 64 then
            let need := (List.range 64).filter (fun i => (tblGet j.blocks i).isNone)
            let d := d.modUnitJob n j.num (fun i => { i with step := .reading, tgt := t, ext := x })
            (need ++ [64]).foldl (fun d i => d.emit (.target n (.read e.tgt (v.extLba e.tgt e.ext + i) 1))) d
          else d.writeExtent n v j []

/-- Step 2 ends: the old blocks are verified and decrypted (R296). -/
def Dev.oldBlocks (d : Dev) (n unit : Nat) (x : ExtentData) : Dev :=
  match d.vol n with
  | none => d
  | some v => match v.jobOf unit with
    | none => d
    | some j =>
      if j.step ≠ .reading then d
      else
        let e := v.entry unit
        let need := (List.range 64).filter (fun i => (tblGet j.blocks i).isNone)
        let got := (List.range 64).map (fun i => match x.blocks[i]? with
          | some b => d.openBlock v (unit * 64 + i) e.gen b
          | none => none)
        let bad := (need.filter (fun i => (got.getD i none).isNone)).length
        if bad > 0 then (d.modVol n (fun v => { v with tagFail := satAdd 16 v.tagFail bad })).failJob n j nvReadErr false
        else d.writeExtent n v j (got.map (fun b => b.getD zeroBlock))

/-- The job of a unit that stands at a step. -/
def Dev.jobAt (d : Dev) (n unit : Nat) (st : JobStep) : Option (Volume × UnitJob) :=
  match d.vol n with
  | none => none
  | some v => match v.jobOf unit with
    | none => none
    | some j => if j.step = st then some (v, j) else none

/-- Step 3 ends: the target is flushed. -/
def Dev.extentWritten (d : Dev) (n unit : Nat) : Dev :=
  match d.jobAt n unit .writing with
  | some (_, j) => (d.modUnitJob n j.num (fun j => { j with step := .flushing, retries := 0 })).emit (.target n (.flush j.tgt))
  | none => d

/-- Step 4 ends: the map entry is swapped. -/
def Dev.targetFlushed (d : Dev) (n unit : Nat) : Dev :=
  match d.jobAt n unit .flushing with
  | some (v, j) => d.issueSwap n v j
  | none => d

/-- Step 5 ends: the value that the swap found (R299). -/
def Dev.mapSwapped (d : Dev) (n unit : Nat) (found : W64) : Dev :=
  match d.jobAt n unit .swapping with
  | some (v, j) =>
    if found.toNat = mapWord (v.entry unit) then
      (d.modUnitJob n j.num (fun j => { j with step := .persisting, retries := 0 })).emit (.target n .persist)
    else
      (d.modVol n (fun v => { v with fenced := true, conflicts := satAdd 16 v.conflicts 1 })).failJob n j nvConflict true
  | none => d

/-- Step 6 ends, and step 7 (R296): the held map takes the entry, the old extent is freed and deallocated. -/
def Dev.mapPersisted (d : Dev) (n unit : Nat) : Dev :=
  match d.jobAt n unit .persisting with
  | some (v, j) =>
    let old := v.entry unit
    let d := d.modVol n (fun v => { v with map := tblPut v.map unit (j.newEntry old) })
    let d := if old.valid then d.emit (.target n (.deallocate old.tgt (v.extLba old.tgt old.ext) 65)) else d
    d.endJob n j.num
  | none => d

/-- Issue the operation of a job's step again. -/
def Dev.reissue (d : Dev) (n : Nat) (v : Volume) (j : UnitJob) : Dev :=
  match j.step with
  | .queued => d
  | .reading =>
    let e := v.entry j.unit
    ((List.range 65).filter (fun i => (tblGet j.blocks i).isNone)).foldl (fun d i =>
      d.emit (.target n (.read e.tgt (v.extLba e.tgt e.ext + i) 1))) d
  | .writing => d.writeExtent n v j []
  | .flushing => d.emit (.target n (.flush j.tgt))
  | .swapping => d.issueSwap n v j
  | .persisting => d.emit (.target n .persist)

/-- A target or map operation of a unit job fails or times out (R305): it is retried, or its command fails. A job
that is writing starts its unit again, since its old blocks are no longer held. -/
def Dev.opTimeout (d : Dev) (n unit : Nat) : Dev :=
  match d.vol n with
  | none => d
  | some v => match v.jobOf unit with
    | none => d
    | some j =>
      if j.step = .queued then d
      else if j.retries < d.fld F.NVE_CTRL_RETRIES 0 then
        let d := d.modVol n (fun v => { v with retried := satAdd 16 v.retried 1 })
        let d := d.modUnitJob n j.num (fun j => { j with retries := j.retries + 1 })
        if j.step = .writing then (d.modUnitJob n j.num (fun j => { j with step := .queued })).destage n unit
        else d.reissue n v j
      else d.failJob n j nvPath false

end Sys2Proof.Machine
end

