-- ==== Sys2Proof/Machine/NvmeCmd.lean ====
section
/-! DEFINITION. NVMe controllers: enabling and shutting down, admin commands, I/O commands, and the attaching of volumes
(09_storage R284 to R308). -/

namespace Sys2Proof.Machine

/-! ### Enabling, reset and shutdown (R287) -/

/-- CAP of a controller (Table 9.1). -/
def nvCap : Nat := 0xFFFF + 2 ^ 16 + 20 * 2 ^ 24 + 2 ^ 37 + 4 * 2 ^ 52

/-- VS of a controller (Table 9.1). -/
def nvVs : Nat := 0x00020000

/-- CSTS of a controller. -/
def Ctrl.csts (c : Ctrl) : Nat := b2n c.rdy + 4 * c.shst

/-- The slice of a page on a port holds a controller there (R284), and its registers can be written. -/
def Dev.nvHere (d : Dev) (slice port : Nat) : Bool :=
  (d.slice slice).state == .active && d.pageOn slice port && port < 4 && slice < 512

/-- CC written with EN 1: the admin queues stand at AQA, ASQ and ACQ and count against the quota (R286, R287). -/
def Dev.ccEnable (d : Dev) (slice port : Nat) (cc : W32) : Dev :=
  let k := ctrlKey slice port
  let c := d.ctrl k
  if !d.nvHere slice port ∨ c.disabling then d
  else if c.rdy then d.modCtrl k (fun c => { c with cc := cc })
  else
    let sqd := bits c.aqa.toNat 0 12 + 1
    let cqd := bits c.aqa.toNat 16 12 + 1
    let ok := d.nvQueues slice + 2 ≤ (d.slice slice).nvq && sqd ≥ 2 && cqd ≥ 2
    d.modCtrl k (fun c => if ok then
        { Ctrl.init with
          cc := cc
          rdy := true
          aqa := c.aqa
          asq := c.asq
          acq := c.acq
          errors := c.errors
          errCount := c.errCount
          sqs := [(0, ⟨0, c.asq.toNat / 4096 * 4096, sqd, 0, 0, 0, false⟩)]
          cqs := [(0, ⟨c.acq.toNat / 4096 * 4096, cqd, true, 0, 0, 0, []⟩)] }
      else { c with cc := cc })

/-- CC written with EN 0: the controller resets once the writes it fetched are durable (R287). -/
def Dev.ccDisable (d : Dev) (slice port : Nat) (cc : W32) : Dev :=
  let k := ctrlKey slice port
  if !d.nvHere slice port then d
  else if !(d.ctrl k).rdy then d.modCtrl k (fun c => { c with cc := cc })
  else (d.modCtrl k (fun c => { c with cc := cc, disabling := true, aers := [] })).settleCtrl k

/-- CC.SHN written: the controller shuts down once the writes it fetched are durable (R287). -/
def Dev.ccShutdown (d : Dev) (slice port : Nat) (cc : W32) : Dev :=
  let k := ctrlKey slice port
  if !d.nvHere slice port ∨ !(d.ctrl k).rdy ∨ bits cc.toNat 14 2 = 0 then d
  else (d.modCtrl k (fun c => { c with cc := cc, shst := 1 })).settleCtrl k

/-! ### Data to and from the host -/

/-- The pieces of memory that blocks go to, in order: address, bytes, poison. -/
def scatter : Nat → List (Nat × Nat) → List (List Byte × Bool) → List (Nat × List Byte × Bool)
  | 0, _, _ => []
  | _, [], _ => []
  | _, _, [] => []
  | n + 1, (a, len) :: ss, (b, bad) :: bs =>
    if len = 0 then scatter n ss ((b, bad) :: bs)
    else if b.length ≤ len then (a, b, bad) :: scatter n ((a + b.length, len - b.length) :: ss) bs
    else (a, b.take len, bad) :: scatter n ss ((b.drop len, bad) :: bs)

/-- Write blocks to the host; a block that is bad goes out poisoned (R270). -/
def Dev.nvToHost (d : Dev) (k : Nat) (segs : List (Nat × Nat)) (bs : List (List Byte × Bool)) : Dev :=
  (scatter (segs.length + bs.length + 2) segs bs).foldl (fun d e =>
    let n := (e.1 + e.2.1.length + 63) / 64 - e.1 / 64
    d.dmaSlice (k / 4) (k % 4) e.1 e.2.1 (if e.2.2 then List.replicate n true else []) false) d

/-- Every piece passes the slice's windows (R284). -/
def Dev.segsOk (d : Dev) (k : Nat) (segs : List (Nat × Nat)) (write : Bool) : Bool :=
  segs.all (fun e => (d.slice (k / 4)).dmaOk (k % 4) e.1 e.2 write)

/-- Total length of the pieces. -/
def segBytes (segs : List (Nat × Nat)) : Nat := (segs.map (·.2)).sum

/-! ### Admin commands (Table 9.1) -/

/-- Admin and I/O opcodes of Table 9.1. -/
def adminOpcodes : List Nat := [0x00, 0x01, 0x02, 0x04, 0x05, 0x06, 0x08, 0x09, 0x0A, 0x0C, 0xC1]
def ioOpcodes : List Nat := [0x00, 0x01, 0x02, 0x08, 0x09]

/-- An admin command runs at the controller that fetched it; one with an opcode that Table 9.1 does not list completes with
Invalid Command Opcode (R285). -/
def Dev.admin (d : Dev) (slice port : Nat) (a : NvmeAdmin) (f : Nat → Dev → Dev) : Dev :=
  let k := ctrlKey slice port
  d.nvArrive k 0 (fun d => if adminOpcodes.contains a.opcode then f k d else d.adminDone k a.cid 0 nvBadOpcode)

/-- Create I/O Submission Queue. -/
def Dev.createSq (d : Dev) (k : Nat) (a : NvmeAdmin) : Dev :=
  let id := bits a.cdw10.toNat 0 16
  let depth := bits a.cdw10.toNat 16 16 + 1
  let cq := bits a.cdw11.toNat 16 16
  let base := (a.segs.getD 0 (0, 0)).1
  if id = 0 ∨ (tblGet (d.ctrl k).sqs id).isSome ∨ d.nvQueues (k / 4) + 1 > (d.slice (k / 4)).nvq then d.adminDone k a.cid 0 nvBadQid
  else if cq = 0 ∨ (tblGet (d.ctrl k).cqs cq).isNone then d.adminDone k a.cid 0 nvBadCq
  else if depth < 2 then d.adminDone k a.cid 0 nvBadSize
  else if !a.cdw11.getLsbD 0 then d.adminDone k a.cid 0 nvBadField
  else if !(d.slice (k / 4)).dmaOk (k % 4) base (64 * depth) false then d.adminDone k a.cid 0 nvTransfer
  else (d.modCtrl k (fun c => { c with sqs := tblPut c.sqs id ⟨cq, base, depth, 0, 0, 0, false⟩ })).adminDone k a.cid 0 nvOk

/-- Create I/O Completion Queue. -/
def Dev.createCq (d : Dev) (k : Nat) (a : NvmeAdmin) : Dev :=
  let id := bits a.cdw10.toNat 0 16
  let depth := bits a.cdw10.toNat 16 16 + 1
  let vec := bits a.cdw11.toNat 16 16
  let base := (a.segs.getD 0 (0, 0)).1
  if id = 0 ∨ (tblGet (d.ctrl k).cqs id).isSome ∨ d.nvQueues (k / 4) + 1 > (d.slice (k / 4)).nvq then d.adminDone k a.cid 0 nvBadQid
  else if depth < 2 then d.adminDone k a.cid 0 nvBadSize
  else if !a.cdw11.getLsbD 0 then d.adminDone k a.cid 0 nvBadField
  else if vec ≥ (d.slice (k / 4)).vecCount ∧ a.cdw11.getLsbD 1 then d.adminDone k a.cid 0 nvBadVector
  else if !(d.slice (k / 4)).dmaOk (k % 4) base (16 * depth) true then d.adminDone k a.cid 0 nvTransfer
  else (d.modCtrl k (fun c => { c with cqs := tblPut c.cqs id ⟨base, depth, a.cdw11.getLsbD 1, vec, 0, 0, []⟩ })).adminDone k
    a.cid 0 nvOk

/-- Steps at which a write can still be caught (R308). -/
def JobStep.early : JobStep → Bool
  | .swapping => false
  | .persisting => false
  | _ => true

/-- End the commands of a submission queue with Command Aborted due to SQ Deletion; unit writes that have reached
their swap run on. -/
def Dev.abortSq (d : Dev) (k sq : Nat) : Dev :=
  let ms := (d.ctrl k).cmds.filter (fun m => m.sq == sq)
  let d := ms.foldl (fun d m =>
    match (tblGet (d.ctrl k).sqs sq).map (·.cq) with
    | some cq => (d.dropCmd k sq m.cid).writeNvCqe k cq ⟨0, sq, m.cid, nvSqDeleted⟩
    | none => d) d
  let left := fun (js : List UnitJob) =>
    (js.filter (fun j => !(j.ctrl == k && j.sq == sq && !j.done && j.step.early))).map
      (fun j => if j.ctrl == k && j.sq == sq then { j with done := true } else j)
  { d with nvm := { d.nvm with vols := tblMap d.nvm.vols (fun _ v => { v with jobs := left v.jobs }) } }

/-- Delete I/O Submission Queue, frozen or not (R307). -/
def Dev.deleteSq (d : Dev) (k : Nat) (a : NvmeAdmin) : Dev :=
  let id := bits a.cdw10.toNat 0 16
  if id = 0 ∨ (tblGet (d.ctrl k).sqs id).isNone then d.adminDone k a.cid 0 nvBadQid
  else
    let d := d.abortSq k id
    ((d.modCtrl k (fun c => { c with sqs := tblDel c.sqs id })).adminDone k a.cid 0 nvOk).settleNv

/-- Delete I/O Completion Queue: not while a submission queue uses it. -/
def Dev.deleteCq (d : Dev) (k : Nat) (a : NvmeAdmin) : Dev :=
  let id := bits a.cdw10.toNat 0 16
  if id = 0 ∨ (tblGet (d.ctrl k).cqs id).isNone then d.adminDone k a.cid 0 nvBadQid
  else if (d.ctrl k).sqs.any (fun e => e.2.cq == id) then d.adminDone k a.cid 0 nvBadDelete
  else (d.modCtrl k (fun c => { c with cqs := tblDel c.cqs id })).adminDone k a.cid 0 nvOk

/-- A page of data that Table 9.1 gives in part: pieces (offset, bytes) over bytes that it leaves open (DESIGN CHOICE, log 28). -/
def nvPage (page n : Nat) (known : List (Nat × List Byte)) : List Byte :=
  (List.range n).map (fun i => match known.find? (fun e => e.1 ≤ i && i < e.1 + e.2.length) with
    | some e => e.2.getD (i - e.1) 0
    | none => Config.nvmeByte (page * 65536 + i))

/-- The 64 B of an Error Information entry (R306). -/
def NvError.bytes (e : NvError) : List Byte :=
  le 8 e.count ++ le 2 e.sq ++ le 2 e.cid.toNat ++ le 2 (2 * e.status.sc + 512 * e.status.sct) ++ le 2 0xFFFF ++ le 8 e.lba ++
  le 4 e.nsid ++ le 1 e.target ++ le 1 1 ++ zeros 2 ++ le 8 e.stamp.toNat ++ zeros 24

/-- Get Log Page 01h, 02h or 05h. Error entries are kept until they are read (R306) (PRESUMED, log 45). -/
def Dev.getLog (d : Dev) (k : Nat) (a : NvmeAdmin) : Dev :=
  let lid := bits a.cdw10.toNat 0 8
  let n := 4 * (bits a.cdw10.toNat 16 16 + bits a.cdw11.toNat 0 16 * 65536 + 1)
  let c := d.ctrl k
  if lid ≠ 1 ∧ lid ≠ 2 ∧ lid ≠ 5 then d.adminDone k a.cid 0 nvBadLog
  else if segBytes a.segs < n then d.adminDone k a.cid 0 nvBadField
  else if !d.segsOk k a.segs true then d.adminDone k a.cid 0 nvTransfer
  else
    let page := match lid with
      | 1 => (c.errors.map NvError.bytes).flatten ++ zeros (64 * 256 - 64 * c.errors.length)
      | 2 => nvPage 2 512 []
      | _ => ((List.range 512).map (fun i =>
          le 4 (b2n (if i < 256 then i ∈ adminOpcodes else (i - 256) ∈ ioOpcodes)))).flatten ++ zeros 2048
    let d := d.nvToHost k a.segs [(page.take n, false)]
    let d := if lid = 1 then d.modCtrl k (fun c => { c with errors := c.errors.drop (n / 64) }) else d
    d.adminDone k a.cid 0 nvOk

/-- The Identify Controller data that Table 9.1 gives. -/
def Dev.idController (d : Dev) (k : Nat) : List (Nat × List Byte) :=
  [(77, le 1 8), (78, le 2 k), (80, le 4 nvVs), (111, le 1 1), (258, le 1 15), (262, le 1 255), (512, le 1 0x66), (513, le 1 0x44),
   (516, le 4 64), (520, le 2 0x0C), (522, le 2 0), (524, le 1 0), (525, le 1 1), (526, le 2 63), (528, le 2 63)]

/-- The Identify Namespace data that Table 9.1 and the volume give. -/
def idNamespace (blocks : Nat) : List (Nat × List Byte) :=
  [(0, le 8 blocks), (8, le 8 blocks), (25, le 1 0), (26, le 1 0), (29, le 1 0), (30, le 1 1),
   (33, le 1 ((Config.nvmeByte 33).toNat / 8 * 8 + 1)), (34, le 2 63), (36, le 2 63),
   (40, le 2 63), (42, le 2 0), (44, le 2 63), (128, le 4 (12 * 65536))]

/-- Identify, CNS 00h to 03h. -/
def Dev.nvIdentify (d : Dev) (k : Nat) (a : NvmeAdmin) : Dev :=
  let cns := bits a.cdw10.toNat 0 8
  if cns > 3 then d.adminDone k a.cid 0 nvBadField
  else if segBytes a.segs < 4096 then d.adminDone k a.cid 0 nvBadField
  else if !d.segsOk k a.segs true then d.adminDone k a.cid 0 nvTransfer
  else
    let ns := d.volOf (k / 4) a.nsid
    let page : Option (List Byte) := match cns with
      | 0 => if a.nsid = 0 ∨ a.nsid > 64 then none
        else some (match ns with
          | some (_, v) => nvPage 0 4096 (idNamespace (64 * v.desc.units))
          | none => zeros 4096)
      | 1 => some (nvPage 1 4096 (d.idController k))
      | 2 =>
        let ids := (List.range 65).filter (fun i => i > a.nsid && (d.volOf (k / 4) i).isSome)
        some ((ids.map (le 4)).flatten ++ zeros (4096 - 4 * ids.length))
      | _ => match ns with
        | some _ => some (nvPage 3 4096 [])
        | none => none
    match page with
    | none => d.adminDone k a.cid 0 nvBadNs
    | some bs => (d.nvToHost k a.segs [(bs, false)]).adminDone k a.cid 0 nvOk

/-- A write that has reached step 5 for no unit: all its unit jobs stand, before their swap (R308). -/
def Dev.catchable (d : Dev) (k sq : Nat) (cid : BitVec 16) : Bool :=
  (d.ctrl k).cmds.any (fun m => m.sq == sq && m.cid == cid && (match m.work with
    | .write js =>
      let mine := (d.nvm.vols.map (fun e => e.2.jobs)).flatten.filter (fun j => j.ofCmd k sq cid)
      mine.length == js.length && mine.all (fun j => j.step.early)
    | _ => false))

/-- Abort (R308). -/
def Dev.nvAbort (d : Dev) (k : Nat) (a : NvmeAdmin) : Dev :=
  let sq := bits a.cdw10.toNat 0 16
  let cid := BitVec.ofNat 16 (bits a.cdw10.toNat 16 16)
  if !d.catchable k sq cid then d.adminDone k a.cid 1 nvOk
  else
    let d := { d with nvm := { d.nvm with vols := tblMap d.nvm.vols (fun _ v =>
      { v with jobs := v.jobs.filter (fun j => !(j.ofCmd k sq cid)) }) } }
    let d := (d.dropCmd k sq cid).nvDone k sq cid 0 nvAborted 0 0 0
    (d.adminDone k a.cid 0 nvOk).settleNv

/-- Feature 06h is the volatile write cache of the volumes of the slice. -/
def Dev.nvWce (d : Dev) (slice : Nat) (on : Bool) : Dev :=
  { d with nvm := { d.nvm with vols := tblMap d.nvm.vols (fun _ v =>
      if v.desc.slice = slice then { v with wce := on } else v) } }

/-- The value of a feature: 06h as the volumes have it, 07h from the quota (R286). -/
def Dev.feature (d : Dev) (k fid : Nat) : Nat :=
  match fid with
  | 6 => b2n (match d.nvm.vols.find? (fun e => e.2.desc.slice == k / 4) with
    | some e => e.2.wce
    | none => true)
  | 7 =>
    let n := ((d.slice (k / 4)).nvq - 2) / 2 - 1
    n + n * 65536
  | _ => ((tblGet (d.ctrl k).features fid).getD 0).toNat

/-- A feature of Table 9.1. -/
def featureOk (fid : Nat) : Bool := fid == 6 || fid == 7 || fid == 8 || fid == 11

/-- Set Features. -/
def Dev.setFeature (d : Dev) (k : Nat) (a : NvmeAdmin) : Dev :=
  let fid := bits a.cdw10.toNat 0 8
  if !featureOk fid then d.adminDone k a.cid 0 nvBadField
  else
    let d := d.modCtrl k (fun c => { c with features := tblPut c.features fid a.cdw11 })
    let d := if fid = 6 then (d.nvWce (k / 4) (a.cdw11.getLsbD 0)).settleNv else d
    d.adminDone k a.cid (if fid = 7 then d.feature k 7 else 0) nvOk

/-- Get Features. -/
def Dev.getFeature (d : Dev) (k : Nat) (a : NvmeAdmin) : Dev :=
  let fid := bits a.cdw10.toNat 0 8
  if !featureOk fid then d.adminDone k a.cid 0 nvBadField else d.adminDone k a.cid (d.feature k fid) nvOk

/-- Asynchronous Event Request: it completes with the next event. -/
def Dev.asyncRequest (d : Dev) (k : Nat) (a : NvmeAdmin) : Dev :=
  (d.modCtrl k (fun c => { c with aers := c.aers ++ [a.cid] })).reportEvents k 64

/-- QUEUE_RESTART (R307); `cids` are the command IDs of the entries between head and tail. -/
def Dev.queueRestart (d : Dev) (k : Nat) (a : NvmeAdmin) (cids : List (BitVec 16)) : Dev :=
  let sq := bits a.cdw10.toNat 0 16
  match tblGet (d.ctrl k).sqs sq with
  | none => d.adminDone k a.cid 0 nvBadQid
  | some q =>
    if !q.frozen then d.adminDone k a.cid 0 nvSequence
    else
      let n := (q.tail + q.depth - q.head) % q.depth
      let d := d.modCtrl k (fun c => { c with sqs := tblPut c.sqs sq { q with frozen := false } })
      let d := if a.cdw11.getLsbD 0 then
          let d := d.modCtrl k (fun c => { c with sqs := tblMod c.sqs sq (fun q =>
            { q with head := q.tail, arrived := (q.arrived + n) % q.depth }) })
          (cids.take n).foldl (fun d i => d.writeNvCqe k q.cq ⟨0, sq, i, nvSqDeleted⟩) d
        else d
      (d.fetchSq k sq).adminDone k a.cid 0 nvOk

/-! ### I/O commands (R296 to R303) -/

/-- The parts of a block range in its units: unit, first block, count. -/
def unitParts : Nat → Nat → Nat → List (Nat × Nat × Nat)
  | 0, _, _ => []
  | f + 1, lba, n =>
    if n = 0 then []
    else
      let c := min n (64 - lba % 64)
      (lba / 64, lba % 64, c) :: unitParts f (lba + c) (n - c)

/-- Start a command that changes units: its jobs join the volume in order, and it completes by R301. -/
def Dev.startJobs (d : Dev) (k sq n : Nat) (io : NvmeIo) (parts : List (Nat × Tbl Block × Bool × Bool)) : Dev :=
  match d.vol n with
  | none => d
  | some v =>
    let js : List UnitJob := (List.range parts.length).zip parts |>.map (fun e =>
      { num := v.nextJob + e.1, unit := e.2.1, blocks := e.2.2.1, invalidate := e.2.2.2.1, dealloc := e.2.2.2.2, done := false,
        ctrl := k, sq := sq, cid := io.cid, step := .queued, tgt := 0, ext := 0, retries := 0 })
    let d := d.modVol n (fun v => { v with jobs := v.jobs ++ js, nextJob := v.nextJob + js.length })
    (d.modCtrl k (fun c => { c with cmds := c.cmds ++
      [⟨sq, io.cid, io.nsid, io.slba, .write (js.map (·.num)), none⟩] })).settleNv

/-- An I/O command on a namespace, after the checks that every one passes (R285, Table 9.4). -/
def Dev.io (d : Dev) (slice port sq : Nat) (io : NvmeIo) (range : Bool) (f : Nat → Nat → Volume → Dev → Dev) : Dev :=
  let k := ctrlKey slice port
  if sq = 0 then d
  else d.nvArrive k sq (fun d =>
    if !ioOpcodes.contains io.opcode then d.nvDone k sq io.cid 0 nvBadOpcode io.slba io.nsid 0
    else match d.volOf slice io.nsid with
    | none => d.nvDone k sq io.cid 0 nvBadNs io.slba io.nsid 0
    | some (n, v) =>
      if range ∧ io.slba + io.nlb > 64 * v.desc.units then d.nvDone k sq io.cid 0 nvRange io.slba io.nsid 0
      else if !io.fieldsOk ∨ (range ∧ io.nlb = 0) then d.nvDone k sq io.cid 0 nvBadField io.slba io.nsid 0
      else f k n v d)

/-- Checks of a command that changes units (Table 9.4, R299, R300): none when it may go on. -/
def Dev.writeCheck (d : Dev) (v : Volume) (units : List Nat) : Option NvStatus :=
  if v.desc.ro then some nvReadOnly
  else if v.fenced then some nvFenced
  else if units.any (fun u => (v.entry u).gen + (v.jobs.filter (fun j => j.unit == u)).length ≥ 2 ^ 27 - 1) then some nvGen
  else if (d.key v.desc.keyTag).any (fun s => s.state == .locked) then some nvKey
  else none

/-- Write. -/
def Dev.nvWrite (d : Dev) (slice port sq : Nat) (io : NvmeIo) : Dev :=
  d.io slice port sq io true (fun k n v d =>
    let ps := unitParts (io.nlb + 1) io.slba io.nlb
    if segBytes io.segs ≠ 4096 * io.nlb ∨ io.nlb > 256 then d.nvDone k sq io.cid 0 nvBadField io.slba io.nsid 0
    else if !d.segsOk k io.segs false ∨ io.poisoned then d.nvDone k sq io.cid 0 nvTransfer io.slba io.nsid 0
    else match d.writeCheck v (ps.map (·.1)) with
      | some st => d.nvDone k sq io.cid 0 st io.slba io.nsid 0
      | none => d.startJobs k sq n io (ps.map (fun p =>
          (p.1, (List.range p.2.2).map (fun i => (p.2.1 + i, (io.data.getD (p.1 * 64 + p.2.1 + i - io.slba) zeroBlock))),
           false, false))))

/-- Write Zeroes: whole units become invalid, parts of units are written with zero blocks (R303). -/
def Dev.nvZeroes (d : Dev) (slice port sq : Nat) (io : NvmeIo) : Dev :=
  d.io slice port sq io true (fun k n v d =>
    let ps := unitParts (io.nlb + 1) io.slba io.nlb
    match d.writeCheck v (ps.map (·.1)) with
    | some st => d.nvDone k sq io.cid 0 st io.slba io.nsid 0
    | none => d.startJobs k sq n io (ps.map (fun p =>
        if p.2.2 = 64 then (p.1, [], true, false)
        else (p.1, (List.range p.2.2).map (fun i => (p.2.1 + i, zeroBlock)), false, false))))

/-- Dataset Management, Deallocate (R303); `ranges` as (first LBA, blocks). -/
def Dev.nvDeallocate (d : Dev) (slice port sq : Nat) (io : NvmeIo) (ranges : List (Nat × Nat)) : Dev :=
  d.io slice port sq io false (fun k n v d =>
    let us := (ranges.map (fun r => ((unitParts (r.2 + 1) r.1 r.2).filter (fun p => p.2.2 = 64)).map (·.1))).flatten
    if ranges.any (fun r => r.1 + r.2 > 64 * v.desc.units) then d.nvDone k sq io.cid 0 nvRange io.slba io.nsid 0
    else if !d.segsOk k io.segs false then d.nvDone k sq io.cid 0 nvTransfer io.slba io.nsid 0
    else match d.writeCheck v us with
      | some st => d.nvDone k sq io.cid 0 st io.slba io.nsid 0
      | none => d.startJobs k sq n io (us.map (fun u => (u, [], true, true))))

/-- Flush (R302). -/
def Dev.nvFlush (d : Dev) (slice port sq : Nat) (io : NvmeIo) : Dev :=
  let k := ctrlKey slice port
  if sq = 0 then d
  else d.nvArrive k sq (fun d =>
    if !ioOpcodes.contains io.opcode then d.nvDone k sq io.cid 0 nvBadOpcode 0 io.nsid 0
    else if io.nsid ≠ 0xFFFFFFFF ∧ (d.volOf slice io.nsid).isNone then d.nvDone k sq io.cid 0 nvBadNs 0 io.nsid 0
    else if !io.fieldsOk then d.nvDone k sq io.cid 0 nvBadField 0 io.nsid 0
    else
      let vs := d.nvm.vols.filter (fun e => e.2.desc.slice == slice && (io.nsid == 0xFFFFFFFF || e.2.desc.nsid == io.nsid))
      let js := (vs.map (fun e => (e.2.jobs.filter (fun j => j.ctrl == k && !j.dealloc)).map (fun j => e.1 * 2 ^ 40 + j.num))).flatten
      (d.modCtrl k (fun c => { c with cmds := c.cmds ++ [⟨sq, io.cid, io.nsid, 0, .flush js, none⟩] })).settleNv)

/-- The blocks of completed writes that the cache holds for a unit, in order (R303). -/
def Volume.overlay (v : Volume) (unit : Nat) : Tbl Block :=
  (v.jobs.filter (fun j => j.unit == unit && j.done)).foldl (fun t j =>
    if j.invalidate then (List.range 64).map (fun i => (i, zeroBlock))
    else j.blocks.foldl (fun t b => tblPut t b.1 b.2) t) []

/-- Blocks of a part that must come from its target. -/
def ReadPart.needs (p : ReadPart) : Bool :=
  p.entry.valid && (List.range p.count).any (fun i => (tblGet p.cached (p.first + i)).isNone)

/-- The blocks of a part, each with its poison. -/
def ReadPart.blocks (p : ReadPart) : List (Block × Bool) :=
  (List.range p.count).map (fun i => match tblGet p.cached (p.first + i) with
    | some b => (b, false)
    | none => match p.got with
      | some bs => bs.getD (p.first + i) (zeroBlock, false)
      | none => (zeroBlock, false))

/-- Issue the target reads of a part: its blocks and the trailer. -/
def Dev.readTarget (d : Dev) (n : Nat) (v : Volume) (p : ReadPart) : Dev :=
  let lba := v.extLba p.entry.tgt p.entry.ext
  (d.emit (.target n (.read p.entry.tgt (lba + p.first) p.count))).emit (.target n (.read p.entry.tgt (lba + 64) 1))

/-- A read whose parts have all answered completes (R298, Table 9.4). -/
def Dev.readDone (d : Dev) (k : Nat) (m : NvCmd) : Dev :=
  match m.work with
  | .read _ segs ps =>
    if ps.any (fun p => p.needs && p.got.isNone) then d
    else
      let bs := (ps.map ReadPart.blocks).flatten
      let d := (d.dropCmd k m.sq m.cid).nvToHost k segs bs
      let st := if bs.any (·.2) then nvReadErr else nvOk
      d.nvDone k m.sq m.cid 0 st m.lba m.nsid (match ps.find? (fun p => p.blocks.any (·.2)) with
        | some p => p.entry.tgt
        | none => 0)
  | _ => d

/-- Read: each unit's entry is taken once (R298). -/
def Dev.nvRead (d : Dev) (slice port sq : Nat) (io : NvmeIo) : Dev :=
  d.io slice port sq io true (fun k n v d =>
    if segBytes io.segs ≠ 4096 * io.nlb ∨ io.nlb > 256 then d.nvDone k sq io.cid 0 nvBadField io.slba io.nsid 0
    else if !d.segsOk k io.segs true then d.nvDone k sq io.cid 0 nvTransfer io.slba io.nsid 0
    else
      let ps : List ReadPart := (unitParts (io.nlb + 1) io.slba io.nlb).map (fun p =>
        ⟨p.1, v.entry p.1, p.2.1, p.2.2, v.overlay p.1, none, 0⟩)
      let m : NvCmd := ⟨sq, io.cid, io.nsid, io.slba, .read n io.segs ps, none⟩
      let d := d.modCtrl k (fun c => { c with cmds := c.cmds ++ [m] })
      ((ps.filter ReadPart.needs).foldl (fun d p => d.readTarget n v p) d).readDone k m)

/-- The read command of a controller with an ID. -/
def Dev.readCmd (d : Dev) (k sq : Nat) (cid : BitVec 16) : Option (NvCmd × Nat × List (Nat × Nat) × List ReadPart) :=
  match (d.ctrl k).cmds.find? (fun m => m.sq == sq && m.cid == cid) with
  | some m => match m.work with
    | .read n segs ps => some (m, n, segs, ps)
    | _ => none
  | none => none

/-- Put a read command back with its parts changed. -/
def Dev.putRead (d : Dev) (k : Nat) (m : NvCmd) : Dev :=
  d.modCtrl k (fun c => { c with cmds := c.cmds.map (fun x => if x.sq == m.sq && x.cid == m.cid then m else x) })

/-- A target read of a Read completes (R292): every returned block's tag is checked. -/
def Dev.targetRead (d : Dev) (slice port sq : Nat) (cid : BitVec 16) (unit : Nat) (x : ExtentData) : Dev :=
  let k := ctrlKey slice port
  match d.readCmd k sq cid with
  | none => d
  | some (m, n, segs, ps) => match d.vol n, ps.find? (fun p => p.unit == unit && p.needs && p.got.isNone) with
    | some v, some p =>
      let bs := (List.range 64).map (fun i =>
        if p.first ≤ i ∧ i < p.first + p.count then
          match x.blocks[i]? with
          | some b => match d.openBlock v (unit * 64 + i) p.entry.gen b with
            | some pt => (pt, false)
            | none => (b.1, true)
          | none => (zeroBlock, true)
        else (zeroBlock, false))
      let bad := (bs.filter (·.2)).length
      let d := d.modVol n (fun v => { v with tagFail := satAdd 16 v.tagFail bad })
      let m : NvCmd := { m with work := .read n segs (ps.map (fun q => if q.unit == unit then { q with got := some bs } else q)) }
      ((d.putRead k m).readDone k m).settleDetach
    | _, _ => d

/-- A target read of a Read fails or times out (R305). -/
def Dev.readTimeout (d : Dev) (k sq : Nat) (cid : BitVec 16) (unit : Nat) : Dev :=
  match d.readCmd k sq cid with
  | none => d
  | some (m, n, segs, ps) => match d.vol n, ps.find? (fun p => p.unit == unit && p.needs && p.got.isNone) with
    | some v, some p =>
      if p.retries < d.fld F.NVE_CTRL_RETRIES 0 then
        let d := d.modVol n (fun v => { v with retried := satAdd 16 v.retried 1 })
        let m : NvCmd := { m with work := .read n segs (ps.map (fun q => if q.unit == unit then { q with retries := q.retries + 1 } else q)) }
        (d.putRead k m).readTarget n v p
      else ((d.dropCmd k sq cid).nvDone k sq cid 0 nvPath m.lba m.nsid p.entry.tgt).settleDetach
    | _, _ => d

/-! ### Attaching (R294, R295) -/

/-- A key slot that a volume may take: of its slice, with the use, holding a key, not held. -/
def Dev.volKeyOk (d : Dev) (slice slot use : Nat) : Bool :=
  match d.key slot with
  | some k => k.owner == .slice slice && k.use == use && (k.state == .loaded || k.state == .locked) && !k.held
  | none => false

/-- A queue pair of a volume: standard RC toward an address handle (R290), with the retry, timer and depth values that Table 6.15
gives a collective queue pair (DESIGN CHOICE, log 75). -/
def Dev.volQp (d : Dev) (n slice : Nat) (a : Ah) : Qp :=
  d.newCtx ([(cDgid, a.dgid.toNat), (cDmac, a.dmac.toNat), (cVlan, a.vlan), (cDscp, a.dscp), (cPort, a.port), (cTc, a.dscp / 8),
    (cDstNode, 0xFFFF), (cPaths, 1), (cPmtu, 5), (cRtoMin, 64), (cRetry, 7), (cRnrRetry, 7), (cRnrTimer, 1), (cRdReq, 16), (cRdRsp, 16),
    (cSqLog2, 16), (cRqLog2, 16)].foldl (fun q e => q.put e.1 e.2) (Qp.of 0)) n slice 0 |>.put cState qsRts

/-- The queue pairs of a volume, one for the map store and one per target; none when QPNs run out. -/
def Dev.addVolQps (d : Dev) (slice : Nat) : List Ah → Option (List Nat × Dev)
  | [] => some ([], d)
  | a :: as => match d.freeQpn with
    | none => none
    | some n => match (d.addQp n (d.volQp n slice a)).addVolQps slice as with
      | some (ns, d) => some (n :: ns, d)
      | none => none

/-- Step 1 of R295. -/
def Dev.attachOk (d : Dev) (v : VolDesc) : Option Nat :=
  let s := d.slice v.slice
  if v.version ≠ 0x0100 ∨ !v.reservedOk ∨ v.nsid = 0 ∨ v.nsid > 64 ∨ v.units = 0 ∨ v.targets.length = 0 ∨ v.targets.length > 16 then
    some rsBadField
  else if s.state ≠ .active ∧ s.state ≠ .quiesced then some rsWrongState
  else if (d.volOf v.slice v.nsid).isSome ∨ !d.volKeyOk v.slice v.keyData 2 ∨ !d.volKeyOk v.slice v.keyTag 1 then some rsWrongState
  else if pagesFor (64 + 8 * v.units) + v.cachePages > d.sliceFreePages v.slice ∨
      d.qpCount v.slice + 1 + v.targets.length > s.qpQuota then some rsNoCapacity
  else none

/-- VOL_ATTACH (R295): the descriptor as it was read, and what the map store and the targets answer. -/
def Dev.volAttach (c : Cmd) (desc : Option VolDesc) (x : AttachData) (d : Dev) : Reply :=
  if !zeroFrom c 1 then .refuse d rsBadField
  else match desc with
    | none => .refuse d rsBadField
    | some v =>
      let mine := match c.mgrPort with
        | some p => d.manages p v.slice
        | none => false
      let handles := (v.mapAh :: v.targets.map (·.1)).filterMap (fun n => match tblGet d.skid.ahs n with
        | some a => if a.slice = v.slice then some a else none
        | none => none)
      if !mine then .refuse d rsNotPermitted
      else match d.attachOk v, tblFree d.nvm.vols 1024 with
        | some rs, _ => .refuse d rs
        | none, none => .refuse d rsNoCapacity
        | none, some n =>
          if handles.length ≠ 1 + v.targets.length then .refuse d rsBadField
          else if !x.reachable ∨ (x.owner ≠ 0 ∧ !v.force) then .refuse d rsWrongState
          else match (d.allocPages v.slice (256 + n) (pagesFor (64 + 8 * v.units) + v.cachePages)).bind
              (fun r => r.2.addVolQps v.slice handles) with
            | some (qps, d) =>
              let word := d.node + bits d.stamp.toNat 48 16 * 65536
              let d := d.emit (.target n (.swap v.mapAddr x.owner.toNat word))
              let d := [v.keyData, v.keyTag].foldl (fun d s => (d.refKey s true).modKey s (fun k => { k with held := true })) d
              let map := ((List.range v.units).zip x.map).filter (fun e => e.2 != blankMap)
              let vol : Volume := ⟨v, word, false, true, map, x.extents, [], 0, qps, none, 0, 0, 0, 0⟩
              let d := { d with nvm := { d.nvm with vols := tblPut d.nvm.vols n vol } }
              let d := (d.nvm.ctrls.filter (fun e => e.1 / 4 == v.slice && e.2.rdy)).foldl (fun d e => d.nvEvent e.1 2 0 4) d
              .ok d []
            | none => .refuse d rsNoCapacity

/-- VOL_DETACH: deferred while the cache drains and reads are under way (DESIGN CHOICE, log 45). -/
def Dev.volDetach (c : Cmd) (o : Owner) (d : Dev) : Reply :=
  if !zeroFrom c 1 ∨ c.w 0 ≥ 1024 then .refuse d rsBadField
  else match d.vol (c.w 0) with
    | none => .refuse d rsWrongState
    | some v =>
      let mine := match c.mgrPort with
        | some p => d.manages p v.desc.slice
        | none => false
      if !mine then .refuse d rsNotPermitted
      else if v.detach.isSome then ⟨d, stBusy, 0, []⟩
      else if d.volIdle (c.w 0) then .ok (d.detachVol (c.w 0)) []
      else .defer (d.modVol (c.w 0) (fun v => { v with detach := some o }))

/-! ### A reset of the slice -/

/-- A slice reset drops the controllers of the slice and the writes that have not passed step 6 (R278, R303). Its
volumes stay attached (Table 14.8) (DEDUCED, log 45). -/
def Dev.nvSliceReset (d : Dev) (s : Nat) : Dev :=
  Dev.settleDetach { d with nvm := { d.nvm with
      ctrls := d.nvm.ctrls.filter (fun e => e.1 / 4 != s)
      vols := tblMap d.nvm.vols (fun _ v => if v.desc.slice = s then { v with jobs := v.jobs.filter (fun j => j.ctrl == cordCtrl) } else v) } }

/-- Commands or writes of a slice's controllers are under way (R282). -/
def Dev.nvBusy (d : Dev) (s : Nat) : Bool :=
  d.nvm.ctrls.any (fun e => e.1 / 4 == s && (!e.2.cmds.isEmpty || e.2.sqs.any (fun q => q.2.arrived != q.2.head)))

/-- TARGET_OP_TIMEOUT (R305): of a read, named by controller, queue and command, or of a unit write. -/
def Dev.targetTimeout (d : Dev) (vol unit : Nat) (read : Option (Nat × Nat × BitVec 16)) : Dev :=
  match read with
  | some (k, sq, cid) => d.readTimeout k sq cid unit
  | none => d.opTimeout vol unit

end Sys2Proof.Machine
end

