-- ==== Sys2Proof/Machine/Cord.lean ====
section
/-! DEFINITION. Cord: checkpoints, their triggers, snapshot, drain and commit, and restore (10_checkpoint). -/

namespace Sys2Proof.Machine

/-! ### Reasons (Table 10.6) -/

def ckNoVolume : Nat := 1
def ckVolumeSmall : Nat := 2
def ckNoStaging : Nat := 3
def ckCutPassed : Nat := 4
def ckReset : Nat := 5
def ckFault : Nat := 6
def ckStall : Nat := 7
def ckAborted : Nat := 8
def ckNoValidSlot : Nat := 9
def ckPlanMissing : Nat := 10
def ckNodeMismatch : Nat := 11
def ckRegionMismatch : Nat := 12

/-- Bytes of a chunk (R324). -/
def chunkBytes : Nat := 65536

/-- Items counted without a number (DESIGN CHOICE, log 11): register writes of the CRD block that are discarded. -/
def itCrdDiscard : Nat := 4096 + 0x5C0

/-! ### The checkpoint volume and its records (R325, R326) -/

/-- Cord is available: the staging reserve holds the capture area (R312). -/
def Dev.cordAvail (d : Dev) : Bool := d.fld F.MEM_CAP_STAGING_GIB 0 ≥ 2

/-- The key slot of chunks and records. -/
def Dev.crdKey (d : Dev) : Nat := d.fld F.CRD_KEY_SLOT 0

/-- The checkpoint volume, attached and not FENCED. -/
def Dev.crdVol (d : Dev) : Option (Nat × Volume) :=
  if !d.flag F.CRD_VOL_VALID 0 then none
  else match d.vol (d.fld F.CRD_VOL_VOL 0) with
    | some v => if v.fenced then none else some (d.fld F.CRD_VOL_VOL 0, v)
    | none => none

/-- Units of a slot (R325). -/
def Volume.slotUnits (v : Volume) : Nat := (v.desc.units - 1) / 2

/-- A commit record as read from its block, with its tag checked (Table 10.3). -/
def Dev.readRec (d : Dev) (slot : Nat) (b : List Byte) : CommitRec :=
  let ok := fieldAt b 0 2 == 0x0100 && fieldAt b 4 1 == slot && (fieldAt b 2 2 == 1 || fieldAt b 2 2 == 2) &&
    (d.openKey d.crdKey (fieldAt b 0x48 6) (bytesAt b 0 0x60) [] (bytesAt b 0x60 16)).isSome
  ⟨fieldAt b 2 2, fieldAt b 6 2, fieldAt b 8 8, ok, BitVec.ofNat 256 (unbe (bytesAt b 0x28 32)), fieldAt b 0x24 4, fieldAt b 0x10 8⟩

/-- A record is valid and COMMITTED. -/
def CommitRec.good (r : CommitRec) : Bool := r.tagOk && r.state == 2

/-- The record of a slot. -/
def Cord.rec? (c : Cord) (k : Nat) : Option CommitRec := tblGet c.recs k

/-- A slot holds a valid COMMITTED record. -/
def Cord.slotGood (c : Cord) (k : Nat) : Bool := (c.rec? k).any CommitRec.good

/-- The sequence number of a slot. -/
def Cord.seqOf (c : Cord) (k : Nat) : Nat := ((c.rec? k).map (·.seq)).getD 0

/-- The slot of the next checkpoint: the one that does not hold the highest valid COMMITTED number (R326). -/
def Cord.nextSlot (c : Cord) : Nat :=
  match c.slotGood 0, c.slotGood 1 with
  | true, true => if c.seqOf 0 ≥ c.seqOf 1 then 1 else 0
  | true, false => 1
  | _, _ => 0

/-- The highest valid COMMITTED sequence number (CRD_SEQ). -/
def Cord.bestSeq (c : Cord) : Nat := max (if c.slotGood 0 then c.seqOf 0 else 0) (if c.slotGood 1 then c.seqOf 1 else 0)

/-- CRD_VOL written: discarded while Cord works; with VALID 1 both records are read (R326). -/
def Dev.crdVolWrite (d : Dev) (val : W32) (rec0 rec1 : List Byte) : Dev :=
  if d.cord.phase ≠ .idle then d.count itCrdDiscard
  else
    let d := (d.setFld F.CRD_VOL_VOL 0 (bits val.toNat 0 10)).setFlag F.CRD_VOL_VALID 0 (val.getLsbD 10)
    if val.getLsbD 10 then
      { d with cord := { d.cord with recs := [(0, d.readRec 0 rec0), (1, d.readRec 1 rec1)] } }
    else d

/-- Write blocks of a unit of the checkpoint volume, as a write of Cord (R296). -/
def Dev.crdWrite (d : Dev) (n unit first : Nat) (bs : List Block) : Dev :=
  d.modVol n (fun v => { v with
    nextJob := v.nextJob + 1
    jobs := v.jobs ++ [{ num := v.nextJob, unit := unit, blocks := (List.range bs.length).zip bs |>.map (fun e => (first + e.1, e.2)),
                         invalidate := false, dealloc := false, done := true, ctrl := cordCtrl, sq := 0, cid := 0,
                         step := .queued, tgt := 0, ext := 0, retries := 0 }] })

/-- Cut bytes into blocks of 4,096 B. -/
def toBlocks (n : Nat) (bs : List Byte) : List Block := (List.range n).map (fun i => bytesAt bs (4096 * i) 4096)

/-- Chunks drained or restored (CRD_DONE), and those of the operation (CRD_TOTAL; R331). The directory counts in neither. -/
def Cord.bytesDone (c : Cord) : Nat := if c.restore.isSome then c.written else min c.written (c.capChunks + c.trkChunks + c.regChunks)

def Cord.bytesTotal (c : Cord) : Nat := match c.restore with
  | some r => ((c.rec? r.slot).map (·.chunks)).getD 0
  | none => if c.phase = .idle then c.bytesDone else c.capChunks + c.trkChunks + c.regChunks

/-! ### Regions (R311) -/

/-- The entries of a region table. -/
def readRegions (tbl : List Byte) (n : Nat) : List CkptRegion :=
  (List.range n).map (fun i =>
    let a := fieldAt tbl (32 * i) 4
    ⟨bits a 0 16, bits a 16 2, fieldAt tbl (32 * i + 4) 8, fieldAt tbl (32 * i + 12) 8,
      bits a 18 14 == 0 && zeroAt tbl (32 * i + 20) 12⟩)

/-- A region lies inside one window of its slice with the right, and its size is a multiple of 4 KiB. -/
def Dev.regionOk (d : Dev) (write : Bool) (r : CkptRegion) : Bool :=
  r.reservedOk && r.slice < 512 && r.bytes % 4096 == 0 && (d.slice r.slice).dmaOk r.port r.addr r.bytes write

/-- Chunks of a region. -/
def regionChunks (r : CkptRegion) : Nat := (r.bytes + chunkBytes - 1) / chunkBytes

/-- CKPT_REGIONS. -/
def Dev.ckptRegions (c : Cmd) (tbl : Option (List Byte)) (d : Dev) : Reply :=
  if !zeroFrom c 2 ∨ c.w 1 > 256 then .refuse d rsBadField
  else if !d.cordAvail then .refuse d ckNoStaging
  else if d.cord.phase ≠ .idle then .fail d stBusy 0
  else match tbl with
    | none => .refuse d rsBadField
    | some t =>
      let rs := readRegions t (c.w 1)
      if rs.all (d.regionOk false) && (rs.map (fun r => regionChunks r * chunkBytes)).sum ≤ (d.fld F.MEM_CAP_STAGING_GIB 0 - 2) * 2 ^ 30 then
        .ok { d with cord := { d.cord with regions := rs } } []
      else .refuse d ckNoStaging

/-! ### Starting a checkpoint (R313 to R317) -/

/-- The cut of a plan that no list names: its step when it is between steps, else the next one (R316). -/
def defaultCut (p : Plan) : W64 := if p.took then p.step + 1 else p.step

/-- Tracked granules: every 64 KiB of LPDDR5X that admitted plans hold (R322). -/
def Dev.trackRuns (d : Dev) : List Run :=
  runSort ((d.mill.plans.map (fun e => e.2.pages.map (fun r => (d.pageAddr r.1 / chunkBytes, r.2 * 32)))).flatten)

/-- Data chunks of the checkpoint; the directory is sealed as one more. -/
def Cord.dataChunks (c : Cord) : Nat := c.capChunks + c.trkChunks + c.regChunks

/-- Units of the chunk table. -/
def Cord.tableUnits (c : Cord) : Nat := (c.dataChunks * 32 + 262143) / 262144

/-- Units that a slot of so many chunks takes before its snapshot: directory, chunk table and data (R325; Example 10.1). -/
def slotNeeds (data : Nat) : Nat := 1 + (data * 32 + 262143) / 262144 + (data + 3) / 4

/-- Units of section 0x0009: none without poisoned chunks, else open within the slot (DESIGN CHOICE, log 29). -/
def Cord.poisonUnits (c : Cord) (v : Volume) : Nat :=
  if c.poisoned || !c.marks.isEmpty then Config.poisonUnits c.seq % (v.slotUnits - slotNeeds c.dataChunks + 1) else 0

/-- Chunks of the captures: at most the capture area of 2 GiB (R312), else open (DESIGN CHOICE, log 29). -/
def captured (seq : Nat) : Nat := Config.captureChunks seq % 32769

/-- Begin: every plan gets its cut, and those before it are held (R316). A plan that does not run is cut in the step
that it shows (R315). -/
def Dev.beginCkpt (d : Dev) (trigger holdMs report : Nat) (owner : Option Owner) (cuts : Tbl W64) : Dev :=
  let c := d.cord
  let seq := max (c.seqOf 0) (c.seqOf 1) + 1
  let runs := fun (p : Plan) => p.state == .running || p.state == .stopping
  let cutOf := fun k p => if runs p then tblGetD cuts k (defaultCut p) else p.step
  let plans := tblMap d.mill.plans (fun k p =>
    if runs p then
      { p with cut := some (cutOf k p), held := p.held || (p.step == cutOf k p && !p.took) }
    else p)
  let track := d.trackRuns
  let d : Dev := { d with mill := { d.mill with plans := plans } }
  { d with cord := { c with
    phase := .snapshot
    owner := owner
    report := report
    trigger := trigger
    cuts := d.mill.plans.map (fun e => (e.1, cutOf e.1 e.2))
    holding := true
    holdMs := holdMs
    releaseAsked := false
    notQuiesced := []
    poisoned := false
    slot := c.nextSlot
    seq := seq
    cutStamp := 0
    releaseStamp := 0
    snap := none
    capChunks := captured seq
    trkChunks := runsLen track
    regChunks := (c.regions.map regionChunks).sum
    chunkTab := []
    marks := []
    written := 0
    tracked := track
    pending := []
    buffers := []
    stalls := 0
    failed := false } }

/-- The volume is there and a slot of it holds the checkpoint; else the reason. -/
def Dev.volumeFits (d : Dev) : Option Nat :=
  match d.crdVol with
  | none => some ckNoVolume
  | some (_, v) =>
    let n := captured (max (d.cord.seqOf 0) (d.cord.seqOf 1) + 1) + runsLen d.trackRuns +
      (d.cord.regions.map regionChunks).sum
    if slotNeeds n > v.slotUnits then some ckVolumeSmall else none

/-- CKPT_START (R316); the cut list as it was read. -/
def Dev.ckptStart (c : Cmd) (list : Option (List Byte)) (o : Owner) (d : Dev) : Reply :=
  if !zeroFrom c 4 ∨ c.w 1 > 64 ∨ c.w 2 > 60000 then .refuse d rsBadField
  else if !d.cordAvail then .refuse d ckNoStaging
  else if d.cord.phase ≠ .idle then .fail d stBusy 0
  else match list with
    | none => .refuse d rsBadField
    | some b =>
      let es := (List.range (c.w 1)).map (fun i => (fieldAt b (16 * i) 8, BitVec.ofNat 64 (fieldAt b (16 * i + 8) 8)))
      let cuts : Tbl W64 := es.foldl (fun t e => tblPut t e.1 e.2) []
      if es.any (fun e => e.1 ≥ 64 || (d.plan e.1).isNone) then .refuse d rsBadField
      else match d.volumeFits with
        | some rs => .refuse d rs
        | none =>
          if d.mill.plans.any (fun e => match tblGet cuts e.1 with
              | some s => decide (e.2.step.toNat > s.toNat)
              | none => false) then .refuse d ckCutPassed
          else .defer (d.beginCkpt 1 (c.w 2) (c.w 3) (some o) cuts)

/-- The bit of a warning in CRD_STATUS.WARN, and its trigger code less 2 (Tables 10.2 and 10.3). -/
def warnBit : WarnKind → Nat
  | .ceRate => 0
  | .supply => 1
  | .fec => 2
  | .thermal => 3

/-- A warning whose threshold is 0 is disabled (Table 10.2). -/
def Dev.warnOn (d : Dev) : WarnKind → Bool
  | .ceRate => d.fld F.CRD_WARN_CE_RATE 0 != 0
  | .supply => true
  | .fec => d.fld F.CRD_WARN_FEC_EXP 0 != 0
  | .thermal => d.fld F.CRD_WARN_THERM 0 != 0

/-- Inside the quiet time after the last warning checkpoint (R314). -/
def Dev.quiet (d : Dev) : Bool :=
  match d.cord.lastWarn with
  | some t => d.clk - t < sTicks (10 * d.fld F.CRD_CTRL_QUIET 0)
  | none => false

/-- Start the checkpoint of a warning, if one can start. -/
def Dev.warnStart (d : Dev) (w : WarnKind) : Dev :=
  if d.flag F.CRD_CTRL_WARN_EN 0 && d.cordAvail && d.volumeFits.isNone then
    d.beginCkpt (2 + (warnBit w)) (min 60000 (d.fld F.CRD_CTRL_WARN_HOLD 0)) 0 none []
  else d

/-- A failure warning arises (R313, R314): it is recorded, and may start a checkpoint. In W2 and W3 it starts
nothing (R416). -/
def Dev.warning (d : Dev) (w : WarnKind) : Dev :=
  if !d.warnOn w then d
  else
    let d := d.fault 43 .corrected 10 (warnBit w) 0
    let d := d.setFld F.CRD_STATUS_WARN 0 (d.fld F.CRD_STATUS_WARN 0 ||| 2 ^ (warnBit w))
    if d.cord.phase ≠ .idle ∨ d.quiet ∨ d.pwr.state ≥ 2 then
      let d := d.setFlag F.CRD_STATUS_SUPPRESSED 0 true
      { d with cord := { d.cord with persisting := if d.cord.persisting.contains w then d.cord.persisting
                                                   else d.cord.persisting ++ [w] } }
    else d.warnStart w

/-- The quiet time ends (R314): a warning of those given whose condition persists starts a checkpoint. -/
def Dev.quietEnd (d : Dev) (still : List WarnKind) : Dev :=
  let ws := d.cord.persisting.filter (fun w => still.contains w)
  let d := { d with cord := { d.cord with lastWarn := none, persisting := ws } }
  match ws with
  | w :: _ => if d.cord.phase = .idle ∧ d.pwr.state < 2 then d.warnStart w else d
  | [] => d

/-! ### Snapshot (R318) -/

/-- A plan has reached its cut (DEDUCED, log 46). -/
def Plan.atCut (p : Plan) : Bool :=
  (p.state != .running && p.state != .stopping) || (match p.cut with
    | some c => p.held || decide (p.step.toNat > c.toNat) || (p.begun && p.step == c)
    | none => true)

/-- The queue pairs of a held plan have nothing unacknowledged, and no frame in Boom. -/
def Dev.planQuiet (d : Dev) (p : Plan) : Bool :=
  !p.held || p.qps.all (fun e => (match d.qp e.2 with
    | some q => q.sent.all (fun s => s.sacked)
    | none => true) && d.path.queues.all (fun b => b.2.frames.all (fun f => match f.pkt with
    | some (n, _) => n != e.2
    | none => true)))

/-- Registers of section 0x0006: BOM_QCFG, the class settings and the slice weights of Flume. -/
def pathSetting (key : Nat) : Bool :=
  let off := key / 4194304 / 64
  off == 0x500008 || (0x600010 ≤ off && off < 0x600030) || off == 0x600044

/-- The first granule of 64 B of each run of a plan's pages, with its number in the plan and the run's length. -/
def Dev.planGranules (d : Dev) : List Run → Nat → List (Nat × Nat × Nat)
  | [], _ => []
  | r :: rs, n => (d.pageAddr r.1 / 64, n, r.2 * 32768) :: Dev.planGranules d rs (n + r.2 * 32768)

/-- Poisoned granules of the plans: plan by position, and granule of its pages. -/
def Dev.planMarks (d : Dev) : List (Nat × Nat) :=
  (d.mill.plans.mapIdx (fun i e => ((d.planGranules e.2.pages 0).map (fun r =>
    (d.mem.poison.filter (fun g => r.1 ≤ g && g < r.1 + r.2.2)).map (fun g => (i, r.2.1 + g - r.1)))).flatten)).flatten

/-- What the snapshot captures (Table 10.1). Residuals of a plan cut in its step are recorded with EF_STALE set (R315).
The queue pairs of volumes are never restored (R321). -/
def Dev.capture (d : Dev) : Saved :=
  let volQps := (d.nvm.vols.map (fun e => e.2.qps)).flatten
  { plans := d.mill.plans.map (fun e => { e.2 with efStale := e.2.efStale || e.2.begun || e.2.applied }),
    cores := d.kerf.cores.filter (fun e => isSeq e.1),
    qps := (d.skid.qps.filter (fun e => !volQps.contains e.1)).map (fun e => (e.1, e.2.ctx)),
    settings := d.regs.filter (fun e => pathSetting e.1),
    regions := d.cord.regions.map (·.bytes)
    marks := d.planMarks }

/-- Take the captures, begin tracking, and read the accelerator regions (R318). -/
def Dev.takeSnapshot (d : Dev) (notQuiesced : List Nat) : Dev :=
  let d : Dev := { d with cord := { d.cord with
    snap := some d.capture
    notQuiesced := notQuiesced
    pending := d.cord.tracked
    marks := d.mem.poison.filter (fun g => inRuns d.cord.tracked (g / 1024)) } }
  d.cord.regions.foldl (fun d r =>
    if (d.slice r.slice).dmaOk r.port r.addr r.bytes false then d.readSlice r.slice r.port .buffer r.addr r.bytes
    else { d with cord := { d.cord with poisoned := true } }) d

/-- Every plan is at its cut. -/
def Dev.allCut (d : Dev) : Bool := d.mill.plans.all (fun e => e.2.atCut)

/-- Plans that are not quiesced. -/
def Dev.busyPlans (d : Dev) : List Nat := (d.mill.plans.filter (fun e => !d.planQuiet e.2)).map (·.1)

/-- The quiesce point (R318). -/
def Dev.quiescePoint (d : Dev) : Dev :=
  if d.cord.phase = .snapshot ∧ d.cord.snap.isNone ∧ d.allCut ∧ d.busyPlans = [] then d.takeSnapshot [] else d

/-- 10 ms passed without the quiesce point: the snapshot goes on (R318). -/
def Dev.quiesceExpiry (d : Dev) : Dev :=
  if d.cord.phase = .snapshot ∧ d.cord.snap.isNone ∧ d.allCut then d.takeSnapshot d.busyPlans else d

/-! ### The end of a checkpoint or restore (R330) -/

/-- The 64 B report (Table 10.5). -/
def Dev.ckptReport (d : Dev) (status reason bytes skipped : Nat) (restore : Bool) : List Byte :=
  let c := d.cord
  let ign := match c.restore with
    | some r => r.ignored.foldl (fun a e => a + 2 ^ e.1 + e.2 * 4 ^ (e.1 + 1)) 0
    | none => 0
  let slot := match c.restore with
    | some r => r.slot
    | none => c.slot
  le 2 0x0100 ++ le 2 status ++ le 2 reason ++ le 1 slot ++
  le 1 (b2n c.poisoned + 2 * b2n restore + 4 * b2n (!c.notQuiesced.isEmpty)) ++ le 8 c.seq ++ le 8 c.cutStamp.toNat ++
  le 8 c.releaseStamp.toNat ++ le 8 d.stamp.toNat ++ le 8 bytes ++ le 4 (min c.stalls (2 ^ 32 - 1)) ++ le 4 skipped ++ le 1 ign ++ zeros 7

/-- The hold ends: the plans run on (R319). -/
def Dev.releasePlans (d : Dev) : Dev :=
  if !d.cord.holding then d
  else
    let plans := tblMap d.mill.plans (fun _ p => { p with held := false, cut := none })
    let phase : Phase := if d.cord.phase = .held then .drain else d.cord.phase
    { d with mill := { d.mill with plans := plans }, cord := { d.cord with holding := false, releaseStamp := d.stamp, phase := phase } }

/-- Apply the waiting writes that buffers allow, in order (R322). -/
def Dev.drainWaiting (d : Dev) : Nat → Dev
  | 0 => d
  | n + 1 => match d.cord.waiting with
    | [] => d
    | w :: rest =>
      let gs := d.pendingIn w.addr (max 1 w.bytes.length)
      if d.cord.buffers.length + gs.length > 8192 then d
      else
        let d := { d with cord := { d.cord with waiting := rest } }.copyBefore gs
        { d with mem := d.mem.write w.addr w.bytes w.poison }.drainWaiting n

/-- Phase IDLE again: tracking ends, waiting writes proceed and deferred retires complete. A hold that outlasts the commit stays (R319). -/
def Dev.cordIdle (d : Dev) (keep : Bool) : Dev :=
  let d := if keep then d else d.releasePlans
  let n := d.cord.waiting.length
  let d := { d with cord := { d.cord with phase := .idle, tracked := [], pending := [], buffers := [], snap := none, owner := none,
                                          failed := false, restore := none } }
  let d := d.drainWaiting n
  d.mill.plans.foldl (fun d e => match e.2.retireOwner with
    | some o => (d.retire e.1).finish o stOk 0 []
    | none => d) d

/-- A checkpoint ends: report and final completion; unless it is committed its slot stays OPEN (R326). -/
def Dev.endCkpt (d : Dev) (status reason : Nat) : Dev :=
  let d := if status = stOk then d else d.releasePlans
  let rep := d.ckptReport status reason (min d.cord.written d.cord.dataChunks * chunkBytes) 0 false
  let d := match d.cord.owner with
    | some o => (d.report o d.cord.report rep).finish o status reason []
    | none => d
  let d := if status = stOk then d else d.setFlag F.CRD_STATUS_ABANDONED 0 true
  d.cordIdle (status == stOk)

/-! ### Drain and commit (R319, R322 to R326) -/

/-- Sections of the directory: four for each plan, the regions, and QP, BOOM, FW and POISON (Table 10.1; DEDUCED, log 46). -/
def Cord.sections (c : Cord) : Nat := 4 * c.cuts.length + 4 + c.regions.length

/-- The additional data of a chunk (R324), each number in whole bytes (DESIGN CHOICE, log 29). -/
def chunkAad (node seq slot index : Nat) : List Byte := le 2 node ++ le 8 seq ++ le 1 slot ++ le 4 index

/-- The commit record of the checkpoint (Table 10.3), sealed under the key slot. -/
def Dev.sealRec (d : Dev) (die : Die) (state : Nat) (commit : W64) : Option (List Byte) × Dev :=
  let c := d.cord
  let head := fun ctr => le 2 0x0100 ++ le 2 state ++ le 1 c.slot ++ le 1 c.trigger ++ le 2 d.node ++ le 8 c.seq ++
    le 8 c.cutStamp.toNat ++ le 8 commit.toNat ++ le 4 (520 + 32 * c.sections) ++ le 4 c.dataChunks ++ (le 32 c.dirDigest.toNat).reverse ++ le 6 ctr ++ zeros 18
  match d.sealCtr die d.crdKey head [] with
  | (some (ctr, _, tag), d) => (some (head ctr ++ tag ++ zeros 16), d)
  | (none, d) => (none, d)

/-- Write the commit record of the slot into its block. -/
def Dev.writeRec (d : Dev) (state : Nat) (commit : W64) : Dev :=
  match d.crdVol with
  | none => d.endCkpt stRefused ckFault
  | some (n, v) => match d.sealRec v.desc.die state commit with
    | (none, d) => d.endCkpt stExhausted 0
    | (some b, d) => (d.emit (.commitRecord d.cord.slot b)).crdWrite n 0 d.cord.slot [bytesAt b 0 4096]

/-- The accelerator regions are staged (R318): `poisoned` says whether bytes of them are missing. -/
def Dev.regionsDone (d : Dev) (poisoned : Bool) : Dev :=
  if d.cord.phase ≠ .snapshot ∨ d.cord.snap.isNone then d
  else
    let d := { d with cord := { d.cord with phase := .held, cutStamp := d.stamp, poisoned := d.cord.poisoned || poisoned } }
    let d := d.writeRec 1 0
    if d.cord.phase = .held ∧ (d.cord.releaseAsked ∨ d.cord.holdMs = 0) then d.releasePlans else d

/-- The hold's time ends (R319). -/
def Dev.holdEnd (d : Dev) : Dev :=
  if d.cord.phase = .held ∨ d.cord.phase = .drain ∨ d.cord.phase = .commit then d.releasePlans else d

/-- CKPT_RELEASE (R319). -/
def Dev.ckptRelease (c : Cmd) (d : Dev) : Reply :=
  if !zeroFrom c 0 then .refuse d rsBadField
  else if !d.cordAvail then .refuse d ckNoStaging
  else match d.cord.phase with
    | .snapshot => .ok { d with cord := { d.cord with releaseAsked := true } } []
    | .held => .ok d.releasePlans []
    | .drain => .ok d []
    | _ => .refuse d rsWrongState

/-- CKPT_ABORT (R330). -/
def Dev.ckptAbort (c : Cmd) (d : Dev) : Reply :=
  if !zeroFrom c 0 then .refuse d rsBadField
  else if !d.cordAvail then .refuse d ckNoStaging
  else match d.cord.phase with
    | .snapshot => .ok (d.endCkpt stRefused ckAborted) []
    | .held => .ok (d.endCkpt stRefused ckAborted) []
    | .drain => .ok (d.endCkpt stRefused ckAborted) []
    | _ => .refuse d rsWrongState

/-- The granule of the `i`-th tracked chunk. -/
def granuleAt : List Run → Nat → Option Nat
  | [], _ => none
  | (a, n) :: rs, i => if i < n then some (a + i) else granuleAt rs (i - n)

/-- First data unit of the slot (R325). -/
def Cord.dataUnit (c : Cord) (v : Volume) : Nat := 1 + c.slot * v.slotUnits + 1 + c.tableUnits + c.poisonUnits v

/-- Sections by type and index, in order of type (Table 10.1). -/
def Cord.sectionList (c : Cord) : List (Nat × Nat) :=
  ([1, 2, 3, 4].map (fun t => c.cuts.map (fun e => (t, e.1)))).flatten ++ [(5, 0), (6, 0)] ++
    (List.range c.regions.length).map (fun i => (7, i)) ++ [(8, 0), (9, 0)]

/-- The entry of a section: bytes and first chunk of a region are known, those of the others open (DESIGN CHOICE, log 29). -/
def Cord.sectionEntry (c : Cord) (k : Nat) (e : Nat × Nat) : List Byte :=
  let size := match e.1, c.regions[e.2]? with
    | 7, some r => le 8 r.bytes ++ le 8 (c.capChunks + c.trkChunks + ((c.regions.take e.2).map regionChunks).sum)
    | _, _ => (List.range 16).map (fun i => Config.chunkByte c.seq c.dataChunks (16 * k + i))
  le 2 e.1 ++ le 2 e.2 ++ zeros 4 ++ size ++ zeros 8

/-- The directory (R325), padded to a chunk. -/
def Dev.directory (d : Dev) (v : Volume) : List Byte :=
  let c := d.cord
  let head := le 2 0x0100 ++ le 2 c.sections ++ le 4 (c.dataUnit v) ++
    ((List.range 64).map (fun k => le 8 (tblGetD c.cuts k 0).toNat)).flatten
  bytesAt (head ++ (c.sectionList.mapIdx c.sectionEntry).flatten) 0 chunkBytes

/-- A data chunk holds poisoned granules; of a region with missing bytes it is open which (DESIGN CHOICE, log 29). -/
def Cord.chunkPoison (c : Cord) (j : Nat) : Bool :=
  if j < c.capChunks then false
  else if j < c.capChunks + c.trkChunks then match granuleAt c.tracked (j - c.capChunks) with
    | some g => c.marks.any (fun m => m / 1024 == g)
    | none => false
  else c.poisoned && (Config.chunkByte c.seq j chunkBytes).getLsbD 0

/-- The chunk table and section 0x0009 are written after the data (R323, R325). -/
def Dev.writeTable (d : Dev) (n : Nat) (v : Volume) : Dev :=
  let c := d.cord
  let tab := c.chunkTab.flatten
  let base := 1 + c.slot * v.slotUnits + 1
  let d := (List.range c.tableUnits).foldl (fun d u => d.crdWrite n (base + u) 0 (toBlocks 64 (bytesAt tab (262144 * u) 262144))) d
  (List.range (c.poisonUnits v)).foldl (fun d u => d.crdWrite n (base + c.tableUnits + u) 0
    (toBlocks 64 ((List.range 262144).map (fun i => Config.chunkByte c.seq (c.dataChunks + 1) (262144 * u + i))))) d

/-- The drain has read a granule: it is no longer pending, or its buffer is free (R322). -/
def Dev.granuleRead (d : Dev) (g : Nat) : Dev :=
  let d := { d with cord := { d.cord with pending := runDel d.cord.pending g, buffers := d.cord.buffers.filter (· != g) } }
  d.drainWaiting d.cord.waiting.length

/-- The next chunk is sealed and written (R323, R324): the data chunks, then, after the chunk table, the directory. -/
def Dev.drainChunk (d : Dev) : Dev :=
  let c := d.cord
  if (c.phase ≠ .held ∧ c.phase ≠ .drain) ∨ c.written > c.dataChunks then d
  else match d.crdVol with
    | none => d.endCkpt stRefused ckFault
    | some (n, v) =>
      let j := c.written
      let dir := j == c.dataChunks
      let d := if dir then d.writeTable n v else d
      let pt := if dir then d.directory v else (List.range chunkBytes).map (Config.chunkByte c.seq j)
      match d.seal v.desc.die d.crdKey (chunkAad d.node c.seq c.slot j) pt with
      | (none, d) => d.endCkpt stExhausted 0
      | (some (ctr, ct, tag), d) =>
        let unit := if dir then 1 + c.slot * v.slotUnits else c.dataUnit v + j / 4
        let d := d.crdWrite n unit (if dir then 0 else 16 * (j % 4)) (toBlocks 16 ct)
        let d := { d with cord := { d.cord with
          written := j + 1
          dirDigest := if dir then digest ct else c.dirDigest
          chunkTab := if dir then c.chunkTab else c.chunkTab ++ [le 6 ctr ++ le 1 (b2n (c.chunkPoison j)) ++ zeros 9 ++ tag] } }
        if c.capChunks ≤ j ∧ j < c.capChunks + c.trkChunks then
          match granuleAt c.tracked (j - c.capChunks) with
          | some g => d.granuleRead g
          | none => d
        else d

/-- No write of Cord is left in the volume. -/
def Dev.crdFlushed (d : Dev) : Bool :=
  match d.crdVol with
  | some (_, v) => v.jobs.all (fun j => j.ctrl != cordCtrl)
  | none => false

/-- A write waited 10 ms for a buffer: the checkpoint is abandoned (R322). -/
def Dev.stallLimit (d : Dev) : Dev :=
  if d.cord.waiting.isEmpty then d
  else (d.setFld F.CRD_STALL_MAX_US 0 (max (d.fld F.CRD_STALL_MAX_US 0) 10000)).endCkpt stRefused ckStall

/-- The Flush after the drain completes: the record is written COMMITTED (R323). -/
def Dev.drainFlushed (d : Dev) : Dev :=
  if (d.cord.phase = .held ∨ d.cord.phase = .drain) ∧ d.cord.written = d.cord.dataChunks + 1 ∧ d.crdFlushed then
    { d with cord := { d.cord with phase := .commit, tracked := [], pending := [], buffers := [] } }.writeRec 2 d.stamp
  else d

/-- The second Flush completes: the checkpoint is committed (R323). -/
def Dev.commitFlushed (d : Dev) : Dev :=
  if d.cord.phase = .commit ∧ d.crdFlushed then
    let c := d.cord
    let r : CommitRec := ⟨2, d.node, c.seq, true, c.dirDigest, c.dataChunks, c.cutStamp.toNat⟩
    let last := if c.trigger ≥ 2 then some d.clk else c.lastWarn
    { d with cord := { c with recs := tblPut c.recs c.slot r, lastWarn := last } }.endCkpt stOk 0
  else d

/-- The hold of a committed checkpoint ends (R319). -/
def Dev.lateRelease (d : Dev) : Dev := if d.cord.phase = .idle then d.releasePlans else d.holdEnd

/-! ### Restore (R327, R328) -/

/-- Zero what a failed restore may have written: the plans as at admission (R328). -/
def Dev.zeroPlans (d : Dev) : Dev :=
  let d : Dev := d.mill.plans.foldl (fun d e => d.zeroRuns e.2.pages) d
  { d with mill := { d.mill with plans := tblMap d.mill.plans (fun _ p => p.fresh) } }

/-- Why a slot is no candidate: 0 OPEN, 1 bad tag, 2 node mismatch; none for a candidate. -/
def Dev.notCandidate (d : Dev) (k : Nat) : Option Nat :=
  match d.cord.rec? k with
  | none => some 1
  | some r => if !r.tagOk then some 1 else if r.state ≠ 2 then some 0 else if r.node ≠ d.node then some 2 else none

/-- The candidate with the highest sequence number among the slots not tried. -/
def Dev.candidate (d : Dev) (tried : List Nat) : Option Nat :=
  let ks := [0, 1].filter (fun k => k ∉ tried && (d.notCandidate k).isNone)
  match ks with
  | [k] => some k
  | [_, _] => some (if d.cord.seqOf 0 ≥ d.cord.seqOf 1 then 0 else 1)
  | _ => none

/-- CKPT_RESTORE (R327): the region table and both records as they were read. -/
def Dev.ckptRestore (c : Cmd) (tbl : Option (List Byte)) (rec0 rec1 : List Byte) (o : Owner) (d : Dev) : Reply :=
  if !zeroFrom c 3 ∨ c.w 1 > 256 then .refuse d rsBadField
  else if !d.cordAvail then .refuse d ckNoStaging
  else if d.cord.phase ≠ .idle then .fail d stBusy 0
  else if d.pwr.state ≥ 2 ∨ d.mill.plans.any (fun e => e.2.state != .admitted) then .refuse d rsWrongState
  else match tbl, d.crdVol with
    | none, _ => .refuse d rsBadField
    | _, none => .refuse d ckNoVolume
    | some t, some _ =>
      let rs := readRegions t (c.w 1)
      if !rs.all (d.regionOk true) then .refuse d ckRegionMismatch
      else .defer { d with cord := { d.cord with
        recs := [(0, d.readRec 0 rec0), (1, d.readRec 1 rec1)]
        phase := .restore
        owner := some o
        report := c.w 2
        poisoned := false
        notQuiesced := []
        written := 0
        stalls := 0
        seq := 0
        cutStamp := 0
        releaseStamp := 0
        restore := some ⟨rs, 0, [], [], 0⟩ } }

/-- A restore ends: report and final completion. -/
def Dev.endRestore (d : Dev) (status reason skipped : Nat) : Dev :=
  let rep := d.ckptReport status reason (d.cord.written * chunkBytes) skipped true
  let d := match d.cord.owner with
    | some o => (d.report o d.cord.report rep).finish o status reason []
    | none => d
  d.cordIdle false

/-- A restore takes up a slot. -/
def Dev.restoreFrom (d : Dev) (k : Nat) (r : RestoreSt) : Dev :=
  { d with cord := { d.cord with
    written := 0
    seq := d.cord.seqOf k
    cutStamp := BitVec.ofNat 64 (((d.cord.rec? k).map (·.cut)).getD 0)
    restore := some { r with slot := k, tried := r.tried ++ [k], next := 0 } } }

/-- A restore that was accepted chooses its slot (R327): those that are no candidates are ignored and reported. Without a
candidate it ends: the records name another node, or the plans are zeroed (R328) (DEDUCED, log 46). -/
def Dev.restoreBegin (d : Dev) : Dev :=
  match d.cord.phase, d.cord.restore with
  | .restore, some r =>
    if !r.tried.isEmpty then d
    else
      let ign := [0, 1].filterMap (fun k => (d.notCandidate k).map (fun w => (k, w)))
      let d := if ign.isEmpty then d else d.setFlag F.CRD_STATUS_HALF_SLOT 0 true
      let r := { r with ignored := ign }
      let d := { d with cord := { d.cord with restore := some r } }
      match d.candidate [] with
      | some k => d.restoreFrom k r
      | none => if ign.any (fun e => e.2 = 2) then d.endRestore stRefused ckNodeMismatch 0
        else d.zeroPlans.endRestore stRefused ckNoValidSlot 0
  | _, _ => d

/-- A chunk or the directory fails: the other candidate is tried, or the restore ends (R327, R328). -/
def Dev.restoreFail (d : Dev) (r : RestoreSt) : Dev :=
  let ign := r.ignored ++ [(r.slot, 3)]
  let d := d.setFlag F.CRD_STATUS_HALF_SLOT 0 true
  match d.candidate r.tried with
  | some k => d.restoreFrom k { r with ignored := ign }
  | none =>
    let d := { d with cord := { d.cord with restore := some { r with ignored := ign } } }
    d.zeroPlans.endRestore stRefused ckNoValidSlot 0

/-- The admitted plan that a saved plan goes to: PLAN_ID, slice and digest (R327). -/
def Dev.planFor (d : Dev) (q : Plan) : Option Nat :=
  (d.mill.plans.find? (fun e => e.2.cfg.planId == q.cfg.planId && e.2.slice == q.slice && e.2.digest == q.digest)).map (·.1)

/-- A stream as the chunks give it. -/
def StreamSt.restored (s q : StreamSt) : StreamSt :=
  { s.clear with resid := q.resid, theta := q.theta, m := q.m, v := q.v, w := q.w, qfac := q.qfac, phat := q.phat, latches := [], signalled := [] }

/-- Load a saved plan into its admitted plan, and its cores; those of a plan cut in its step are set to the start of the step
(R320, R327). -/
def Dev.loadPlan (d : Dev) (sv : Saved) (q : Plan) : Dev :=
  match d.planFor q with
  | none => d
  | some slot =>
    let d := d.modPlan slot (fun p => { p with
      step := q.step
      begun := q.begun
      applied := q.applied
      skipped := q.skipped
      efStale := q.efStale
      lrMul := q.lrMul
      events := q.events
      started := q.started
      groups := (p.groups.zip q.groups).map (fun e => { e.1 with t := e.2.t })
      tables := q.tables
      streams := (p.streams.zip q.streams).map (fun e => e.1.restored e.2) })
    match d.plan slot with
    | none => d
    | some p => (List.range p.cores.length).foldl (fun d l =>
        if q.begun ∨ q.applied then d.loadCore slot p l (p.cores.getD l 0)
        else match p.cores[l]?, (q.cores[l]?).bind (fun c => tblGet sv.cores c) with
          | some c, some k => d.setCore c { k with exc := (d.core c).exc }
          | _, _ => d) d

/-- Recreate a tenant queue pair in ERR (R321); true when its context is skipped. -/
def Dev.loadQp (d : Dev) (n : Nat) (ctx : BitVec 2048) : Bool × Dev :=
  let q := (Qp.of ctx).put cState qsErr
  if q.isColl then (false, d)
  else if (d.slice (q.f cSlice)).state ≠ .active ∨ (d.qp n).isSome then (true, d)
  else (false, d.addQp n q)

/-- The marks of section 0x0009 are set again (Table 10.1). -/
def Dev.setMarks (d : Dev) (sv : Saved) : Dev :=
  sv.marks.foldl (fun d m => match (sv.plans[m.1]?).bind d.planFor with
    | some slot => match d.plan slot with
      | some p => match (d.planGranules p.pages 0).find? (fun r => r.2.1 ≤ m.2 && m.2 < r.2.1 + r.2.2) with
        | some r => { d with mem := { d.mem with poison := markIns d.mem.poison (r.1 + m.2 - r.2.1) } }
        | none => d
      | none => d
    | none => d) d

/-- One slot has been verified in full: apply it (R327). -/
def Dev.applyRestore (d : Dev) (sv : Saved) : Dev :=
  let d := sv.plans.foldl (fun d q => d.loadPlan sv q) d
  let r : Nat × Dev := sv.qps.foldl (fun a e =>
    let s := a.2.loadQp e.1 e.2
    (a.1 + b2n s.1, s.2)) (0, d)
  let d : Dev := { r.2 with regs := sv.settings.foldl (fun t e => if pathSetting e.1 then tblPut t e.1 e.2 else t) r.2.regs }
  (d.setMarks sv).endRestore stOk 0 r.1

/-- The next chunk of the slot is read (R327): first the directory, then every chunk from 0 on. `dest` is the region and
offset that the directory gives a chunk of section 0x0007, and `sv` what the chunks hold (DESIGN CHOICE, log 29). -/
def Dev.restoreChunk (d : Dev) (ct : List Byte) (ctr : Nat) (tag : List Byte) (dest : Option (Nat × Nat)) (sv : Saved) : Dev :=
  match d.cord.phase, d.cord.restore with
  | .restore, some r => match d.cord.rec? r.slot with
    | none => d
    | some rc =>
      let ix := if r.next = 0 then rc.chunks else r.next - 1
      match d.openKey d.crdKey ctr (chunkAad rc.node rc.seq r.slot ix) ct tag with
      | none => d.restoreFail r
      | some pt =>
        if r.next = 0 ∧ digest ct ≠ rc.dirDigest then d.restoreFail r
        else if r.next = 0 ∧ sv.plans.any (fun q => (d.planFor q).isNone) then d.endRestore stRefused ckPlanMissing 0
        else if r.next = 0 ∧ sv.regions ≠ r.regions.map (·.bytes) then d.endRestore stRefused ckRegionMismatch 0
        else
          let d := match dest.bind (fun e => (r.regions[e.1]?).map (fun g => (g, e.2))) with
            | some (g, off) => d.dmaSlice g.slice g.port (g.addr + off) (pt.take (g.bytes - off)) [] false
            | none => d
          let d := { d with cord := { d.cord with written := r.next, restore := some { r with next := r.next + 1 } } }
          if r.next ≥ rc.chunks then d.applyRestore sv else d
  | _, _ => d

/-- What Cord does ends before its time: a checkpoint with its slot OPEN, a restore with the plans zeroed
(R326, R328) (DESIGN CHOICE, log 46). -/
def Dev.cordEnd (d : Dev) (reason : Nat) : Dev :=
  if d.cord.phase = .restore then d.zeroPlans.endRestore stRefused reason 0 else d.endCkpt stRefused reason

/-- A write of the drain failed, or a fatal fault stands: the checkpoint or restore ends (R326). -/
def Dev.cordCheck (d : Dev) : Dev :=
  if d.cord.failed ∧ d.cord.phase ≠ .idle then d.cordEnd ckFault else d

/-- A warm or cold reset ends what Cord does, with reason ABANDONED_RESET (R326). -/
def Dev.cordReset (d : Dev) : Dev :=
  let d := if d.cord.phase = .idle then d else d.cordEnd ckReset
  { d with cord := { d.cord with regions := [], recs := [], lastWarn := none, persisting := [], holding := false } }

end Sys2Proof.Machine
end

