-- ==== Sys2Proof/Machine/Init.lean ====
section
/-! DEFINITION. The device right after cold reset: every item at the value of the Reset columns and of Table 14.8. -/

namespace Sys2Proof.Machine

/-- Ring at cold reset (R38). The pull-up of the module holds PPS_IN high while nothing drives it (R43). PTP settings have no stated reset value: all 0 (DESIGN CHOICE, log 30). -/
def Ring.init : Ring :=
  { acc := 0, addend := 0x400000000, step := none, slew := 0, isSet := false, state := .unset, inBand := 0, skew := [],
    withheld := [], waking := [], owed := [], ppsIn := true, ppsDue := false, ppsOut := false, second := none,
    ptp := ⟨0, false, false, 0, 0, 0, 0, 0, 0⟩ }

/-- The fault collector at cold reset. -/
def Flt.init : Flt := { log := [], next := 0, seqs := [], pulse := false, pinHeld := false, latched := [], merge := [] }

/-- Tally at cold reset. -/
def Tally.init : Tally :=
  { counts := [], bank := [], snapStamp := 0, snapBusy := false, snapSeq := 0, pol := [], polLatch := [] }

/-- Telemetry at cold and warm reset. -/
def Telemetry.init : Telemetry := { endpoints := [], queue := [], dgramSeq := [], lost := [], stopped := false }

/-- The lease at cold reset: EPOCH 1; no Scaler acts as lead before stage APPLY elects it (R365, R368). -/
def Lease.init : Lease :=
  { epoch := 1, lead := .west, acting := [], conflict := false, cells := [], counted := 0 }

/-- The update agent at reset. -/
def Pldm.init : Pldm := { state := .idle, table := [], component := 0, applied := [] }

/-- The Scalers at cold reset, in stage RESET (Table 12.3), with the flash given. -/
def Scaler.init (a b : FlashCopy) : Scaler :=
  { rings := [], agreed := [], boot := .reset, lease := Lease.init, journal := [], flashA := a, flashB := b, tryB := none,
    inUse := none, accepted := none, staged := [], running := [], cores := [], activations := [], flash := none,
    pldm := Pldm.init, dirGen := 0 }

/-- The memories at cold reset, with what outlives it: banks to retire and rows already repaired (R172, R177). -/
def Mem.init (retire ppr : List (Nat × Nat)) : Mem :=
  { cells := [], poison := [], remap := [], suspects := [], hourStart := [], passLp := 0, posLp := 0, passSr := 0, posSr := 0,
    owned := [], dirty := [], retire := retire, ppr := ppr }

/-- The Mill at cold and warm reset. -/
def Mill.init : Mill := { plans := [], units := [], routes := [], admitBusy := false, waiting := [] }

/-- Skid at cold and warm reset. -/
def Skid.init : Skid :=
  { qps := [], cqs := [], mrs := [], mrTags := [], ahs := [], trig := [], chains := [], absent := [], hand := [], nextFence := 0, pages := [] }

/-- The packet path at cold and warm reset. -/
def Path.init : Path :=
  { table := [], frags := [], queues := [], leaked := [], minFree := [], slot := [], vclass := [], exc := [], policers := [],
    rawElig := [], notSampling := [], unstamped := [] }

/-- Bark at cold and warm reset; the DRBG draws on. -/
def Bark.init (drbgCtr : Nat) : Bark :=
  { ident := none, slots := [], sessions := [], nextSession := 1, internal := [], meas := [], conns := [], drbgCtr := drbgCtr,
    cipherFaults := [] }

/-- The cores at cold and warm reset: none holds anything. -/
def Kerf.init : Kerf := { cores := [], dumpSeq := [], saved := [] }

/-- The NVMe front ends at cold and warm reset. -/
def Nvme.init : Nvme := { ctrls := [], vols := [] }

/-- Cord at cold reset. -/
def Cord.init : Cord :=
  { phase := .idle, owner := none, report := 0, trigger := 0, cuts := [], holding := false, holdMs := 0, releaseAsked := false,
    notQuiesced := [], poisoned := false, slot := 0, seq := 0, cutStamp := 0, releaseStamp := 0, snap := none, capChunks := 0,
    trkChunks := 0, regChunks := 0, chunkTab := [], marks := [], written := 0, dirDigest := 0, tracked := [], pending := [], buffers := [], waiting := [],
    stalls := 0, failed := false, regions := [], recs := [], lastWarn := none, persisting := [], restore := none }

/-- Power at cold and warm reset: W0 (R412). -/
def Power.init : Power :=
  { state := 0, move := none, input := true, stages := true, trip := 0, dip := false, dipHold := false, dips := [], hot := false,
    mclk := [], cold := false }

/-- The lanes before stage APPLY of a cold reset: every group disabled (DESIGN CHOICE, log 30). -/
def Lanes.init : Lanes := { group := [3, 3, 3, 3], txInv := 0, rxInv := 0, macros := [], lost := [], up := [] }

/-- The pins as a working carrier drives them (DESIGN CHOICE, log 55). -/
def Pins.init : Pins := { mrstLow := false, wrstLow := false, perstLow := 0, xclkA := true, xclkB := true }

/-- The device after power-on, at the release of MRST_N: stage RESET of the first cold reset, with an empty
flash (DESIGN CHOICE, log 55). -/
def Dev.init : Dev :=
  { clk := 0, freeCtr := 0, regs := [], host := ⟨[], []⟩, ring := Ring.init, links := ⟨[], [], [], []⟩, flt := Flt.init,
    tally := Tally.init, tel := Telemetry.init, ports := [], slices := [], scaler := Scaler.init none none, mill := Mill.init,
    mem := Mem.init [] [], skid := Skid.init, path := Path.init, bark := Bark.init 0, kerf := Kerf.init, nvm := Nvme.init,
    cord := Cord.init, pwr := { Power.init with cold := true }, lanes := Lanes.init, pins := Pins.init, out := [] }

end Sys2Proof.Machine
end

