-- ==== Sys2Proof/Machine/State.lean ====
section
/-! DEFINITION. The state of the block: the device of the spec and the queue of the commands that wait. -/

namespace Sys2Proof.Machine

/-- The reasons the block stops with a fault. There are none: the spec gives every row of its table an effect, and a failure of
the device (R432) is itself an effect on the state. -/
inductive Fault where
  deriving DecidableEq, Repr

/-- The reasons a command is refused. -/
inductive Refusal where
  /-- Raised only by an arm of the dispatch whose command has no meaning yet; safe, since the run stops there. -/
  | notModelled (mnemonic : String)
  deriving DecidableEq, Repr

/-- The state: the whole device, and the waiting commands, the one to run first at the front. -/
structure State where
  /-- Everything the spec gives the device. -/
  dev : Dev
  /-- The commands and events that wait, first in, first out. -/
  pending : List Instr
  deriving DecidableEq, Repr

/-- The block right after a cold reset (R416): the device with a blank flash, and no command waiting. -/
def State.reset : State := { dev := Dev.init, pending := [] }

end Sys2Proof.Machine
end

