-- ==== Sys2Proof/Machine/Effect.lean ====
section
/-! DEFINITION. The form of a command's effect: a change of the device, the queue left as it is. -/

namespace Sys2Proof.Machine

/-- What a step or a command answers. -/
abbrev Result : Type := Host.Outcome State Fault Refusal

/-- The answer of a command whose effect on the device is `f`. -/
def State.onDev (s : State) (f : Dev → Dev) : Result := .next { s with dev := f s.dev }

end Sys2Proof.Machine
end

