-- ==== Sys2Proof/Machine/Endpoint.lean ====
section
/-! DEFINITION. The PCIe endpoint: read slots, completions, timeouts, Bus Master Enable, D3hot and ATS
(08_host_endpoint R260 to R276). Resets of functions and ports stand in Resets. -/

namespace Sys2Proof.Machine

/-- Give waiting requests the slots that are usable now, in order (R265). -/
def Dev.serveWaiting (d : Dev) (p : Nat) : Dev :=
  let w := (d.port p).waiting
  (w.foldl Dev.issueOne (d.modPort p (fun q => { q with waiting := [] })))

/-- An outstanding read that used an invalidated translation. -/
def Dev.usesPage (d : Dev) (e : FnKind × Option Nat × Nat) (u : SlotUse) : Bool :=
  match u with
  | .out r _ _ => r.kind == e.1 && d.pasidOf r.slice == e.2.1 && r.addr / 4096 == e.2.2
  | .quarantined _ => false

/-- The slots of the outstanding reads that used an invalidated translation. -/
def Dev.usersOf (d : Dev) (p : Nat) (e : FnKind × Option Nat × Nat) : List Nat :=
  ((d.port p).slots.filter (fun s => d.usesPage e s.2)).map (·.1)

/-- Reads of some slots have completed or were abandoned: the ATS invalidations that waited for no other are complete
(R262). -/
def Dev.settleInvals (d : Dev) (p : Nat) (gone : List Nat) : Dev :=
  let now := (d.port p).invals.map (fun e => (e.1, e.2.filter (fun k => !gone.contains k)))
  (now.filter (fun e => e.2.isEmpty)).foldl (fun d e => d.emit (.atsDone p e.1.1))
    (d.modPort p (fun q => { q with invals := now.filter (fun e => !e.2.isEmpty) }))

/-- Free a slot: what waited for it goes on. -/
def Dev.freeRead (d : Dev) (p slot : Nat) : Dev :=
  ((d.modPort p (fun q => { q with slots := tblDel q.slots slot })).settleInvals p [slot]).serveWaiting p

/-- The outstanding read that a completion's requester and tag name (R268): the tag carries the slot and, with 14 bits,
its generation. -/
def Dev.matchRead (d : Dev) (p : Nat) (kind : FnKind) (tag : Nat) : Option (Nat × ReadReq × Nat) :=
  ((d.port p).slots.filterMap (fun e => match e.2 with
    | .out r got t => if r.kind = kind ∧ t = tag then some (e.1, r, got) else none
    | .quarantined _ => none)).head?

/-- The fault source of a PCIe port. -/
def pcieSrc (p : Nat) : Nat := 20 + p % 4

/-- A completion that names no outstanding read (R268). -/
def Dev.unexpected (d : Dev) (p : Nat) (kind : FnKind) : Dev :=
  ((d.bumpFld (F.EPX_ERR_UNEXP p) 0 1).count (0x081 + 32 * p)).aerLog p kind .unexpectedCompletion

/-- A completion arrives (R268, R269): its data is delivered to the initiator of its read, or it is
discarded. -/
def Dev.pcieCompletion (d : Dev) (p : Nat) (kind : FnKind) (tag : Nat) (st : CplStatus) (bytes : Nat)
    (poisoned : Bool) : Dev :=
  if p ≥ 4 then d
  else match d.matchRead p kind tag with
    | none => d.unexpected p kind
    | some (slot, r, got) =>
      match st with
      | .success =>
        let n := min bytes (r.len - got)
        let d := if poisoned then d.poisonedTlp p kind else d
        let d := d.emit (.delivered { r with addr := r.addr + got, len := n } n poisoned)
        if got + n ≥ r.len then d.freeRead p slot
        else d.modPort p (fun q => { q with slots := tblPut q.slots slot (.out r (got + n) tag) })
      | _ =>
        let d := (d.bumpFld (F.EPX_ERR2_URCA p) 0 1).count (0x083 + 32 * p)
        let d := d.emit (.delivered { r with addr := r.addr + got, len := r.len - got } (r.len - got) true)
        (d.faultOpen (pcieSrc p) .contained p r.addr).freeRead p slot

/-- A read times out (R267). -/
def Dev.completionTimeout (d : Dev) (p slot : Nat) : Dev :=
  match tblGet (d.port p).slots slot with
  | some (.out r got _) =>
    let d := d.emit (.delivered { r with addr := r.addr + got, len := r.len - got } (r.len - got) true)
    let d := d.aerLog p r.kind .completionTimeout
    let d := (d.bumpFld (F.EPX_ERR_CTO p) 0 1).count (0x080 + 32 * p)
    let d := d.fault (pcieSrc p) .contained 4 p r.addr
    (d.modPort p (fun q => { q with slots := tblPut q.slots slot (.quarantined r.kind) })).settleInvals p [slot]
  | _ => d

/-- The quarantine of a slot ends (R267). -/
def Dev.quarantineEnd (d : Dev) (p slot : Nat) : Dev :=
  match tblGet (d.port p).slots slot with
  | some (.quarantined _) => d.freeRead p slot
  | _ => d

/-- The slots of a port with a read of a function. -/
def Port.readsOf (q : Port) (kind : FnKind) : List (Nat × ReadReq) :=
  q.slots.filterMap (fun e => match e.2 with
    | .out r _ _ => if r.kind = kind then some (e.1, r) else none
    | .quarantined _ => none)

/-- Abandon a function's outstanding and waiting reads (R273): the slots are quarantined, and the reads are
kept to be issued again. -/
def Dev.abandonReads (d : Dev) (p : Nat) (kind : FnKind) : Dev :=
  let rs := (d.port p).readsOf kind
  let w := (d.port p).waiting.filter (fun r => r.kind = kind)
  let slots := rs.foldl (fun t e => tblPut t e.1 (SlotUse.quarantined kind)) (d.port p).slots
  let d := d.modPort p (fun q =>
    { q with slots := slots, waiting := q.waiting.filter (fun r => r.kind ≠ kind) })
  (d.modPort p (fun q => q.modFn kind (fun f =>
    { f with abandoned := f.abandoned ++ rs.map (·.2), heldReads := f.heldReads ++ w }))).settleInvals p (rs.map (·.1))

/-- Resume a function that can issue requests again (R273): the abandoned reads, then what was held, then the
completions and entries of its command queues. -/
def Dev.resumeFn (d : Dev) (p : Nat) (kind : FnKind) : Dev :=
  if !d.canIssue p kind then d
  else
    let f := (d.port p).fn kind
    let d := d.modPort p (fun q => q.modFn kind (fun f =>
      { f with wasReset := false, abandoned := [], heldReads := [], heldWrites := [] }))
    let d := f.heldWrites.foldl Dev.dma ((f.abandoned ++ f.heldReads).foldl Dev.issue d)
    let go := fun (d : Dev) (i : Issuer) => (d.releaseHeld i 4096).pump i 4096
    let d := if kind = .pf0 then go d (.pf0 p) else d
    (d.slices.filter (fun e => e.2.home = p ∧ e.2.kind = kind)).foldl
      (fun d e => go d (.page e.1)) d

/-- Bus Master Enable of a function is cleared (R273). -/
def Dev.bmeClear (d : Dev) (p : Nat) (kind : FnKind) : Dev :=
  if p ≥ 4 then d
  else (d.modPort p (fun q => q.modFn kind (fun f => { f with bme := false }))).abandonReads p kind

/-- Bus Master Enable of a function is set (R273). -/
def Dev.bmeSet (d : Dev) (p : Nat) (kind : FnKind) : Dev :=
  if p ≥ 4 then d
  else (d.modPort p (fun q => q.modFn kind (fun f => { f with bme := true }))).resumeFn p kind

/-- A function enters D3hot (R252): as with Bus Master Enable at 0. -/
def Dev.d3Entry (d : Dev) (p : Nat) (kind : FnKind) : Dev :=
  if p ≥ 4 ∨ ((d.port p).fn kind).d3Saved.isSome then d
  else (d.modPort p (fun q => q.modFn kind (fun f => { f with d3Saved := some f.bme }))).abandonReads p kind

/-- A function returns to D0 (R252): its earlier Bus Master Enable value is back. -/
def Dev.d3Exit (d : Dev) (p : Nat) (kind : FnKind) : Dev :=
  match ((d.port p).fn kind).d3Saved with
  | some b => (d.modPort p (fun q => q.modFn kind (fun f => { f with bme := b, d3Saved := none }))).resumeFn p kind
  | none => d

/-- An ATS invalidation (R262). -/
def Dev.atsInvalidate (d : Dev) (p : Nat) (kind : FnKind) (pasid : Option Nat) (page : Nat) : Dev :=
  if p ≥ 4 then d
  else (d.modPort p (fun q => { q with
    atc := q.atc.filter (fun e => e != (kind, pasid, page)),
    invals := q.invals ++ [((kind, pasid, page), d.usersOf p (kind, pasid, page))] })).settleInvals p []

/-- The AER error of a link error. -/
def tlpAer : TlpError → Aer
  | .malformed => .malformed
  | .ecrc => .ecrc
  | .flit => .flitError

/-- A malformed TLP, ECRC or flit error (Table 8.9): the TLP is dropped. -/
def Dev.malformedTlp (d : Dev) (p : Nat) (kind : FnKind) (e : TlpError) : Dev :=
  if p ≥ 4 then d else (d.aerLog p kind (tlpAer e)).faultOpen (pcieSrc p) .contained p 0

/-- A configuration write that the device acts on (R262, R264 to R266). -/
def Dev.configWrite (d : Dev) (p : Nat) (kind : FnKind) (c : CfgWrite) : Dev :=
  if p ≥ 4 then d
  else (d.modPort p (fun q => q.modFn kind (fun f => match c with
    | .tagWidth b => { f with tagBits := if b = 14 then 14 else if b = 10 then 10 else 8 }
    | .ctoRange e => { f with ctoEnc := e }
    | .maxPayload n => { f with maxPayload := if n = 256 then 256 else if n = 512 then 512 else 128 }
    | .maxRead n => { f with maxRead := if 128 ≤ n ∧ n ≤ 4096 then n else 512 }
    | .relaxedOrdering b => { f with relaxed := b }
    | .ats b => { f with ats := b }))).serveWaiting p

/-- A width and a speed that a link can train to (Table 8.1). -/
def linkForm (speed width : Nat) : Bool := speed ≤ 6 && [1, 2, 4, 8, 16].contains width

/-- The link of a port comes up in a form of Table 8.1, in Flit mode at 64 and 128 GT/s, PERST_N being high (R276); in
BOOT_HOLD the ports stay in reset (R5). Held work of its functions resumes where Bus Master Enable is 1. -/
def Dev.pcieLinkUp (d : Dev) (p speed width : Nat) (flit : Bool) : Dev :=
  if p ≥ 4 ∨ d.scaler.boot = .hold ∨ !linkForm speed width then d
  else
    let d : Dev := { d with pins := { d.pins with perstLow := d.pins.perstLow &&& ~~~(1#4 <<< p) } }
    let d := d.modPort p (fun q => { q with up := true, speed := speed, width := width, flit := flit || 5 ≤ speed })
    (d.resumeFn p .pf0).resumeFn p .tenant

end Sys2Proof.Machine
end

