-- ==== Sys2Proof/Machine/Slices.lean ====
section
/-! DEFINITION. Slices: binding, quotas, windows, quiesce and reset, and the resets of functions and ports
(08_host_endpoint R273 to R282). -/

namespace Sys2Proof.Machine

def rsPasidConflict : Nat := 0x40
def rsBelowHeld : Nat := 0x41
def rsNoRoom : Nat := 0x42
def rsPrevailed : Nat := 0x43

/-- Words of a command beyond its parameters are 0, and the slice it names is managed (R277). -/
def Dev.sliceCmd (d : Dev) (c : Cmd) (words : Nat) : Option Nat :=
  if !zeroFrom c words then some rsBadField else if !d.mayName c then some rsNotPermitted else none

/-! ### Binding (R277) -/

/-- Slices bound to a function. -/
def Dev.boundFn (d : Dev) (port : Nat) (kind : FnKind) : List (Nat × Slice) :=
  d.slices.filter (fun e => e.2.state != .unbound && e.2.home == port && e.2.kind == kind)

/-- SLICE_BIND. -/
def Dev.sliceBind (c : Cmd) (d : Dev) : Reply :=
  let w := c.w 0
  let kind : FnKind := if bit w 0 then .tenant else .pf0
  let home := bits w 1 2
  let ports := BitVec.ofNat 4 (bits w 3 4)
  let en := bit w 7
  let pasid := bits w 8 20
  let base := bits (c.w 1) 0 11
  let count := bits (c.w 1) 11 12
  let clash := (d.boundFn home kind).any (fun e => e.2.pasidEn == en && (!en || e.2.pasid == pasid))
  if !zeroFrom c 2 ∨ w ≥ 2 ^ 28 ∨ c.w 1 ≥ 2 ^ 23 ∨ base + count > 2048 ∨ !ports.getLsbD home then .refuse d rsBadField
  else if c.mgrPort ≠ some home then .refuse d rsNotPermitted
  else if (d.slice c.slice).state ≠ .unbound then .refuse d rsWrongState
  else if clash then .refuse d rsPasidConflict
  else .ok (d.modSlice c.slice (fun _ => { Slice.init with
    state := .active, kind := kind, home := home, ports := ports, pasidEn := en, pasid := pasid, vecBase := base, vecCount := count })) []

/-! ### Quotas (R280) -/

/-- Boom cells that the bound queues of a slice hold on the die where they hold most: the quota counts per die. -/
def Dev.sliceCells (d : Dev) (s : Nat) : Nat := max (d.cellsOn .west s) (d.cellsOn .east s)

/-- The sum of a quota over the other slices. -/
def Dev.quotaOthers (d : Dev) (s : Nat) (f : Slice → Nat) : Nat := ((d.slices.filter (fun e => e.1 != s)).map (fun e => f e.2)).sum

/-- Contexts that the device can give to slices. -/
def Dev.contextCapacity (d : Dev) : Nat := if d.bsEn then d.fld F.SKD_BS_CTRL_COUNT 0 else 131072

/-- SLICE_QUOTA: the reason is the first of BAD_FIELD, BELOW_HELD and NO_CAPACITY that applies. -/
def Dev.sliceQuota (c : Cmd) (d : Dev) : Reply :=
  let s := c.slice
  let sl := d.slice s
  let qp := c.w 0
  let cells := bits (c.w 1) 0 18
  let share := bits (c.w 1) 18 7
  let pages := c.w 2
  let nvq := c.w 3
  let heldShare := ((d.mill.plans.filter (fun e => e.2.slice = s)).map (fun e => e.2.cfg.share)).sum
  match d.sliceCmd c 4 with
  | some rs => .refuse d rs
  | none =>
    if sl.state ≠ .active ∧ sl.state ≠ .quiesced then .refuse d rsWrongState
    else if qp > 16777216 ∨ c.w 1 ≥ 2 ^ 25 ∨ cells > 131072 ∨ share > 100 ∨ nvq > 4096 ∨ pages ≥ 2 ^ 32 then .refuse d rsBadField
    else if qp < d.qpCount s ∨ cells < d.sliceCells s ∨ share < heldShare ∨ pages < d.sliceHeldPages s ∨ nvq < d.nvQueues s then
      .refuse d rsBelowHeld
    else if (qp > sl.qpQuota ∧ qp + d.quotaOthers s (·.qpQuota) > d.contextCapacity) ∨
        (cells > sl.cellQuota ∧ cells + d.quotaOthers s (·.cellQuota) > 131072) ∨
        (share > sl.share ∧ share + d.quotaOthers s (·.share) > 100) ∨
        (pages > sl.pages ∧ pages + d.quotaOthers s (·.pages) > d.fld F.MEM_POOL_PAGES_PAGES 0) then .refuse d rsNoRoom
    else .ok (d.modSlice s (fun x => { x with qpQuota := qp, cellQuota := cells, share := share, pages := pages, nvq := nvq })) []

/-! ### Windows (Table 8.11) -/

/-- SLICE_WINDOW: in ACTIVE only a disabled window may be enabled, in QUIESCED any may change. -/
def Dev.sliceWindow (c : Cmd) (d : Dev) : Reply :=
  let sl := d.slice c.slice
  let w := c.w 0
  let ix := bits w 0 4
  let port := bits w 4 2
  let win : Window := ⟨bit w 8, port, bit w 6, bit w 7, c.w 1, c.w 2⟩
  let was : Bool := match tblGet sl.windows ix with
    | some x => x.en
    | none => false
  match d.sliceCmd c 3 with
  | some rs => .refuse d rs
  | none =>
    if sl.state ≠ .active ∧ sl.state ≠ .quiesced then .refuse d rsWrongState
    else if w ≥ 512 ∨ c.w 1 % 4096 ≠ 0 ∨ c.w 2 % 4096 ≠ 0 ∨ c.w 1 + c.w 2 > 2 ^ 64 ∨ !sl.ports.getLsbD port then .refuse d rsBadField
    else if sl.state = .active ∧ (was ∨ !win.en) then .refuse d rsWrongState
    else .ok (d.modSlice c.slice (fun x => { x with windows := tblPut x.windows ix win })) []

/-! ### Quiesce (R282) -/

/-- A plan stops at the end of its step, or at once between steps (R113). -/
def Dev.stopPlan (d : Dev) (slot : Nat) : Dev :=
  match d.plan slot with
  | some p =>
    if p.state ≠ .running then d
    else if p.between then
      let d := match p.startX with
        | some x => d.finish x.own stRefused rsStartFail []
        | none => d
      d.leaveRunning slot .admitted
    else d.modPlan slot (fun p => { p with state := .stopping })
  | none => d

/-- A running or stopping plan is abandoned as by PLAN_STOP with IMMEDIATE (R111, R113). -/
def Dev.abandonPlan (d : Dev) (slot : Nat) : Dev :=
  match d.plan slot with
  | some p =>
    if p.state ≠ .running ∧ p.state ≠ .stopping then d
    else
      let d := match p.startX with
        | some x => d.finish x.own stRefused rsStartFail []
        | none => d
      let d := if p.between then d else d.sendAborts slot d.node 4
      let d := (d.leaveRunning slot .admitted).modPlan slot (fun q => { q with efStale := q.efStale || !p.between, stopOwner := none })
      match p.stopOwner with
      | some o => d.finish o stOk 0 []
      | none => d
  | none => d

/-- Slots of the plans of a slice. -/
def Dev.plansOf (d : Dev) (s : Nat) : List Nat := (d.mill.plans.filter (fun e => e.2.slice = s)).map (·.1)

/-- SLICE_QUIESCE. -/
def Dev.sliceQuiesce (c : Cmd) (o : Owner) (d : Dev) : Reply :=
  match d.sliceCmd c 1 with
  | some rs => .refuse d rs
  | none =>
    if c.w 0 = 0 ∨ c.w 0 > 600000 then .refuse d rsBadField
    else if (d.slice c.slice).state ≠ .active then .refuse d rsWrongState
    else .defer ((d.plansOf c.slice).foldl Dev.stopPlan
      (d.modSlice c.slice (fun x => { x with state := .quiescing, forced := false, owner := some o })))

/-- A function holds or owes requests of a slice. -/
def Fn.asks (f : Fn) (s : Nat) : Bool :=
  f.abandoned.any (fun r => r.slice == some s) || f.heldReads.any (fun r => r.slice == some s) ||
  f.heldWrites.any (fun w => w.slice == some s)

/-- Work of the slice remains: a running plan, fetched work, an outstanding request, an unacknowledged send. -/
def Dev.sliceBusy (d : Dev) (s : Nat) : Bool :=
  d.mill.plans.any (fun e => e.2.slice == s && (e.2.state == .running || e.2.state == .stopping || !e.2.jobs.isEmpty)) ||
  d.nvBusy s ||
  d.skid.qps.any (fun e => e.2.f cSlice == s && (!e.2.sq.isEmpty || e.2.sent.any (fun x => !x.sacked))) ||
  d.ports.any (fun e => e.2.waiting.any (fun r => r.slice == some s) || (e.2.pf0.asks s || e.2.tenant.asks s) ||
    e.2.slots.any (fun x => match x.2 with
      | .out r _ _ => r.slice == some s
      | .quarantined _ => false))

/-- The slice is QUIESCED, and its command completes. -/
def Dev.quiesceEnd (d : Dev) (s : Nat) : Dev :=
  let o := (d.slice s).owner
  let d := d.modSlice s (fun x => { x with state := .quiesced, owner := none })
  match o with
  | some o => d.finish o stOk 0 []
  | none => d

/-- The slice enters QUIESCED once nothing of it is under way. -/
def Dev.sliceQuiesced (d : Dev) (s : Nat) : Dev :=
  if (d.slice s).state = .quiescing ∧ !d.sliceBusy s then d.quiesceEnd s else d

/-- The deadline passes: busy queue pairs enter ERR, stopping plans are abandoned. -/
def Dev.quiesceDeadline (d : Dev) (s : Nat) : Dev :=
  if (d.slice s).state ≠ .quiescing then d
  else
    let busy := (d.skid.qps.filter (fun e => e.2.f cSlice == s &&
      (!e.2.sq.isEmpty || e.2.sent.any (fun x => !x.sacked)))).map (·.1)
    let d := busy.foldl (fun d n => d.qpError n none) d
    let d := (d.plansOf s).foldl Dev.abandonPlan d
    (d.modSlice s (fun x => { x with forced := true })).quiesceEnd s

/-- SLICE_RESUME. -/
def Dev.sliceResume (c : Cmd) (d : Dev) : Reply :=
  match d.sliceCmd c 0 with
  | some rs => .refuse d rs
  | none =>
    if (d.slice c.slice).state ≠ .quiesced then .refuse d rsWrongState
    else .ok ((d.modSlice c.slice (fun x => { x with state := .active })).nvResumeSlice c.slice) []

/-! ### Reset of a slice (R278) -/

/-- A ring's registers return to reset values: what it owed is never written (R375). -/
def Dev.resetRing (d : Dev) (i : Issuer) : Dev :=
  d.setCmdRing i { CmdRing.init with gen := (d.cmdRing i).gen + 1 }

/-- Forget the agreements of an issuer. -/
def Dev.forgetAgreed (d : Dev) (i : Issuer) : Dev :=
  { d with scaler := { d.scaler with agreed := d.scaler.agreed.filter (fun e => e.1 / 16 != i.agreeKey) } }

/-- Destroy the queue pairs, completion queues, regions and address handles of a slice. Those of attached volumes stay
with them (Table 14.8). -/
def Dev.dropObjects (d : Dev) (s : Nat) : Dev :=
  let volQps := (d.nvm.vols.map (fun e => e.2.qps)).flatten
  let ns := (d.skid.qps.filter (fun e => e.2.f cSlice == s && !volQps.contains e.1)).map (·.1)
  let d := (ns.foldl Dev.dropQp d).freePages s 100
  { d with skid := { d.skid with
    cqs := d.skid.cqs.filter (fun e => e.2.slice != s)
    mrs := d.skid.mrs.filter (fun e => e.2.slice != s)
    ahs := d.skid.ahs.filter (fun e => e.2.slice != s)
    pages := d.skid.pages.filter (fun e => e.1 / 2 ^ 20 != s) } }

/-- Clear the latches and staged low words of a path: a manager function, or 16 + slice (R8). -/
def Dev.dropLatches (d : Dev) (k : Nat) : Dev :=
  { d with host := { latch := d.host.latch.filter (fun e => e.1 / 2 ^ 40 != k), staged := d.host.staged.filter (fun e => e.1 / 2 ^ 40 != k) } }

/-- The requests of a slice that no port has issued are gone with it (DEDUCED, log 55). -/
def Dev.dropRequests (d : Dev) (s : Nat) : Dev :=
  let clean := fun (f : Fn) => { f with
    abandoned := f.abandoned.filter (fun r => r.slice != some s)
    heldReads := f.heldReads.filter (fun r => r.slice != some s)
    heldWrites := f.heldWrites.filter (fun w => w.slice != some s) }
  { d with ports := d.ports.map (fun e => (e.1, { e.2 with
    pf0 := clean e.2.pf0
    tenant := clean e.2.tenant
    waiting := e.2.waiting.filter (fun r => r.slice != some s) })) }

/-- Reset a slice (R278): it is RESETTING while its objects go, then in the state given. -/
def Dev.resetSlice (d : Dev) (s : Nat) (st : SliceState) : Dev :=
  let d := d.modSlice s (fun x => { x with state := .resetting })
  let d := (d.plansOf s).foldl Dev.abandonPlan d
  let d := (d.plansOf s).foldl Dev.retire d
  let d := (((d.dropObjects s).nvSliceReset s).sliceKeysReset s).dropRequests s
  let d := d.resetRegs .slice (fun k inst => k == .s && inst == s)
  let d := (d.resetRing (.page s)).forgetAgreed (.page s)
  let d := d.dropLatches (16 + s)
  d.modSlice s (fun x => { x with state := st, forced := false, owner := none })

/-- SLICE_RESET. -/
def Dev.sliceReset (c : Cmd) (d : Dev) : Reply :=
  match d.sliceCmd c 0 with
  | some rs => .refuse d rs
  | none =>
    if (d.slice c.slice).state ≠ .quiesced then .refuse d rsWrongState else .ok (d.resetSlice c.slice .active) []

/-- SLICE_UNBIND: reset, then UNBOUND without quotas and windows. -/
def Dev.sliceUnbind (c : Cmd) (d : Dev) : Reply :=
  match d.sliceCmd c 0 with
  | some rs => .refuse d rs
  | none =>
    if (d.slice c.slice).state ≠ .quiesced then .refuse d rsWrongState
    else .ok ((d.resetSlice c.slice .unbound).modSlice c.slice (fun _ => Slice.init)) []

/-! ### Function-level and hot reset (R274 to R276) -/

/-- Reset the registers of PF0 of a port: its F-class fields, its rings and mailbox, its agreements, latched words. -/
def Dev.resetManager (d : Dev) (p : Nat) : Dev :=
  let d := d.resetRegs .function (fun k inst => k == .f && inst == p)
  let d := (((d.resetRing (.pf0 p)).resetRing (.mbox p)).forgetAgreed (.pf0 p))
  let d := d.dropLatches p
  { d with flt := { d.flt with latched := tblDel d.flt.latched p } }

/-- Reset the slices bound to a function; a quiesce that runs ends with RESET_PREVAILED, and the slice is ACTIVE and
empty (R276). -/
def Dev.resetBound (d : Dev) (p : Nat) (kind : FnKind) : List Owner × Dev :=
  (d.boundFn p kind).foldl (fun (a : List Owner × Dev) e =>
    (a.1 ++ (match e.2.owner with
      | some o => [o]
      | none => []), a.2.resetSlice e.1 .active)) ([], d)

/-- What a function keeps of its requests through its reset: those that `keep` names by slice and address. -/
def Fn.afterReset (f : Fn) (keep : Option Nat → Nat → Bool) : Fn :=
  { Fn.init with
    wasReset := true
    aer := f.aer
    abandoned := f.abandoned.filter (fun r => keep r.slice r.addr)
    heldReads := f.heldReads.filter (fun r => keep r.slice r.addr)
    heldWrites := f.heldWrites.filter (fun w => keep w.slice w.addr) }

/-- A request survives the reset of a function of port `p`: it belongs to a slice bound on another port (R276), or it is
a fetch or write-back of the backing store, which waits (R193). -/
def Dev.elsewhere (d : Dev) (p : Nat) (s : Option Nat) (addr : Nat) : Bool :=
  match s with
  | some s => (d.slice s).state != .unbound && (d.slice s).home != p
  | none => d.bsEn && d.bsPort == p && d.fld F.SKD_BS_BASE_ADDR 0 ≤ addr &&
      addr < d.fld F.SKD_BS_BASE_ADDR 0 + 320 * d.fld F.SKD_BS_CTRL_COUNT 0

/-- Function-level reset (R274). -/
def Dev.flr (d : Dev) (p : Nat) (kind : FnKind) : Dev :=
  if p ≥ 4 then d
  else
    let d := d.bmeClear p kind
    let r := d.resetBound p kind
    let d := r.2.modPort p (fun q => q.modFn kind (fun f => f.afterReset (d.elsewhere p)))
    let d := if kind = .pf0 then d.resetManager p else d
    r.1.foldl (fun d o => d.finish o stRefused rsPrevailed []) d

/-- A hot reset of a port (R275): both functions, without quarantine; the link is down until it trains again. In W4 it
has no effect (R424). -/
def Dev.hotReset (d : Dev) (p : Nat) (pin : Bool) : Dev :=
  if p ≥ 4 ∨ d.pwr.state = 4 then d
  else
    let d : Dev := if pin then { d with pins := { d.pins with perstLow := d.pins.perstLow ||| (1#4 <<< p) } } else d
    let d := (d.abandonReads p .pf0).abandonReads p .tenant
    let d := d.modPort p (fun q => { q with up := false, slots := [], waiting := [], atc := [], invals := [] })
    let r := d.resetBound p .pf0
    let s := r.2.resetBound p .tenant
    let d := s.2.modPort p (fun q => { q with
      pf0 := q.pf0.afterReset (d.elsewhere p), tenant := q.tenant.afterReset (d.elsewhere p) })
    let d := d.resetManager p
    let d := (d.setFlag (F.EPX_PORT_STATUS_HOTRST p) 0 true).bumpFld (F.EPX_PORT_STATUS_DOWNS p) 0 1
    (r.1 ++ s.1).foldl (fun d o => d.finish o stRefused rsPrevailed []) d

/-- A link goes down without hot reset (Table 8.9): Surprise Down, a contained fault, and the effects of a hot reset. -/
def Dev.linkDown (d : Dev) (p : Nat) : Dev :=
  if p ≥ 4 ∨ !(d.port p).up then d
  else ((d.aerLog p .pf0 .surpriseDown).fault (20 + p) .contained 3 p 0).hotReset p false

/-- XCLK_B is missing (R452): every PCIe link goes down, with a hot reset of each port. -/
def Dev.xclkBLoss (d : Dev) : Dev :=
  let d : Dev := { d with pins := { d.pins with xclkB := false } }
  (((d.hotReset 0 false).hotReset 1 false).hotReset 2 false).hotReset 3 false

end Sys2Proof.Machine
end

