-- ==== Sys2Proof/Machine/Resets.lean ====
section
/-! DEFINITION. Cold and warm reset: their triggers, and what each keeps (14_power_reset R412, R420, R423 to R426,
16_module_pins R453 to R455). -/

namespace Sys2Proof.Machine

/-! ### Cold reset -/

/-- The causes of PWR_RESET_CAUSE by bit. -/
def causeFields : List Fld :=
  [F.PWR_RESET_CAUSE_POWER_ON, F.PWR_RESET_CAUSE_MRST, F.PWR_RESET_CAUSE_UV_RESET, F.PWR_RESET_CAUSE_OV_TRIP,
   F.PWR_RESET_CAUSE_THERM_TRIP]

/-- Record the cause of a cold reset (Table 14.11); WARM is cleared. -/
def Dev.setCause (d : Dev) (cause : Nat) : Dev :=
  (causeFields.zip (List.range 5)).foldl (fun d e => d.setFlag e.1 0 (e.2 == cause)) d

/-- The device as a cold reset leaves it (Table 14.8): what lies outside it or is not rebuilt stays: the flash, rows
already repaired, banks to retire, pins and outputs (DEDUCED, log 52). -/
def Dev.cold (d : Dev) (cause : Nat) : Dev :=
  ({ Dev.init with
    clk := d.clk
    freeCtr := d.freeCtr
    scaler := Scaler.init d.scaler.flashA d.scaler.flashB
    mem := Mem.init d.mem.retire d.mem.ppr
    bark := Bark.init d.bark.drbgCtr
    pins := d.pins
    out := d.out } : Dev).setCause cause

/-- COLD_RESET: a level of MRST_N (R454), with the levels of the reference clocks and whether the restart condition of a
trip holds (Table 14.6). The reset begins when the pin falls and runs when it rises. -/
def Dev.coldReset (d : Dev) (low xclkA xclkB restart : Bool) : Dev :=
  if !d.pwr.input ∨ d.pwr.trip = 1 ∨ (d.pwr.trip ≠ 0 ∧ !restart) then
    { d with pins := { d.pins with mrstLow := low } }
  else if low then
    let cause := if d.pwr.trip = 2 then 3 else if d.pwr.trip = 3 then 4 else 1
    let d := d.cold cause
    { d with pins := { d.pins with mrstLow := true } }
  else { d with pins := { d.pins with mrstLow := false, xclkA := xclkA, xclkB := xclkB } }

/-- POWER_ON: input power is applied (R426). -/
def Dev.powerOn (d : Dev) : Dev := if d.pwr.input ∧ d.pwr.stages then d else d.cold 0

/-- A trip turns the power stages off (R420): everything is lost, and the supply monitor keeps the cause. -/
def Dev.tripOff (d : Dev) (trip : Nat) : Dev :=
  if !d.pwr.stages ∨ d.pwr.state = 4 then d
  else
    let e := d.cold (trip + 1)
    { e with pwr := { e.pwr with stages := false, trip := trip } }.emit .stagesOff

/-- TRIP_RESTART: after a UV_RESET trip the device restarts by cold reset (Table 14.6). -/
def Dev.tripRestart (d : Dev) : Dev := if d.pwr.trip = 1 then d.cold 2 else d

/-! ### Warm reset -/

/-- The memories after warm reset: stacked SRAM and the slice pool are zeroed, the reserves kept (Table 14.8); the pool
until its zeroing ends (R167). -/
def Dev.warmMem (d : Dev) : Mem :=
  let m := (List.range 4).foldl (fun m k => Mem.clear m (0x10000000000 + k * 0x20000000) 0x20000000) d.mem
  { m with owned := [], dirty := [] }

/-- The device as a warm reset leaves it (Table 14.8) (DEDUCED, log 52). -/
def Dev.warm (d : Dev) : Dev :=
  let d := (d.cordReset).dropCrossing (fun _ => true)
  let d := d.resetRegs .warm (fun _ _ => true)
  let keep := Scaler.init d.scaler.flashA d.scaler.flashB
  let e : Lease := { d.scaler.lease with epoch := d.scaler.lease.epoch + 1, lead := .west, acting := [], conflict := false }
  { d with
    host := ⟨[], []⟩
    ring := { d.ring with inBand := 0, second := none, ptp := Ring.init.ptp }
    flt := { d.flt with pinHeld := false, latched := [] }
    tally := { d.tally with snapBusy := false }
    tel := Telemetry.init
    slices := []
    scaler := { keep with boot := .imageRead, lease := e, dirGen := d.scaler.dirGen }
    mill := Mill.init
    mem := d.warmMem
    skid := Skid.init
    path := Path.init
    bark := { Bark.init d.bark.drbgCtr with ident := d.bark.ident, meas := d.bark.meas.filter (fun e => e.1 ≠ 8 ∧ e.1 < 16) }
    kerf := { Kerf.init with dumpSeq := d.kerf.dumpSeq }
    nvm := Nvme.init
    cord := { Cord.init with recs := [] }
    pwr := { Power.init with dips := d.pwr.dips }
    lanes := { d.lanes with up := [] } }

/-- A port takes its hot reset within a warm reset (Table 14.7): its functions and what they held are lost. -/
def Dev.warmPort (d : Dev) (p : Nat) : Dev :=
  ((d.modPort p (fun q => { Port.init with
    pf0 := { Fn.init with aer := q.pf0.aer }
    tenant := { Fn.init with aer := q.tenant.aer } })).setFlag (F.EPX_PORT_STATUS_HOTRST p) 0 true).bumpFld
      (F.EPX_PORT_STATUS_DOWNS p) 0 1

/-- PWRGOOD: every module rail is in regulation (Table 16.4); 0 in W4 and during a trip (R449). -/
def Dev.pwrGood (d : Dev) : Bool := d.pwr.input && d.pwr.stages && d.pwr.state != 4

/-- WARM_RESET: a level of WRST_N (R454). It has no effect while PWRGOOD is 0 and in W4; in BOOT_HOLD only a cold reset
boots again (Table 12.3); during a cold reset it is absorbed (R424). The stages run from its release (DEDUCED,
log 43). -/
def Dev.warmReset (d : Dev) (low : Bool) : Dev :=
  let d : Dev := { d with pins := { d.pins with wrstLow := low } }
  if !low ∨ !d.pwrGood ∨ d.pwr.cold ∨ d.pins.mrstLow ∨ d.scaler.boot = .hold then d
  else (List.range 4).foldl (fun d p => d.warmPort p) d.warm

end Sys2Proof.Machine
end

