-- ==== Sys2Proof/Machine/Power.lean ====
section
/-! DEFINITION. Power states, clamps and trips, and the power cap (14_power_reset R412 to R422). -/

namespace Sys2Proof.Machine

/-! ### Entry into a state (R413 to R416, Tables 14.3 and 14.8) -/

/-- A plan runs or is stopping. -/
def Dev.planActive (d : Dev) : Bool := d.mill.plans.any (fun e => e.2.state == .running || e.2.state == .stopping)

/-- A target is refused with WRONG_STATE (Table 14.3). -/
def Dev.moveRefused (d : Dev) (target : Nat) : Bool :=
  target ≥ 3 && (d.planActive || d.slices.any (fun e =>
    e.2.state == .active || e.2.state == .quiescing || e.2.state == .resetting))

/-- Nothing stands between the start of a transition and its end: plans have stopped for W2, the caches of every volume
are drained for W3 and W4. -/
def Dev.moveClear (d : Dev) (target : Nat) : Bool :=
  if target = 2 then !d.planActive else if target ≥ 3 then d.nvm.vols.all (fun e => e.2.jobs.isEmpty) else true

/-- Hold, or no longer hold, running plans before their next step (R113). -/
def Dev.holdPower (d : Dev) (on : Bool) : Dev :=
  { d with mill := { d.mill with plans := tblMap d.mill.plans (fun _ p => { p with heldPower := on && p.state == .running }) } }

/-- Compute logic is off: sequencer contexts and counters are lost; KRF_CORE_STATE.EXC stays (R16). -/
def Dev.dropSequencers (d : Dev) : Dev :=
  { d with kerf := { d.kerf with cores := tblMap d.kerf.cores (fun c k =>
      if isSeq c then { Core.init with exc := k.exc } else k) } }

/-- Sequencer images are loaded again from the system reserve. -/
def Dev.reloadSequencers (d : Dev) : Dev :=
  d.mill.plans.foldl (fun d e => (List.range e.2.cores.length).foldl (fun d l =>
    d.loadCore e.1 e.2 l (e.2.cores.getD l 0)) d) d

/-- A core whose context W3 saves: Rangers and stream cores. -/
def savedCore (c : Nat) : Bool := c < 0x80 || (0xC0 ≤ c && c < 0xC8)

/-- What an Ethernet port and the transport lose in W3: frames, trackers, miss chains, triggers, the retransmit store. -/
def Dev.dropTransport (d : Dev) : Dev :=
  { d with
    lanes := { d.lanes with up := [] }
    path := { d.path with
      frags := []
      queues := tblMap d.path.queues (fun _ q => { q with frames := [], wheel := none, tag := none })
      leaked := [] }
    skid := { d.skid with
      trig := []
      chains := []
      qps := tblMap d.skid.qps (fun _ q => { q with sent := [], held := [], msgs := [], reqs := [], fence := none, rnr := none }) }
    ring := { d.ring with state := if d.ring.state = .locked then .holdover else d.ring.state } }

/-- Stacked SRAM is off: plan contents are lost, factors are filled again as at admission, EF_STALE is set. -/
def Dev.dropStacked (d : Dev) : Dev :=
  let m := (List.range 4).foldl (fun m k => Mem.clear m (0x10000000000 + k * 0x20000000) 0x20000000) d.mem
  let m := (List.range 2).foldl (fun m k => Mem.clear m (0x20000000000 + k * 0x4000000) 0x4000000) m
  { d with mem := m, mill := { d.mill with plans := tblMap d.mill.plans (fun _ p => { p with
      efStale := true
      streams := (p.streams.zip p.cfg.streams).map (fun e => { e.1 with qfac := (p.cfg.factor e.2).1 }) }) } }

/-- Enter W3. -/
def Dev.enterW3 (d : Dev) : Dev :=
  let saved := d.kerf.cores.filter (fun e => savedCore e.1)
  let cores := tblMap d.kerf.cores (fun c k => if savedCore c then { Core.init with exc := k.exc } else k)
  let d := { d with kerf := { d.kerf with saved := saved, cores := cores } }
  d.dropTransport.dropStacked

/-- Leave W3: saved contexts run on. -/
def Dev.leaveW3 (d : Dev) : Dev :=
  let cores := d.kerf.saved.foldl (fun t e => tblPut t e.1 e.2) d.kerf.cores
  { d with kerf := { d.kerf with cores := cores, saved := [] } }

/-- The dies whose side of a crossing stops in a state (R31): the compute dies from W2 on. -/
def dieStops (state : Nat) : Node → Bool
  | .mill _ => 2 ≤ state
  | .io _ => 4 ≤ state

/-- The compute dies are powered up: their replicas give no stamp before a re-alignment (R40). -/
def Dev.wakeReplicas (d : Dev) : Dev := { d with ring := { d.ring with waking := [1, 2, 3, 4].foldl addOnce d.ring.waking } }

/-- The effects of a change of state. W4 leaves the supply monitor alone: what the device held is gone, and only a cold
reset starts it again (R425) (DEDUCED, log 51). -/
def Dev.enterState (d : Dev) (target : Nat) : Dev :=
  let from_ := d.pwr.state
  if target = 4 then
    let e := d.cold 1
    { e with pwr := { e.pwr with state := 4, stages := d.pwr.stages } }
  else
    let d := d.dropCrossing (dieStops target)
    let d := if from_ ≥ 3 ∧ target < 3 then d.leaveW3 else d
    let d := if from_ ≥ 2 ∧ target < 2 then d.wakeReplicas else d
    let d := if from_ ≥ 2 ∧ target < 2 then d.reloadSequencers else d
    let d := if from_ < 2 ∧ target ≥ 2 then d.dropSequencers else d
    let d := if target = 3 ∧ from_ < 3 then d.enterW3 else d
    let d := d.holdPower (target == 1)
    { d with pwr := { d.pwr with state := target, move := none } }

/-- A transition starts: W2 stops the running plans (Table 14.3). -/
def Dev.moveStart (d : Dev) (m : PowerMove) : Dev :=
  let d := { d with pwr := { d.pwr with move := some { m with waiting := false } } }
  if m.target = 2 then (d.mill.plans.map (·.1)).foldl Dev.stopPlan d else d

/-- A transition does not take place. -/
def Dev.moveFail (d : Dev) (m : PowerMove) : Dev :=
  let d := { d with pwr := { d.pwr with move := none } }
  match m.owner with
  | some o => d.finish o stRefused rsWrongState []
  | none => d

/-- POWER_STATE (R413, R414). `quick` says that the transition ends within 100 ms (DESIGN CHOICE, log 51). -/
def Dev.powerState (c : Cmd) (quick : Bool) (o : Owner) (d : Dev) : Reply :=
  let t := c.w 0
  if t > 4 ∨ !zeroFrom c 1 then .refuse d rsBadField
  else if t = d.pwr.state then .ok d []
  else if d.pwr.move.isSome then .fail d stBusy 0
  else if d.moveRefused t then .refuse d rsWrongState
  else if t ≥ 2 ∧ d.cord.phase ≠ .idle then .defer { d with pwr := { d.pwr with move := some ⟨t, some o, true⟩ } }
  else
    let d := d.moveStart ⟨t, some o, false⟩
    if quick && d.moveClear t then
      if t = 4 then .ok { d with pwr := { d.pwr with move := some ⟨4, none, false⟩ } } []
      else .ok (d.enterState t) []
    else .defer d

/-- Power is removed after the completion of a W4 command was written (R413). -/
def Dev.powerOff (d : Dev) : Dev :=
  match d.pwr.move with
  | some ⟨4, none, false⟩ => d.enterState 4
  | _ => d

/-- A transition that waited for Cord starts once Cord is IDLE: the refusal conditions are checked again (R414). -/
def Dev.powerKick (d : Dev) : Dev :=
  match d.pwr.move with
  | some m =>
    if !m.waiting ∨ d.cord.phase ≠ .idle then d
    else if d.moveRefused m.target then d.moveFail m
    else d.moveStart m
  | none => d

/-- POWER_TRANSITION_DONE: the state is reached, and the final completion written; before power is removed for
W4 (DESIGN CHOICE, log 53). -/
def Dev.moveDone (d : Dev) : Dev :=
  let d := d.powerKick
  match d.pwr.move with
  | some m =>
    if m.waiting ∨ !d.moveClear m.target then d
    else if d.moveRefused m.target then d.moveFail m
    else
      let done := fun (d : Dev) => match m.owner with
        | some o => d.finish o stOk 0 []
        | none => d
      if m.target = 4 then (done d).enterState 4 else done (d.enterState m.target)
  | none => d

/-- W2_STOP_TIMEOUT: 1 s into the entry the plans are stopped as with IMMEDIATE. -/
def Dev.w2Timeout (d : Dev) : Dev :=
  match d.pwr.move with
  | some m => if m.target = 2 ∧ !m.waiting then (d.mill.plans.map (·.1)).foldl Dev.abandonPlan d else d
  | none => d

/-! ### The cap and the Ranger loops (R421, R422) -/

/-- POWER_CAP. -/
def Dev.powerCap (c : Cmd) (d : Dev) : Reply :=
  if c.w 0 < 250 ∨ c.w 0 > d.fld F.PWR_LIMIT_CEILING 0 ∨ !zeroFrom c 1 then .refuse d rsBadField
  else .ok (d.setFld F.PWR_CTRL_CAP 0 (c.w 0)) []

/-- The clock of a compute die in MHz: 500 until its Rangers set it (DESIGN CHOICE, log 31). -/
def Dev.mclkOf (d : Dev) (die : Nat) : Nat := tblGetD d.pwr.mclk die 500

/-- The Rangers of a die run: both cores run an image and are up. -/
def Dev.rangersUp (d : Dev) (die : Nat) : Bool :=
  d.pwr.state < 3 && [0xC0 + 2 * die, 0xC1 + 2 * die].all (fun c => (d.core c).state == .running || (d.core c).state == .waitSync ||
    (d.core c).state == .waitIrq)

/-- UV_WARN in 0.1 V: below 440 acts as 440, above 500 as 500. -/
def Dev.uvWarn (d : Dev) : Nat := max 440 (min 500 (d.fld F.PWR_LIMIT_UV_WARN 0))

/-- An emergency is in force (R381). -/
def Dev.emergency (d : Dev) : Bool :=
  d.flag F.PWR_STATUS_DIP 0 || d.flag F.PWR_STATUS_THERM_CLAMP 0 || d.flag F.PWR_STATUS_POWER_CLAMP 0 || d.pwr.hot

/-- A signed byte. -/
def signed8 (n : Nat) : Int := if n % 256 ≥ 128 then (n % 256 : Int) - 256 else n % 256

/-- New samples (every 100 µs): voltage in 10 mV, current in 10 mA, power in W, the hottest junction of each die. -/
def Dev.samples (d : Dev) (volt cur power : Nat) (temps : List Nat) : Dev :=
  let d := (d.setFld F.PWR_INPUT_VOLT 0 volt).setFld F.PWR_INPUT_CURRENT 0 cur
  let d := (d.setFld F.PWR_METER_POWER 0 power).setFld F.PWR_METER_PEAK 0 (max power (d.fld F.PWR_METER_PEAK 0))
  let d := (d.setFlag F.PWR_STATUS_LOW_IN 0 (d.uvWarn * 10 ≤ volt && volt < 4800)).setFlag F.PWR_STATUS_HIGH_IN 0
    (6000 < volt && volt ≤ 6400)
  let d := ((List.range 6).zip temps).foldl (fun d e =>
    let old := d.fld (F.PWR_TEMP_MAX e.1) 0
    (d.setFld (F.PWR_TEMP_NOW e.1) 0 e.2).setFld (F.PWR_TEMP_MAX e.1) 0 (if signed8 e.2 > signed8 old then e.2 else old)) d
  { d with pwr := { d.pwr with hot := temps.any (fun t => signed8 t ≥ 95) } }

/-- The clock ceiling of the compute dies (LIMITS section). -/
def Dev.mclkMax (d : Dev) : Nat := ((d.scaler.accepted).map (·.mclkMax)).getD 500

/-- RANGER_LOOP (R421): the samples, the clocks that the Rangers chose for their dies, and whether the average has stayed
above the cap for 10 ms. A die whose Rangers are down keeps its clock (R422) (DESIGN CHOICE, log 51). -/
def Dev.rangerLoop (d : Dev) (volt cur power : Nat) (temps : List Nat) (mclk : List (Nat × Nat)) (overCap : Bool) : Dev :=
  if d.pwr.state = 4 ∨ !d.pwr.stages then d
  else
    let d := d.samples volt cur power temps
    let ok := mclk.filter (fun e => e.1 < 4 && e.2 % 25 == 0 && 500 ≤ e.2 && e.2 ≤ d.mclkMax && d.rangersUp e.1)
    let d : Dev := { d with pwr := { d.pwr with mclk := ok.foldl (fun t e => tblPut t e.1 e.2) d.pwr.mclk } }
    if overCap && power > d.fld F.PWR_CTRL_CAP 0 && [0, 1, 2, 3].all (fun k => d.mclkOf k == 500) &&
        !d.flag F.PWR_STATUS_CAP_UNMET 0 then
      (d.setFlag F.PWR_STATUS_CAP_UNMET 0 true).faultOpen 45 .corrected 0 0
    else d

/-! ### Dips, clamps and trips (R418 to R420) -/

/-- SUPPLY_DIP_START: the clamp, the record, the count; the third dip within 10 minutes and every further one warn. -/
def Dev.dipStart (d : Dev) : Dev :=
  if d.pwr.dip ∨ !d.pwr.stages ∨ d.pwr.state = 4 then d
  else
    let recent := d.pwr.dips.filter (fun t => d.clk - t < sTicks 600)
    let d : Dev := { d with pwr := { d.pwr with dip := true, dipHold := false, dips := d.clk :: recent } }
    let d := ((d.setFlag F.PWR_STATUS_DIP 0 true).bumpFld F.PWR_DIPS_TOTAL 0 1).faultOpen 45 .corrected 0 0
    if recent.length ≥ 2 then d.warning .supply else d

/-- SUPPLY_DIP_END: the hold of the clamp starts. -/
def Dev.dipEnd (d : Dev) : Dev :=
  if d.pwr.dip then { d with pwr := { d.pwr with dip := false, dipHold := true } } else d

/-- DIP_CLAMP_RELEASE: 50 ms after the dip ended. -/
def Dev.dipRelease (d : Dev) : Dev :=
  if d.pwr.dipHold ∧ !d.pwr.dip then
    { d with pwr := { d.pwr with dipHold := false } }.setFlag F.PWR_STATUS_DIP 0 false
  else d

/-- THERMAL_CLAMP_SET and POWER_CLAMP_SET: a clamp sets in, with a corrected-class record (Table 14.5). -/
def Dev.clampSet (d : Dev) (f : Fld) : Dev :=
  if d.flag f 0 ∨ !d.pwr.stages ∨ d.pwr.state = 4 then d else (d.setFlag f 0 true).faultOpen 45 .corrected 0 0

/-- A clamp releases. -/
def Dev.clampRelease (d : Dev) (f : Fld) : Dev := if d.flag f 0 then d.setFlag f 0 false else d

end Sys2Proof.Machine
end

