-- ==== Sys2Proof/Machine/ExecCheckpoint.lean ====
section
/-! DEFINITION. The meanings of the commands of checkpoints and restores. -/

namespace Sys2Proof.Machine

/-- CKPT_REGIONS (R311). -/
def execCkptRegions (c : Cmd) (tbl : Option (List Byte)) (s : State) : Result :=
  s.onDev (fun d => d.command c 0x0501 [.m] (fun _ d => Dev.ckptRegions c tbl d))

/-- CKPT_START (R316). -/
def execCkptStart (c : Cmd) (list : Option (List Byte)) (s : State) : Result :=
  s.onDev (fun d => (d.command c 0x0502 [.m] (fun o d => Dev.ckptStart c list o d)).cordCheck.powerKick)

/-- CKPT_RELEASE (R319). -/
def execCkptRelease (c : Cmd) (s : State) : Result :=
  s.onDev (fun d => (d.command c 0x0503 [.m] (fun _ d => Dev.ckptRelease c d)).cordCheck.powerKick)

/-- CKPT_ABORT (R330). -/
def execCkptAbort (c : Cmd) (s : State) : Result :=
  s.onDev (fun d => (d.command c 0x0504 [.m] (fun _ d => Dev.ckptAbort c d)).cordCheck.powerKick)

/-- CKPT_RESTORE (R327). -/
def execCkptRestore (c : Cmd) (tbl : Option (List Byte)) (rec0 rec1 : List Byte) (s : State) : Result :=
  s.onDev (fun d => (d.command c 0x0505 [.m] (fun o d => Dev.ckptRestore c tbl rec0 rec1 o d)).restoreBegin.cordCheck.powerKick)

/-- FAILURE_WARNING (R313). -/
def execFailureWarning (w : WarnKind) (s : State) : Result :=
  s.onDev (fun d => (d.warning w).cordCheck.powerKick)

/-- QUIET_TIME_END (R314). -/
def execQuietTimeEnd (still : List WarnKind) (s : State) : Result :=
  s.onDev (fun d => (d.quietEnd still).cordCheck.powerKick)

/-- QUIESCE_POINT (R318). -/
def execQuiescePoint (s : State) : Result :=
  s.onDev (fun d => d.quiescePoint.cordCheck.powerKick)

/-- QUIESCE_WAIT_EXPIRY (R318). -/
def execQuiesceWaitExpiry (s : State) : Result :=
  s.onDev (fun d => d.quiesceExpiry.cordCheck.powerKick)

/-- REGION_COPY_DONE (R318). -/
def execRegionCopyDone (poisoned : Bool) (s : State) : Result :=
  s.onDev (fun d => (d.regionsDone poisoned).cordCheck.powerKick)

/-- HOLD_END (R319). -/
def execHoldEnd (s : State) : Result :=
  s.onDev (fun d => d.lateRelease.cordCheck.powerKick)

/-- DRAIN_CHUNK_WRITTEN (R324). -/
def execDrainChunkWritten (s : State) : Result :=
  s.onDev (fun d => d.drainChunk.cordCheck.powerKick)

/-- CBW_STALL_LIMIT (R322). -/
def execCbwStallLimit (s : State) : Result :=
  s.onDev (fun d => d.stallLimit.cordCheck.powerKick)

/-- DRAIN_FLUSH_DONE (R323). -/
def execDrainFlushDone (s : State) : Result :=
  s.onDev (fun d => d.drainFlushed.cordCheck.powerKick)

/-- COMMIT_FLUSH_DONE (R323). -/
def execCommitFlushDone (s : State) : Result :=
  s.onDev (fun d => d.commitFlushed.cordCheck.powerKick)

/-- RESTORE_CHUNK_READ (R327). -/
def execRestoreChunkRead (ct : List Byte) (ctr : Nat) (tag : List Byte) (dest : Option (Nat × Nat)) (sv : Saved) (s : State) : Result :=
  s.onDev (fun d => (d.restoreChunk ct ctr tag dest sv).cordCheck.powerKick)

/-- CRD_VOL_WRITE (R326). -/
def execCrdVolWrite (val : W32) (rec0 rec1 : List Byte) (s : State) : Result :=
  s.onDev (fun d => d.crdVolWrite val rec0 rec1)

end Sys2Proof.Machine
end

