-- ==== Sys2Proof/Machine/Steps.lean ====
section
/-! DEFINITION. The phases of a step: intake, source quantization, the exchanges, the optimizer, the parameters, and
the start exchange (03_mill R89 to R95, 04_collectives R116 to R143, R154 to R159). -/

namespace Sys2Proof.Machine

/-! ### Streams -/

/-- Change the state of a stream. -/
def Dev.modStream (d : Dev) (slot k : Nat) (f : StreamSt → StreamSt) : Dev :=
  d.modPlan slot (fun p => { p with streams := modAt p.streams k f })

/-- Block size of a stream: of its transform, or 256 (R128). -/
def Plan.blockOf (p : Plan) (s : StreamCfg) : Nat :=
  match s.kind, p.cfg.xformOf s with
  | 0, some x => 2 ^ x.log2b
  | _, _ => 256

/-- The gradient stream whose optimizer shard supplies a parameter stream (R143). -/
def StreamCfg.gradOf (s : StreamCfg) : Nat := bits s.source.toNat 0 24

/-- Elements of a stream in the rotated domain: whole blocks. -/
def Plan.rotLen (p : Plan) (s : StreamCfg) : Nat :=
  if s.kind = 0 then (s.elements + p.blockOf s - 1) / p.blockOf s * p.blockOf s else s.elements

/-- The shard of a stream's output elements that a rank owns (R128, R143). -/
def Plan.outTen (p : Plan) (s : StreamCfg) : Ten :=
  if s.kind = 3 then match p.cfgOf s.gradOf with
    | some g => ⟨0, s.elements, p.blockOf g⟩
    | none => ⟨0, s.elements, 256⟩
  else ⟨0, s.elements, p.blockOf s⟩

/-- The plan runs its step. -/
def Plan.runs (p : Plan) : Bool := (p.state == .running || p.state == .stopping) && p.armed && p.startX.isNone

/-- Accelerators that contribute to a stream: SOURCE entries that are present (R123). -/
def Plan.contributors (p : Plan) (s : StreamCfg) : List Nat :=
  (List.range 8).filter (fun a => match p.cfg.sched.regions[bits s.source.toNat 0 16 + a]? with
    | some r => r.mask != 0
    | none => false)

/-- The random source of a rounding by element index (R65). -/
def Plan.rnd (p : Plan) (s : StreamCfg) (i : Nat) : Nat := srRandom p.cfg.seed p.step s.num i

/-- The format of a stream's reduced gradient: binary32 for an optimizer (R140), ACC for an all-reduce (R131). -/
def Plan.gradFmt (p : Plan) (k : Nat) (s : StreamCfg) : Nat := if p.cfg.groupKind k != 0 then 1 else s.acc

/-- Elements that are quantized together: a block, or a super-block of the device's shards in two-level scaling (R67, R70). -/
def Plan.unitOf (p : Plan) (s : StreamCfg) : Nat :=
  let f := Desc.of s.wireFmt
  if f.scaled ∧ f.scale then max 256 (p.blockOf s) else p.blockOf s

/-- First element and count of each unit of a stream's source quantization, inside the shards of R128. -/
def Plan.units (p : Plan) (s : StreamCfg) : List (Nat × Nat) :=
  let t : Ten := ⟨0, p.rotLen s, p.blockOf s⟩
  let u := p.unitOf s
  ((List.range p.cfg.np).map (fun r =>
    let sh := t.shard p.cfg.np r
    (List.range ((sh.2 + u - 1) / u)).map (fun i => (sh.1 + i * u, min u (sh.2 - i * u))))).flatten

/-! ### Arming a step (R111, R137, R154, R352) -/

/-- Start the step program of a logical core: k2 the top of local memory, k3 the step, k4 the slot; SATE is 1 (R347). Where
the core also runs an optimizer program, which took its local memory and segments, both are loaded again (DEDUCED, log 22). -/
def Dev.startProg (d : Dev) (slot : Nat) (p : Plan) (g : ProgCfg) : Dev :=
  let c := p.cores.getD g.lcore 0
  let shared := p.cfg.progs.any (fun x => x.kind == 1 && x.lcore == g.lcore)
  d.modCore c (fun k => { k with
    mem := if shared then imageWords g.words else k.mem
    segs := if shared then d.planSegs p else k.segs
    state := .running, pc := g.entry, job := .step slot, exl := false, pre := none, rep := false, sate := true
    regs := [(2, BitVec.ofNat 36 (localWords c)), (3, BitVec.ofNat 36 (p.step.toNat % 2 ^ 32)), (4, BitVec.ofNat 36 slot)] })

/-- STEP_ARM: between steps, of a running plan that neither Cord nor a power state holds. A stream that no
accelerator contributes to needs no signal. -/
def Dev.stepArm (d : Dev) (slot : Nat) : Dev :=
  match d.plan slot with
  | some p =>
    if p.state ≠ .running ∨ p.armed ∨ p.startX.isSome ∨ p.held ∨ p.heldPower then d
    else
      let d := d.clearPlanCtrs slot
      let progs := p.cfg.progs.filter (fun g => g.kind = 0)
      let d := d.modPlan slot (fun p => { p with
        armed := true, lrStep := p.lrMul, aborted := false, kappa := 0x3F800000, preDone := false, postDone := false,
        maxima := [], running := progs.map (·.lcore), groups := p.groups.map (fun g => { g with started := false, done := false }) })
      progs.foldl (fun d g => d.startProg slot p g) d
  | none => d

/-- The DEST regions of a stream, by the region entries that are present (R123). -/
def Plan.destRegs (p : Plan) (s : StreamCfg) : List Region :=
  (sub p.cfg.sched.regions (bits s.dest.toNat 0 16) 8).filter (fun r => r.mask != 0)

/-- The streams whose ready records let an accelerator signal stream `k` again (R118): the stream itself where its result is
written, or else the parameter streams of its optimizer shard (DEDUCED, log 64). -/
def Plan.recordsOf (p : Plan) (k : Nat) : List Nat :=
  (List.range p.cfg.streams.length).filter (fun j => match p.cfgOf j with
    | some s => p.cfg.writesDest j s && (j == k || (s.kind == 3 && s.gradOf == k))
    | none => false)

/-- An accelerator may signal a stream (R118): it has not signalled it since the last step ended, or the ready records that
it waits for are written to it. -/
def Plan.maySignal (p : Plan) (k a : Nat) : Bool :=
  let js := (p.recordsOf k).filter (fun j => match p.cfgOf j with
    | some s => (p.destRegs s).any (fun r => r.mask.getLsbD a)
    | none => false)
  !(p.stOf k).signalled.contains a || (!js.isEmpty && js.all (fun j => (p.stOf j).ready.contains a))

/-- PLAN_SIGNAL_WRITE (R117, R118): through the page of the plan's slice, an aligned 4 B write. -/
def Dev.planSignal (d : Dev) (via : Via) (slot size : Nat) (val : W32) (poisoned : Bool) : Dev :=
  match d.pageOk via size 4 poisoned, d.plan slot with
  | some s, some p =>
    let k := bits val.toNat 0 24
    let a := bits val.toNat 24 3
    match p.cfgOf k with
    | some c =>
      if p.slice ≠ s ∨ p.state ≠ .running ∨ val.toNat ≥ 2 ^ 27 ∨ c.kind > 2 ∨ a ∉ p.contributors c ∨ a ∈ (p.stOf k).latches ∨
         !p.maySignal k a then
        d.bellLost via
      else d.modStream slot k (fun s => { s with latches := s.latches ++ [a], signalled := addOnce s.signalled a })
    | none => d.bellLost via
  | _, _ => (d.bellLost via).notePoison via poisoned

/-! ### Intake (R117, R124) -/

/-- The address of a stream's part in an accelerator's region. -/
def Plan.partOf (p : Plan) (field : W64) (a : Nat) : Option (Nat × Nat) :=
  match p.cfg.sched.regions[bits field.toNat 0 16 + a]? with
  | some r => if r.mask = 0 then none else some (r.port, r.addr + bits field.toNat 16 40)
  | none => none

/-- INTAKE_START: the latches of all contributing accelerators are set; the parts are read. -/
def Dev.intakeStart (d : Dev) (slot k : Nat) : Dev :=
  match d.plan slot with
  | some p => match p.cfgOf k with
    | some c =>
      let st := p.stOf k
      if !p.runs ∨ (p.held ∧ !p.took) ∨ p.rerun = .gatherOnly ∨ c.kind > 2 ∨ st.phase ≠ 0 ∨ !(p.contributors c).all (fun a => st.latches.contains a) then d
      else
        let d := (d.modStream slot k (fun s => { s with phase := 1, ended := false })).modPlan slot (fun p => { p with begun := true })
        (p.contributors c).foldl (fun d a => match p.partOf c.source a with
          | some (port, addr) => d.readSlice p.slice port (.intake slot k a) addr ((Desc.of c.inFmt).bytes c.elements)
          | none => d) d
    | none => d
  | none => d

/-! ### Exchanges (R129 to R131, R95) -/

/-- What a stream exchanges now: the tensor, whether it is spread or summed, and its wire descriptor. -/
structure Ex where
  ten : Ten
  gather : Bool
  fmt : Desc
  deriving DecidableEq, Repr

/-- The descriptor of binary32 without scales, rounded RNE. -/
def descB32 : Desc := Desc.of 1

/-- The exchange that a stream is in. -/
def Plan.exOf (p : Plan) (s : StreamCfg) (st : StreamSt) : Ex :=
  if st.phase = 7 then ⟨p.outTen s, true, Desc.of (if s.kind = 3 then s.wireFmt else s.outFmt)⟩
  else if s.kind = 1 then
    let m := s.elements / max 1 s.shapeN
    let ten : Ten := if st.lowStep < 2 then ⟨0, m * s.rank, 256⟩ else ⟨m * s.rank, s.shapeN * s.rank, 256⟩
    if st.lowStep % 2 = 0 then ⟨ten, false, Desc.of s.wireFmt⟩ else ⟨ten, true, descB32⟩
  else ⟨⟨0, p.rotLen s, p.blockOf s⟩, false, Desc.of s.wireFmt⟩

/-- The progress of the exchange. -/
def Ex.prog (e : Ex) (st : StreamSt) : Prog := if e.gather then st.gat else st.red

/-- Set the progress of the exchange. -/
def Ex.setProg (e : Ex) (st : StreamSt) (g : Prog) : StreamSt := if e.gather then { st with gat := g } else { st with red := g }

/-- The level of the schedule, from 0, that a progress is at: REDUCE runs them up, GATHER down. -/
def Ex.levelOf (e : Ex) (n l : Nat) : Nat := if e.gather then n - 1 - l else l

/-- What the current round sends: destination coordinates and shards that are not empty. -/
def Plan.exSends (p : Plan) (e : Ex) (g : Prog) : List (Nat × List Nat) :=
  let ls := p.cfg.sched.levels
  let i := e.levelOf ls.length g.level
  let r := if e.gather then sendsGat ls p.cfg.np i g.round p.rank else sendsRed ls p.cfg.np i g.round p.rank
  r.map (fun x => (x.1, e.ten.full p.cfg.np x.2))

/-- What the current round waits for: sender's coordinate and shard, of shards that are not empty. -/
def Plan.exWaits (p : Plan) (e : Ex) (g : Prog) : List (Nat × Nat) :=
  let ls := p.cfg.sched.levels
  let i := e.levelOf ls.length g.level
  let r := if e.gather then waitsGat ls p.cfg.np i g.round p.rank else waitsRed ls p.cfg.np i g.round p.rank
  r.filter (fun x => (e.ten.shard p.cfg.np x.2).2 != 0)

/-- A shard of a summing exchange can be sent, and added to, once all of it has passed source quantization (R116, R130). -/
def Plan.shardReady (p : Plan) (s : StreamCfg) (st : StreamSt) (e : Ex) (q : Nat) : Bool :=
  let sh := e.ten.shard p.cfg.np q
  e.gather || s.kind == 1 || decide (sh.1 + sh.2 ≤ st.sourced)

/-- The body of a message of a summing exchange: the source-quantized elements at the first round, or the partial sum
requantized to be sent on (R130), with the marks of its elements. -/
def Plan.redBody (p : Plan) (s : StreamCfg) (st : StreamSt) (e : Ex) (lo n : Nat) : Marked × Events :=
  let els := sub st.acc lo n
  let marks : List Bool := if els.any (·.poison) then els.map (·.poison) else []
  if st.red.level = 0 ∧ st.red.round = 0 then
    let t := ((st.wire.filter (fun x => lo ≤ x.1 && x.1 < lo + n)).map (·.2)).foldl joinTensor (.plain [])
    (⟨t, marks⟩, Events.zero)
  else
    let q := quantize e.fmt (p.rnd s) (e.ten.base + lo) (els.map (fun x => x.val s.acc))
    (⟨q.1, marks⟩, q.2)

/-- The body of a message of a spreading exchange: the bytes as the owner converted them. -/
def StreamSt.gatBody (st : StreamSt) (lo n : Nat) : Marked :=
  let els := (sub st.outp lo n).map (fun x => x.getD El.zero)
  ⟨.plain (els.map (·.bits)), if els.any (·.poison) then els.map (·.poison) else []⟩

/-- Send one shard of the current round to the member of a coordinate. -/
def Dev.exMsg (d : Dev) (slot : Nat) (p : Plan) (s : StreamCfg) (st : StreamSt) (e : Ex) (i : Nat) (x : Nat × Nat) : Dev :=
  let sh := e.ten.shard p.cfg.np x.2
  let b := if e.gather then (st.gatBody sh.1 sh.2, Events.zero) else p.redBody s st e sh.1 sh.2
  (d.sendColl p (p.cfg.sched.peers.getD (rankAt p.cfg.sched.levels i p.rank x.1) 0) (if e.gather then 2 else 1) (i + 1) s.num
    (if e.gather then st.tscale else 0) (e.ten.base + sh.1) (.data b.1)).addEvents slot b.2

/-- What the current round still sends, as (coordinate, shard): the shards that are ready. -/
def Plan.exDue (p : Plan) (s : StreamCfg) (st : StreamSt) (e : Ex) (g : Prog) : List (Nat × Nat) :=
  (((p.exSends e g).map (fun x => x.2.map (fun q => (x.1, q)))).flatten).filter (fun x =>
    !g.sent.contains x && p.shardReady s st e x.2)

/-- Send the messages of the current round of a stream's exchange that are due. A level's send and the work request that
carries it are one here (R154, log 65). -/
def Dev.exSend (d : Dev) (slot k : Nat) : Dev :=
  match d.plan slot with
  | some p => match p.cfgOf k with
    | some s =>
      let st := p.stOf k
      let e := p.exOf s st
      let g := e.prog st
      let ls := p.cfg.sched.levels
      if g.level ≥ ls.length then d
      else
        let due := p.exDue s st e g
        due.foldl (fun d x => d.exMsg slot p s st e (e.levelOf ls.length g.level) x)
          (d.modStream slot k (fun st => e.setProg st { g with sent := g.sent ++ due }))
    | none => d
  | none => d

/-- Write received or own output elements from position `pos` on to every DEST region (R131). Unscaled elements of 4 or 6 bits
stand there as one bit string, as in any other tensor of the model (DESIGN CHOICE, log 27: R72 lays out scaled tensors only);
a shard begins at a whole byte. -/
def Dev.destWrite (d : Dev) (p : Plan) (s : StreamCfg) (pos : Nat) (els : List El) : Dev :=
  if p.serving then d
  else
    let f := Desc.of s.outFmt
    let bs := packTensor f (.plain (els.map (·.bits)))
    let off := bits s.dest.toNat 16 40 + f.bytes pos
    (p.destRegs s).foldl (fun d r =>
      let a := r.addr + off
      let marks := if els.any (·.poison) then (granulesOf a bs.length).map (fun g =>
          (List.range els.length).any (fun i => (els.getD i El.zero).poison &&
            (f.spans ⟨1, els.length⟩ i).any (fun x => (granulesOf (a + x.1) x.2).contains g))) else []
      d.dmaSlice p.slice r.port a bs marks true) d

/-- Add an arriving part to the accumulator, in arrival order (R130). -/
def addPart (s : StreamCfg) (e : Ex) (acc : List El) (lo : Nat) (n : Nat) (b : Marked) : List El × Events :=
  let parts := evBind (dequantBlocks s.acc e.fmt n b.data) (mapEv (fun v => encVal s.acc v))
  let els := (List.range n).map (fun i => elOf (parts.1.getD i 0) (b.poison.getD i false))
  let r := zipEv (fun a x => addEl s.acc a x) (sub acc lo n) els
  (putEls acc lo r.1, parts.2.add r.2)

/-- The elements of a spread part. -/
def gatEls (b : Marked) (n : Nat) : Option (List El) :=
  match b.data with
  | .plain es => if es.length = n then some ((List.range n).map (fun i => ⟨es.getD i 0, b.poison.getD i false⟩)) else none
  | .scaled _ => none

/-- Length of a tensor in elements. -/
def tensorLen : Tensor → Nat
  | .plain es => es.length
  | .scaled sbs => (sbs.map (fun sb => (sb.2.map (fun g => g.elems.length)).sum)).sum

/-- Take a message that the current round waits for. -/
def Dev.exTake (d : Dev) (slot k type : Nat) (m : CollMsg) : Option Dev :=
  match d.plan slot with
  | some p => match p.cfgOf k with
    | some s =>
      let st := p.stOf k
      let e := p.exOf s st
      let g := e.prog st
      let ls := p.cfg.sched.levels
      let i := e.levelOf ls.length g.level
      let r := p.cfg.sched.peers.findIdx (· == m.origin)
      let c := coord ls i r
      let w := (p.exWaits e g).find? (fun x => x.1 = c && e.ten.base + (e.ten.shard p.cfg.np x.2).1 == m.first &&
        !g.got.contains x && p.shardReady s st e x.2)
      if type ≠ (if e.gather then 2 else 1) ∨ g.level ≥ ls.length ∨ m.level ≠ i + 1 ∨ rankAt ls i p.rank c ≠ r then none
      else match w with
        | none => none
        | some x =>
          let sh := e.ten.shard p.cfg.np x.2
          let st' := e.setProg st { g with got := g.got ++ [x] }
          if e.gather then match gatEls m.body sh.2 with
            | some els =>
              let d := d.modStream slot k (fun _ => { st' with
                outp := putEls st'.outp sh.1 (els.map some), tscale := if st.phase = 7 then m.tscale else st'.tscale })
              some (if st.phase = 7 then d.destWrite p s sh.1 els else d)
            | none => none
          else if tensorLen m.body.data < sh.2 then none
          else
            let a := addPart s e st'.acc sh.1 sh.2 m.body
            some ((d.modStream slot k (fun _ => { st' with acc := a.1 })).addEvents slot a.2)
    | none => none
  | none => none

/-- GATHER of a stream has ended: its END begins (Table 4.1), and its counters are signalled, once for each accelerator
written (Table 4.15). -/
def Dev.gatherDone (d : Dev) (slot k : Nat) (p : Plan) (s : StreamCfg) : Dev :=
  let n := ((p.destRegs s).map (fun r => ones8 r.mask)).sum
  (List.range n).foldl (fun d _ => d.signalRole slot 5 0 k)
    (d.modStream slot k (fun st => { st with phase := 8, ended := false }))

/-- REDUCE of a stream ends: its reduced gradient, and SHARD_DONE of its group. -/
def Dev.reduceEnd (d : Dev) (slot k : Nat) (grad : List El) : Dev :=
  match d.plan slot with
  | some p =>
    let d := d.modStream slot k (fun st => { st with ended := true, phase := 3, grad := grad, wire := [] })
    let d := match p.cfg.groupOf k with
      | some (g, _) => d.signalRole slot 3 0 g
      | none => d
    let opt := (List.range p.cfg.streams.length).any (fun j => p.cfg.groupKind j != 0 && (match p.cfgOf j with
      | some s => s.kind ≤ 2
      | none => false))
    d.modPlan slot (fun p =>
      let all := (List.range p.cfg.streams.length).all (fun j => match p.cfgOf j with
        | some s => s.kind > 2 || ((p.stOf j).phase ≥ 3 && (p.stOf j).ended)
        | none => true)
      { p with applied := p.applied || (!opt && all) })
  | none => d

/-- The reduced shard of a stream after the inverse transform (R93, R131). -/
def Plan.gradShard (p : Plan) (k : Nat) (s : StreamCfg) (st : StreamSt) : List El × Events :=
  let b := p.blockOf s
  let out := (p.outTen s).shard p.cfg.np p.rank
  let f := p.gradFmt k s
  match s.kind, p.cfg.xformOf s with
  | 0, some x =>
    let rot := (Ten.mk 0 (p.rotLen s) b).shard p.cfg.np p.rank
    let r := mapEv (fun blk => inverseBlock x s.acc f blk) (chunksOf b (sub st.acc rot.1 rot.2))
    ((r.1.flatten).take out.2, r.2)
  | _, _ => mapEv (fun (e : El) => (let r := encVal f (e.val s.acc); (elOf r.1 e.poison, r.2))) (sub st.acc out.1 out.2)

/-- Binary32 elements in the format of a stream's reduced gradient: exact, since no ACC format is narrower. -/
def Plan.toGrad (p : Plan) (k : Nat) (s : StreamCfg) (els : List El) : List El :=
  els.map (fun e => elOf (encVal (p.gradFmt k s) (e.val 1)).1 e.poison)

/-- Rows of a matrix of `n` columns. -/
def rowsOf (n : Nat) (es : List El) : Rows := (chunksOf (max 1 n) es).map (fun r => r.map (fun e => e.bits.toNat))

/-- Begin the reduction of a factor: source quantization of the device's own part (R130). -/
def Dev.lowReduce (d : Dev) (slot k step : Nat) (vals : List Nat) (bad : Bool) : Dev :=
  match d.plan slot with
  | some p => match p.cfgOf k with
    | some s =>
      let st := p.stOf k
      let e := p.exOf s { st with lowStep := step }
      let q := mapEv (fun r =>
        let sh := e.ten.shard p.cfg.np r
        let w := quantize e.fmt (p.rnd s) (e.ten.base + sh.1) ((sub vals sh.1 sh.2).map (fun v => decodeCode 1 v))
        let own := evBind (dequantBlocks s.acc e.fmt sh.2 w.1) (mapEv (fun v => encVal s.acc v))
        (((sh.1, w.1), own.1), w.2.add own.2)) (e.ten.full p.cfg.np (List.range p.cfg.np))
      (d.modStream slot k (fun st => { st with
        phase := 3, ended := false, lowStep := step, wire := q.1.map (·.1)
        acc := ((q.1.map (·.2)).flatten).map (fun n => elOf n bad)
        lowBad := st.lowBad || bad, red := .start })).addEvents slot q.2
    | none => d
  | none => d

/-- The owner divides its shard of a factor by N and spreads it in binary32 (R95, steps 3 and 6). -/
def Dev.lowSpread (d : Dev) (slot k : Nat) : Dev :=
  match d.plan slot with
  | some p => match p.cfgOf k with
    | some s =>
      let st := p.stOf k
      let e := p.exOf s st
      let sh := e.ten.shard p.cfg.np p.rank
      let n := (encVal 1 (ofInt p.cfg.contrib)).1
      let own := mapEv (fun (x : El) =>
        let a := encVal 1 (x.val s.acc)
        let q := fDiv 1 a.1 n
        (elOf q.1 x.poison, a.2.add q.2)) (sub st.acc sh.1 sh.2)
      (d.modStream slot k (fun st => { st with
        lowStep := st.lowStep + 1, gat := .start
        outp := putEls (List.replicate e.ten.n none) sh.1 (own.1.map some) })).addEvents slot own.2
    | none => d
  | none => d

/-- A factor is known to every device: P is orthonormalised and Q = Mᵀ P̂ begins, or the step ends with the new
residuals and the device's shard of P̂ Qᵀ (R95, steps 4, 5, 7, 8). -/
def Dev.lowNext (d : Dev) (slot k : Nat) : Dev :=
  match d.plan slot with
  | some p => match p.cfgOf k with
    | some s =>
      let st := p.stOf k
      let els := st.outp.map (fun x => x.getD El.zero)
      let bad := st.lowBad || els.any (·.poison)
      let n := s.shapeN
      let m := s.elements / max 1 n
      let mrows := rowsOf n (padTo s.elements El.zero st.nodeSum)
      if st.lowStep = 1 then
        let g := gramSchmidt s.rank 0 (transpose s.rank (rowsOf s.rank els))
        let ph := (transpose m g.1)
        let q := matMul (transpose n mrows) g.1
        let d := (d.modStream slot k (fun st => { st with
          phat := (ph.flatten).map (BitVec.ofNat 32), lowBad := bad })).addEvents slot
            (g.2.add q.2)
        d.lowReduce slot k 2 q.1.flatten bad
      else
        let ph := (chunksOf (max 1 s.rank) st.phat).map (fun r => r.map (·.toNat))
        let qr := rowsOf s.rank els
        let prod := mapEv (fun r => lowRow r qr) ph
        let flat := prod.1.flatten
        let es := mapIxEv (fun i (x : El) =>
          let v := flat.getD i 0
          let r := fSub 1 x.bits.toNat v
          let c := encVal s.resid (decodeCode 1 r.1)
          (if x.poison then BitVec.ofNat 64 0 else BitVec.ofNat 64 c.1, r.2.add c.2)) 0 (padTo s.elements El.zero st.nodeSum)
        let sh := (p.outTen s).shard p.cfg.np p.rank
        let d := (d.modStream slot k (fun st => { st with
          qfac := els.map (fun x => BitVec.ofNat 32 x.bits.toNat), lowBad := bad
          residNew := if s.resid = 0xFF then [] else [(0, es.1)] })).addEvents slot
            (prod.2.add (if s.resid = 0xFF then Events.zero else es.2))
        d.reduceEnd slot k (p.toGrad k s ((sub flat sh.1 sh.2).map (fun v => elOf v bad)))
    | none => d
  | none => d

/-- The levels of a stream's exchange have ended. -/
def Dev.exEnd (d : Dev) (slot k : Nat) : Dev :=
  match d.plan slot with
  | some p => match p.cfgOf k with
    | some s =>
      let st := p.stOf k
      if st.phase = 7 then d.gatherDone slot k p s
      else if s.kind = 1 then
        if st.lowStep % 2 = 0 then d.lowSpread slot k else d.lowNext slot k
      else
        let g := p.gradShard k s st
        (d.reduceEnd slot k g.1).addEvents slot g.2
    | none => d
  | none => d

/-- The stream has an exchange in progress. -/
def StreamSt.exchanging (st : StreamSt) : Bool := (st.phase == 3 || st.phase == 7) && !st.ended

/-- One action of a stream's exchange: a message that arrived early, the next round, or the end; none while it
waits. -/
def Dev.exStep (d : Dev) (slot k : Nat) : Option Dev :=
  match d.plan slot with
  | some p => match p.cfgOf k with
    | some s =>
      let st := p.stOf k
      if !st.exchanging then none
      else
        let e := p.exOf s st
        let g := e.prog st
        let ls := p.cfg.sched.levels
        if g.level ≥ ls.length then
          let d := d.exEnd slot k
          match d.plan slot with
          | some p' => some (if (p'.stOf k).exchanging then d.exSend slot k else d)
          | none => some d
        else if (p.exWaits e g).all (fun x => g.got.contains x) &&
            ((p.exSends e g).all (fun x => x.2.all (fun q => g.sent.contains (x.1, q)))) then
          let i := e.levelOf ls.length g.level
          let l := ls.getD i ⟨1, 0, 1⟩
          let g' : Prog := if g.round + 1 < rounds l then ⟨g.level, g.round + 1, [], []⟩ else ⟨g.level + 1, 0, [], []⟩
          some ((d.modStream slot k (fun st => e.setProg st g')).exSend slot k)
        else
          st.early.findSome? (fun x => (d.exTake slot k x.1 x.2).map (fun d =>
            d.modStream slot k (fun st => { st with early := st.early.filter (fun y => y != x) })))
    | none => none
  | none => none

/-- Run a stream's exchange as far as it goes. -/
def Dev.exRun (d : Dev) (slot k : Nat) : Nat → Dev
  | 0 => d
  | fuel + 1 => match d.exStep slot k with
    | some d' => d'.exRun slot k fuel
    | none => d

/-- Enough actions for the rounds of a schedule and its early messages. -/
def exFuel : Nat := 1048576

/-- Begin the exchange of a stream: its first messages, and what they allow. -/
def Dev.exStart (d : Dev) (slot k : Nat) : Dev := (d.exSend slot k).exRun slot k exFuel

/-! ### Source quantization (R89 to R92, R95) -/

/-- The values that a unit of a stream of kind 0 or 2 brings to its quantization: the elements of the intra-node sum, rotated
block by block for kind 0, zeros beyond the last element. -/
def Plan.unitIn (p : Plan) (s : StreamCfg) (st : StreamSt) (u : Nat × Nat) : List El × Events :=
  let b := p.blockOf s
  match s.kind, p.cfg.xformOf s with
  | 0, some x =>
    let r := mapEv (fun i => forwardBlock x (Desc.of s.inFmt).elem s.xprec (padTo b El.zero (sub st.nodeSum (u.1 + i * b) b)))
      (List.range ((u.2 + b - 1) / b))
    (r.1.flatten, r.2)
  | _, _ => (sub st.nodeSum u.1 u.2, Events.zero)

/-- Source-quantize units of a stream of kind 0 or 2; `bad` says which residuals were read poisoned (R92). The new residuals
stand apart. -/
def Plan.sourceUnits (p : Plan) (s : StreamCfg) (bad : Nat → Bool) (us : List (Nat × Nat)) (st : StreamSt) :
    (StreamSt × List Nat) × Events :=
  foldEv (fun (a : StreamSt × List Nat) (u : Nat × Nat) =>
    let y := p.unitIn s a.1 u
    let ys := y.1.mapIdx (fun i e => if s.resid ≠ 0xFF ∧ bad (u.1 + i) then { e with poison := true } else e)
    let es := (List.range u.2).map (fun t => (a.1.resid.getD (u.1 + t) 0).toNat)
    let q := sourceBlock (Desc.of s.wireFmt) (p.rnd s) s.acc s.resid u.1 ys es
    (({ a.1 with wire := a.1.wire ++ [(u.1, q.1.1)], acc := a.1.acc ++ q.1.2.1, sourced := u.1 + u.2 }, a.2 ++ q.1.2.2),
      y.2.add q.2)) (st, []) us

/-- A residual of a stream lies in a poisoned granule. -/
def Dev.residBad (d : Dev) (p : Plan) (k : Nat) (s : StreamCfg) (i : Nat) : Bool := d.planBad p (p.residOff k + i * s.residBytes)

/-- The transform, feedback and quantization of a chunk of a stream of kind 0 or 2, and what its REDUCE sends and takes then
(R89, R116): the units that begin before an element. -/
def Dev.sourceChunk (d : Dev) (slot k stop : Nat) : Dev :=
  match d.plan slot with
  | some p => match p.cfgOf k with
    | some c =>
      let st := p.stOf k
      let us := (p.units c).filter (fun u => st.sourced ≤ u.1 && u.1 < stop)
      let q := p.sourceUnits c (d.residBad p k c) us st
      let d := (d.modStream slot k (fun _ => { q.1.1 with
        phase := 3, ended := false
        residNew := if c.resid = 0xFF ∨ q.1.2.isEmpty then st.residNew
          else st.residNew ++ [(st.sourced, q.1.2.map (BitVec.ofNat 64))] })).addEvents slot q.2
      d.exStart slot k
    | none => d
  | none => d

/-- A low-rank stream forms M = G + E and P = M Q (R95, steps 1 and 2). -/
def Dev.lowSource (d : Dev) (slot k : Nat) : Dev :=
  match d.plan slot with
  | some p => match p.cfgOf k with
    | some s =>
      let st := p.stOf k
      let n := s.shapeN
      let g := padTo s.elements El.zero st.nodeSum
      let m := mapIxEv (fun i (x : El) =>
        if s.resid = 0xFF then (x, Events.zero)
        else
          let r := addB32 (x.val 1) (decodeCode s.resid (st.resid.getD i 0).toNat)
          let c := encVal 1 r.1
          (elOf c.1 (x.poison || d.residBad p k s i), r.2.add c.2)) 0 g
      let pm := matMul (rowsOf n m.1) (transpose s.rank ((chunksOf (max 1 s.rank) st.qfac).map (fun r => r.map (·.toNat))))
      let bad := m.1.any (·.poison)
      let d := (d.modStream slot k (fun st => { st with nodeSum := m.1, sourced := s.elements })).addEvents slot (m.2.add pm.2)
      (d.lowReduce slot k 0 pm.1.flatten bad).exStart slot k
    | none => d
  | none => d

/-- A part with the marks of the elements that a poisoned granule feeds (R126): those whose bytes, or whose group or
super-block scale, it holds. `addr` is where the part begins. -/
def partMarked (f : Desc) (n addr : Nat) (r : PartRead) : Marked :=
  ⟨unpackTensor f n r.bytes, if r.marks.all (fun m => !m) then [] else (List.range n).map (fun i =>
    (f.spans ⟨1, n⟩ i).any (fun x => (granulesOf (addr + x.1) x.2).any (fun g => r.marks.getD (g - addr / 64) false)))⟩

/-- The parts of a stream as they were read. -/
def Plan.partsRead (p : Plan) (c : StreamCfg) (parts : List PartRead) : List (Nat × Marked) :=
  (parts.filter (fun x => (p.contributors c).contains x.acc)).map (fun x =>
    (x.acc, partMarked (Desc.of c.inFmt) c.elements ((p.partOf c.source x.acc).map (·.2) |>.getD 0) x))

/-- INTAKE_END: the intra-node sum by the fixed tree, once no read of the parts is held back (R273); the latches clear. Without residuals to fetch, SOURCE runs through;
chunks whose residuals were staged before go on in their order; on a plan of one device the sum is the reduced gradient
(R126). -/
def Dev.intakeEnd (d : Dev) (slot k : Nat) (parts : List PartRead) : Dev :=
  match d.plan slot with
  | some p => match p.cfgOf k with
    | some c =>
      let st := p.stOf k
      if !p.runs ∨ st.phase ≠ 1 ∨ st.ended ∨ (p.contributors c).any (fun a => d.readHeld (.intake slot k a)) then d
      else
        let r := nodeSum (Desc.of c.inFmt) c.elements (p.partsRead c parts)
        let d := d.serve slot (vectorUnits ++ (if p.cfg.np = 1 then [] else if c.kind = 0 then p.xArrays
          else if c.kind = 1 then p.gArrays else []))
        let d := (d.modStream slot k (fun st => { st with
          latches := [], nodeSum := r.1, phase := 2, ended := false, sourced := 0, acc := [], wire := [], red := .start
          fetched := [] })).addEvents slot r.2
        let d := d.signalRole slot 1 0 k
        if p.cfg.np = 1 then
          let sh := (p.outTen c).shard 1 0
          d.reduceEnd slot k (p.toGrad k c (sub r.1 sh.1 sh.2))
        else if c.kind = 1 then (if c.resid = 0xFF ∨ !st.fetched.isEmpty then d.lowSource slot k else d)
        else if c.resid = 0xFF then d.sourceChunk slot k (p.rotLen c)
        else st.fetched.foldl (fun d f => d.sourceChunk slot k (f.1 + f.2)) d
    | none => d
  | none => d

/-- First element of the next chunk whose residuals can be staged: after those sourced and those staged. -/
def StreamSt.nextChunk (st : StreamSt) : Nat :=
  match st.fetched.getLast? with
  | some f => f.1 + f.2
  | none => st.sourced

/-- RESIDUAL_FETCH_DONE: the residuals of the next chunk are staged, in whole units; its transform, feedback and quantization
run, and its REDUCE begins, once its input is there (R89, R116). The whole of a low-rank stream is one chunk. -/
def Dev.residFetch (d : Dev) (slot k first count : Nat) : Dev :=
  match d.plan slot with
  | some p => match p.cfgOf k with
    | some c =>
      let st := p.stOf k
      if !p.runs ∨ c.resid = 0xFF ∨ p.cfg.np = 1 ∨ first ≠ st.nextChunk ∨ first ≥ p.rotLen c ∨ count = 0 then d
      else if st.phase = 1 ∧ !st.ended then
        let stop := ((p.units c).filter (fun u => u.1 < first + count)).foldl (fun m u => max m (u.1 + u.2)) first
        d.modStream slot k (fun st => { st with
          fetched := st.fetched ++ [(first, (if c.kind = 1 then c.elements else stop) - first)] })
      else if c.kind = 1 then (if st.phase = 2 then d.lowSource slot k else d)
      else if (st.phase = 2 ∨ st.phase = 3) ∧ !st.ended then d.sourceChunk slot k (first + count)
      else d
    | none => d
  | none => d

/-- The write of a chunk's new residuals, as the memory and a checkpoint see it (R164, R322). -/
def Dev.touchChunk (d : Dev) (slot k first : Nat) : Dev :=
  match d.plan slot with
  | some p => match p.cfgOf k, (p.stOf k).residNew.find? (fun e => e.1 = first) with
    | some c, some e => d.rewritePlan p (p.residOff k + first * c.residBytes) (e.2.length * c.residBytes)
    | _, _ => d
  | none => d

/-- RESIDUAL_WRITEBACK_DONE: the new residuals of the chunk that begins at an element reach LPDDR5X. -/
def Dev.residWriteback (d : Dev) (slot k first : Nat) : Dev :=
  (d.touchChunk slot k first).modStream slot k (fun st => match st.residNew.find? (fun e => e.1 = first) with
    | some e => { st with resid := putEls (st.resid ++ List.replicate (first - st.resid.length) 0) first e.2,
                          residNew := st.residNew.filter (fun x => x.1 != first) }
    | none => st)

/-! ### Messages (R133) -/

/-- Counted messages that are discarded. -/
def itCollLost : Nat := 4096 + 0x5B1

/-- The plan of a slice that a message names. -/
def Dev.msgPlan (d : Dev) (ver planId : BitVec 16) (dig : BitVec 24) (slice origin : Nat) : Option Nat :=
  (d.mill.plans.find? (fun e => e.2.slice = slice && e.2.cfg.planId == planId && e.2.digest3 == dig && ver == 0x0100 &&
    e.2.peers.contains origin)).map (·.1)

/-- A REDUCE or GATHER message (R130, R131): of this step it is taken now or when its round comes; of the next step
it waits; any other is discarded and counted. -/
def Dev.collReceive (d : Dev) (type : Nat) (m : CollMsg) : Dev :=
  match d.msgPlan m.version m.planId m.digest3 m.slice m.origin with
  | none => d.count itCollLost
  | some slot => match d.plan slot with
    | none => d
    | some p =>
      let k := p.cfg.streams.findIdx (fun s => s.num = m.stream)
      if k ≥ p.cfg.streams.length ∨ (p.state ≠ .running ∧ p.state ≠ .stopping) ∨
         (m.step ≠ p.step ∧ m.step ≠ p.step + 1) then d.count itCollLost
      else if m.step = p.step + 1 ∨ !p.runs then d.modStream slot k (fun st => { st with early := st.early ++ [(type, m)] })
      else match (if (p.stOf k).exchanging then d.exTake slot k type m else none) with
        | some d => d.exRun slot k exFuel
        | none => d.modStream slot k (fun st => { st with early := st.early ++ [(type, m)] })

/-! ### Scalar exchanges (R138, R139) -/

/-- Streams of kind 3 that compute T (R143). -/
def Plan.scaleStreams (p : Plan) : List Nat :=
  (List.range p.cfg.streams.length).filter (fun k => match p.cfgOf k with
    | some s => s.kind == 3 && ((Desc.of s.outFmt).elem == 4 || (Desc.of s.outFmt).elem == 5) && s.tscale == 0
    | none => false)

/-- SCALAR_PRE is needed. -/
def Plan.needsPre (p : Plan) : Bool := p.cfg.sched.clip != 0 || p.cfg.sched.skipNonfinite

/-- The streams of a group. -/
def OptCfg.streams (o : OptCfg) : List Nat := (List.range o.count).map (· + o.first)

/-- REDUCE has ended for every stream of a group. -/
def Plan.reduced (p : Plan) (o : OptCfg) : Bool :=
  o.streams.all (fun k => (p.stOf k).phase ≥ 3 && ((p.stOf k).ended || (p.stOf k).phase > 3))

/-- The device's own values of SCALAR_PRE: over its shards in order of stream and index (DEDUCED, log 23). -/
def Plan.preVals (p : Plan) : Scalars × Events :=
  let r := foldEv (fun (a : Nat × Nat) (x : OptCfg × Nat) =>
    let f := match p.cfgOf x.2 with
      | some s => p.gradFmt x.2 s
      | none => 1
    let v := shardScalars f x.1.gscale x.1.clip (p.stOf x.2).grad a.1
    ((v.1.1, a.2 + v.1.2), v.2)) (0, 0) ((p.cfg.opts.map (fun o => o.streams.map (fun k => (o, k)))).flatten)
  (⟨BitVec.ofNat 64 r.1.1, r.1.2, []⟩, r.2)

/-- The device's own maxima of SCALAR_POST. -/
def Plan.postVals (p : Plan) : Scalars × Events :=
  let r := mapEv (fun k => match p.cfgOf k with
    | some s => (let m := shardMax (p.stOf s.gradOf).theta; ((k, m.1), m.2))
    | none => ((k, 0), Events.zero)) p.scaleStreams
  (⟨0, 0, r.1⟩, r.2)

/-- The larger of two maxima, by the maximum of R61. -/
def maxB32 (a b : W32) : W32 × Events :=
  let r := maxOp 1 (decodeCode 1 a.toNat) (decodeCode 1 b.toNat)
  (BitVec.ofNat 32 r.1, r.2)

/-- Combine two members' values. -/
def Scalars.join (a b : Scalars) : Scalars × Events :=
  let s := fAdd 0 a.sumsq.toNat b.sumsq.toNat
  let m := mapEv (fun (e : Nat × W32) => match b.maxima.find? (fun x => x.1 = e.1) with
    | some x => (let r := maxB32 e.2 x.2; ((e.1, r.1), r.2))
    | none => (e, Events.zero)) a.maxima
  (⟨BitVec.ofNat 64 s.1, a.nonfinite + b.nonfinite, m.1⟩, s.2.add m.2)

/-- Combine the values of a group in rank order. -/
def joinAll (g : Nat) (vals : List (Nat × Scalars)) : Scalars × Events :=
  match (List.range g).filterMap (fun j => (vals.find? (fun v => v.1 = j)).map (·.2)) with
  | v :: vs => foldEv Scalars.join v vs
  | [] => (⟨0, 0, []⟩, Events.zero)

/-- Send the values of the current round of a scalar exchange. -/
def Dev.scalSend (d : Dev) (slot : Nat) : Dev :=
  match d.plan slot with
  | some p => match p.scal with
    | some x =>
      let ls := p.cfg.sched.levels
      let l := ls.getD x.prog.level ⟨1, 0, 1⟩
      let c := coord ls x.prog.level p.rank
      let vals := x.vals.filter (fun v => l.alg ≠ 2 || v.1 = (c + l.g - x.prog.round) % l.g)
      (scalDests l c x.prog.round).foldl (fun d j =>
        d.sendColl p (p.cfg.sched.peers.getD (rankAt ls x.prog.level p.rank j) 0) 3 (x.prog.level + 1) 0 0 0 (.scalars x.post
          (if l.alg = 0 then vals.filter (fun v => v.1 = c) else vals))) d
    | none => d
  | none => d

/-- A scalar exchange ends: κ and the decision to skip, or the maxima (R139, R143). -/
def Dev.scalEnd (d : Dev) (slot : Nat) (post : Bool) (v : Scalars) : Dev :=
  match d.plan slot with
  | some p =>
    let k := clipFactor p.cfg.sched.clip v.sumsq.toNat
    ((d.modPlan slot (fun p =>
      if post then { p with scal := none, postDone := true, maxima := v.maxima }
      else { p with scal := none, preDone := true, kappa := k.1,
                    skipped := p.cfg.sched.skipNonfinite && v.nonfinite > 0 && !p.applied })).addEvents slot
      (if post then Events.zero else k.2)).signalRole slot 4 0 0
  | none => d

/-- One action of a scalar exchange. -/
def Dev.scalStep (d : Dev) (slot : Nat) : Option Dev :=
  match d.plan slot with
  | some p => match p.scal with
    | some x =>
      let ls := p.cfg.sched.levels
      if x.prog.level ≥ ls.length then some (d.scalEnd slot x.post (joinAll 1 x.vals).1)
      else
        let l := ls.getD x.prog.level ⟨1, 0, 1⟩
        let c := coord ls x.prog.level p.rank
        let want := scalHeld l c (x.prog.round + 1)
        if want.all (fun j => x.vals.any (fun v => v.1 = j)) then
          if x.prog.round + 1 < rounds l then
            some ((d.modPlan slot (fun p => { p with scal := some { x with prog := ⟨x.prog.level, x.prog.round + 1, [], []⟩ } })).scalSend slot)
          else
            let v := joinAll l.g x.vals
            let c' := if x.prog.level + 1 < ls.length then coord ls (x.prog.level + 1) p.rank else 0
            let d := (d.modPlan slot (fun p => { p with scal := some ⟨x.post, ⟨x.prog.level + 1, 0, [], []⟩, [(c', v.1)]⟩ })).addEvents slot v.2
            some (if x.prog.level + 1 < ls.length then d.scalSend slot else d)
        else
          (p.earlyS.find? (fun e => e.1 == p.step && e.2.1 = x.prog.level + 1 && e.2.2.1 == x.post)).map (fun e =>
            d.modPlan slot (fun p => { p with
              earlyS := p.earlyS.filter (fun y => y != e)
              scal := some { x with vals := x.vals ++ e.2.2.2.filter (fun v => !x.vals.any (fun w => w.1 = v.1)) } }))
    | none => none
  | none => none

/-- Run a scalar exchange as far as it goes. -/
def Dev.scalRun (d : Dev) (slot : Nat) : Nat → Dev
  | 0 => d
  | fuel + 1 => match d.scalStep slot with
    | some d' => d'.scalRun slot fuel
    | none => d

/-- Begin a scalar exchange with the device's own values. -/
def Dev.scalBegin (d : Dev) (slot : Nat) (post : Bool) (v : Scalars × Events) : Dev :=
  match d.plan slot with
  | some p =>
    let ls := p.cfg.sched.levels
    let c := if ls.isEmpty then 0 else coord ls 0 p.rank
    let d := (d.modPlan slot (fun p => { p with scal := some ⟨post, .start, [(c, v.1)]⟩ })).addEvents slot v.2
    (if ls.isEmpty then d else d.scalSend slot).scalRun slot exFuel
  | none => d

/-- SCALAR_PRE_START: REDUCE has ended for every stream of every group. -/
def Dev.scalarPre (d : Dev) (slot : Nat) : Dev :=
  match d.plan slot with
  | some p =>
    if !p.runs ∨ p.rerun = .gatherOnly ∨ !p.needsPre ∨ p.preDone ∨ p.scal.isSome ∨ !p.cfg.opts.all p.reduced then d
    else
      (d.modPlan slot (fun p => { p with streams := p.streams.map (fun s => if s.phase = 3 ∧ s.ended then { s with phase := 4 } else s) })).scalBegin
        slot false p.preVals
  | none => d

/-- SCALAR_RECEIVE: values of members of a level group. -/
def Dev.scalarReceive (d : Dev) (m : CollMsg) (post : Bool) (vals : List (Nat × Scalars)) : Dev :=
  match d.msgPlan m.version m.planId m.digest3 m.slice m.origin with
  | none => d.count itCollLost
  | some slot => match d.plan slot with
    | none => d
    | some p =>
      if (p.state ≠ .running ∧ p.state ≠ .stopping) ∨ (m.step ≠ p.step ∧ m.step ≠ p.step + 1) then d.count itCollLost
      else (d.modPlan slot (fun p => { p with earlyS := p.earlyS ++ [(m.step, m.level, post, vals)] })).scalRun slot exFuel

/-! ### Update (R137, R140 to R142) -/

/-- The group is updated in this step: not skipped, and not applied before (R139, Table 4.17). -/
def Plan.updates (p : Plan) : Bool := !p.skipped && !(p.rerun == .redo && p.applied)

/-- UPDATE of a group may begin (R116). -/
def Plan.mayUpdate (p : Plan) (g : Nat) (o : OptCfg) : Bool :=
  p.runs && p.rerun != .gatherOnly && o.kind != 0 && p.reduced o && (!p.needsPre || p.preDone) &&
  (match p.groups[g]? with
    | some s => !s.started && !s.done
    | none => false)

/-- The scalars of a group's update, computed once per step: η, and s, 1 − β and the bias corrections (R137, R140). -/
def Plan.groupScal (p : Plan) (g : Nat) (o : OptCfg) : OptScal × Events :=
  let t := (p.groups[g]?.map (·.t)).getD 1
  evBind (learnRate o t p.lrStep) fun eta =>
    optScalars o.b1 o.b2 o.eps o.wd o.gscale (if o.clip then p.kappa else 0x3F800000) eta t

/-- The gradient of a shard with the marks of the elements whose state is lost. -/
def Dev.gradMarked (d : Dev) (p : Plan) (k : Nat) : List El :=
  (p.stOf k).grad.mapIdx (fun i e => if d.lostAt p k i then { e with poison := true } else e)

/-- An array that the KIND of a group does not have stays empty. -/
def ifHeld (old new : List W32) : List W32 := if old.isEmpty then [] else new

/-- The update of one stream of a group by R140. -/
def Plan.updateStream (p : Plan) (kind : Nat) (sc : OptScal) (k : Nat) (grad : List El) :
    (List W32 × List W32 × List W32 × List W32) × Events :=
  let st := p.stOf k
  let r := optShard kind sc grad st.theta st.m st.v
  ((r.1.1, ifHeld st.m r.1.2.1, ifHeld st.v r.1.2.2, st.w), r.2)

/-- Bytes of binary32 values. -/
def bytes32 (ws : List W32) : List Byte := (ws.map (fun w => le 4 w.toNat)).flatten

/-- Binary32 values of bytes. -/
def words32 (bs : List Byte) : List W32 := (chunksOf 4 bs).map (fun b => BitVec.ofNat 32 (unle b))

/-- Where an optimizer program finds the arrays of its group: one after another, 64 B aligned, in the plan's first
run of pages (R134, R352; DESIGN CHOICE, log 25): g, θ and up to three state arrays of the group's streams in order. -/
def Plan.progArrays (p : Plan) (o : OptCfg) (base : Nat) : List (Nat × List W32) :=
  let cat := fun (f : StreamSt → List W32) => (o.streams.map (fun k => f (p.stOf k))).flatten
  let arrs := [cat (fun s => s.grad.map (fun e => BitVec.ofNat 32 e.bits.toNat)), cat (·.theta), cat (·.m), cat (·.v), cat (·.w)]
  (arrs.foldl (fun (a : Nat × List (Nat × List W32)) ws =>
    ((a.1 + 4 * ws.length + 63) / 64 * 64, a.2 ++ [(a.1, ws)])) (base, [])).2

/-- Which elements of an array of a group are lost: of array 0, g, those with any state lost or a marked gradient. -/
def Dev.progLost (d : Dev) (p : Plan) (o : OptCfg) (j : Nat) : List Bool :=
  (o.streams.map (fun k => if j = 0 then (d.gradMarked p k).map (·.poison)
    else (List.range ((p.stOf k).arrays.getD (j - 1) []).length).map (d.lostIn p k (j - 1)))).flatten

/-- Write an array for a program, granule by granule, those that hold a lost element poisoned (R180). -/
def Dev.writeArray (d : Dev) (a : Nat × List W32) (lost : List Bool) : Dev :=
  let gs := chunksOf 16 a.2
  ((List.range gs.length).zip gs).foldl (fun d g =>
    d.memWrite (a.1 + 64 * g.1) (bytes32 g.2) ((sub lost (16 * g.1) 16).any (fun b => b))) d

/-- The optimizer program of a group starts (R142, R352). -/
def Dev.startProgram (d : Dev) (slot g : Nat) (p : Plan) (o : OptCfg) : Dev :=
  match p.cfg.progs.find? (fun x => x.index = o.program ∧ x.kind = 1), p.pages with
  | some pr, r :: _ =>
    let c := p.cores.getD pr.lcore 0
    let arrs := p.progArrays o (d.pageAddr r.1)
    let t := (p.groups[g]?.map (·.t)).getD 1
    let eta := learnRate o t p.lrStep
    let s := gradScale o.gscale (if o.clip then p.kappa else 0x3F800000)
    let d := ((List.range arrs.length).zip arrs).foldl (fun e a => e.writeArray a.2 (d.progLost p o a.1)) d
    let n := ((o.streams.map (fun k => (p.shardOf k).2)).sum)
    let segs (k : Core) := ((List.range arrs.length).zip arrs).foldl (fun t a => tblPut t (a.1 + 1)
      (Seg.mk (BitVec.ofNat 64 a.2.1) (BitVec.ofNat 32 (4 * a.2.2.length)) 7)) k.segs
    let regs : List (Nat × BitVec 36) := [(2, BitVec.ofNat 36 (localWords c)), (3, BitVec.ofNat 36 n),
      (5, BitVec.ofNat 36 s.1.toNat), (6, BitVec.ofNat 36 eta.1.toNat), (7, BitVec.ofNat 36 t)]
    (d.addEvents slot (eta.2.add s.2)).modCore c (fun k => { k with
      state := .running, pc := pr.entry, job := .opt slot g, exl := false, pre := none, rep := false, sate := true
      mem := imageWords pr.words, segs := segs k, regs := regs })
  | _, _ => d

/-- UPDATE_START of a group (R140 to R142). In a step that is skipped or was applied nothing is computed. -/
def Dev.updateStart (d : Dev) (slot g : Nat) : Dev :=
  match d.plan slot with
  | some p => match p.cfg.opts[g]? with
    | some o =>
      if !p.mayUpdate g o then d
      else
        let d := d.modPlan slot (fun p => { p with
          groups := modAt p.groups g (fun s => { s with started := true })
          streams := p.streams.mapIdx (fun k s => if o.streams.contains k then { s with phase := 5, ended := false } else s) })
        if !p.updates then d
        else if o.kind = 0x0F then d.startProgram slot g p o
        else
          let sc := p.groupScal g o
          o.streams.foldl (fun d k =>
            let grad := d.gradMarked p k
            let u := p.updateStream o.kind sc.1 k grad
            (d.modStream slot k (fun s => { s with grad := grad, upd := some u.1 })).addEvents slot u.2)
            ((d.serve slot vectorUnits).addEvents slot sc.2)
    | none => d
  | none => d

/-- The optimizer program of a group has not reached HALT. -/
def Dev.programRuns (d : Dev) (slot g : Nat) : Bool := d.kerf.cores.any (fun e => e.2.job == .opt slot g)

/-- The arrays that an optimizer program left (R142). An element whose values carry poison keeps its old ones, counts as
invalid and marks its copy for the accelerators (R141). -/
def Dev.takeProgram (d : Dev) (slot : Nat) (p : Plan) (o : OptCfg) : Dev :=
  match p.pages with
  | r :: _ =>
    let arrs := p.progArrays o (d.pageAddr r.1)
    let new := arrs.map (fun a => words32 (d.mem.read a.1 (4 * a.2.length)))
    let bad := fun i => (arrs.drop 1).any (fun a => i < a.2.length && d.mem.poisoned (a.1 + 4 * i) 4)
    (o.streams.foldl (fun (a : Nat × Dev) k =>
      let n := (p.shardOf k).2
      let arr := fun j => ((arrs.getD (j + 1) (0, [])).2.drop a.1).take n |>.mapIdx (fun i old =>
        if bad (a.1 + i) then old else (new.getD (j + 1) []).getD (a.1 + i) old)
      let lost := ((List.range n).filter (fun i => bad (a.1 + i))).length
      (a.1 + n, (a.2.modStream slot k (fun s => { s with
        upd := some (arr 0, arr 1, arr 2, arr 3)
        grad := s.grad.mapIdx (fun i e => if bad (a.1 + i) then { e with poison := true } else e) })).addEvents slot
        { Events.zero with invalid := lost })) (0, d)).2
  | [] => d

/-- The bytes of a row with its state, as they lie in the owner's memory: values in ROW_FMT, then the accumulator or m and v,
padded to 12 B a column (R145; DESIGN CHOICE, log 24). -/
def EmbTab.rowBytes (t : EmbTab) (r : EmbRow) : List Byte :=
  padTo (12 * t.dim) 0 ((r.vals.map (fun v => le (fmtBytes t.rowFmt) v.toNat)).flatten ++
    (if t.rowOpt = 1 then le 4 r.acc.toNat else if t.rowOpt = 2 then bytes32 r.m ++ bytes32 r.v else []))

/-- The table of an ID. -/
def Plan.embTab (p : Plan) (id : Nat) : Option EmbTab := p.cfg.embT.find? (fun t => t.table = id)

/-- The number of the table's stream. -/
def Plan.embStream (p : Plan) (t : EmbTab) : Nat := ((p.cfgOf t.stream).map (·.num)).getD 0

/-- The initial encoding of one element: a × (2r / 65,536 − 1) in binary32, then in ROW_FMT by RNE (R145). -/
def Plan.embInit (p : Plan) (t : EmbTab) (row col : Nat) : W64 :=
  match cmpVal (decodeCode 1 t.init.toNat) (.fin false 0 0) with
  | 2 =>
    let r := srRandomWide p.cfg.seed p.cfg.step0 (p.embStream t) (row * t.dim + col)
    let u := (encVal 1 ((ofInt ((2 * r : Nat) - 65536 : Int)).scale (-16))).1
    BitVec.ofNat 64 (convert 1 t.rowFmt (fMul 1 t.init.toNat u).1 .rne false).1
  | _ => 0

/-- A row as the owner holds it: what was written to it, or its initial value (R145). -/
def Plan.embRow (p : Plan) (t : EmbTab) (row : Nat) : EmbRow :=
  match (tblGet p.tables t.table).bind (fun rs => tblGet rs row) with
  | some r => r
  | none => ⟨(List.range t.dim).map (p.embInit t row), 0, List.replicate t.dim 0, List.replicate t.dim 0⟩

/-- The rows of a table that the device owns (R145): the first and the count. -/
def Plan.embMine (p : Plan) (t : EmbTab) : Nat × Nat :=
  if p.rank < t.firstRank ∨ p.rank ≥ t.firstRank + t.shards then (0, 0)
  else
    let k := p.rank - t.firstRank
    (k * t.rows / t.shards, (k + 1) * t.rows / t.shards - k * t.rows / t.shards)

/-- What lies in a plan's part of the spill window: the highest part of the optimizer state, then that of the embedding rows
(R109). -/
def Plan.windowBytes (p : Plan) : List Byte :=
  ((p.streams.map (fun s => (s.arrays.map (fun a => padTo (arrayBytes a) 0 (bytes32 a))).flatten)).flatten).drop p.spillFrom ++
  ((p.cfg.embT.map (fun t =>
    let m := p.embMine t
    padTo t.ownBytes 0 (((List.range m.2).map (fun i => t.rowBytes (p.embRow t (m.1 + i)))).flatten))).flatten).drop p.embFrom

/-- Where a block of 4 KiB of a plan's part of the window lies. -/
def Dev.spillAt (d : Dev) (p : Plan) (b : Nat) : Nat :=
  d.fld F.MEM_SPILL_BASE_ADDR p.slice + (runsNth p.spillRuns (b / 512)).getD 0 * pageBytes + b % 512 * 4096

/-- Blocks of 4 KiB of what is spilled are sealed and written to the window (R179). -/
def Dev.sealBlocks (d : Dev) (slot : Nat) (bs : List Nat) : Dev :=
  match d.plan slot with
  | some p =>
    if p.spillBytes = 0 ∨ bs.isEmpty then d
    else
      let all := p.windowBytes
      let port := d.fld F.MEM_SPILL_CTRL_PORT p.slice
      (bs.filter (fun b => b * 4096 < all.length)).foldl (fun d b =>
        match d.sealInternal (ikSpill p.slice) (le 8 (slot * 2 ^ 32 + b)) (padTo 4096 0 (sub all (b * 4096) 4096)) with
        | (some (ctr, ct, tag), d) =>
          (d.dmaSlice p.slice port (d.spillAt p b) ct [] false).modPlan slot (fun p =>
            { p with spillTags := tblPut p.spillTags b (ctr, tag) })
        | (none, d) => d) d
  | none => d

/-- The blocks of the window that hold optimizer state. -/
def Plan.stateBlocks (p : Plan) : List Nat := List.range ((p.stateBytes - p.spillFrom + 4095) / 4096)

/-- A spill block is read back (R179, R180): when a granule of it did not arrive, or its tag does not verify, all its granules
are delivered poisoned, and a failed tag is counted and recorded. -/
def Dev.spillRead (d : Dev) (slot block : Nat) (bytes : List Byte) (lost : List Bool) : Dev :=
  match d.plan slot with
  | some p => match tblGet p.spillTags block with
    | some (ctr, tag) =>
      let ok := lost.all (fun b => !b) &&
        (d.openInternal (ikSpill p.slice) ctr (le 8 (slot * 2 ^ 32 + block)) (padTo 4096 0 bytes) tag).isSome
      if ok then d
      else
        ((d.count itSpillAuth).fault (20 + d.fld F.MEM_SPILL_CTRL_PORT p.slice) .contained 8 slot block).modPlan slot (fun p =>
          { p with spillBad := ((List.range 64).map (· + 64 * block)).foldl addOnce p.spillBad })
    | none => d
  | none => d

/-- UPDATE_END of a group (R116, R140): θ and the state are the new ones and t advances; after the last group the
device has APPLIED the step. -/
def Dev.updateEnd (d : Dev) (slot g : Nat) : Dev :=
  match d.plan slot with
  | some p => match p.cfg.opts[g]?, p.groups[g]? with
    | some o, some s =>
      if !p.runs ∨ !s.started ∨ s.done ∨ d.programRuns slot g then d
      else
        let d := if o.kind = 0x0F ∧ p.updates then d.takeProgram slot p o else d
        let d := if p.updates then d.touchState p o.streams else d
        let d := d.modPlan slot (fun q =>
          let groups := modAt q.groups g (fun s => { s with done := true, t := if p.updates then (s.t + 1) % 2 ^ 32 else s.t })
          let all := (List.range q.cfg.opts.length).all (fun j => match q.cfg.opts[j]?, groups[j]? with
            | some o, some s => o.kind = 0 || s.done
            | _, _ => true)
          { q with
            groups := groups, applied := q.applied || (all && !q.skipped)
            streams := q.streams.mapIdx (fun k st =>
              if o.streams.contains k then
                let st := match st.upd with
                  | some u => { st with theta := u.1, m := u.2.1, v := u.2.2.1, w := u.2.2.2, upd := none }
                  | none => st
                { st with ended := true }
              else st) })
        if p.updates then d.sealBlocks slot p.stateBlocks else d
    | _, _ => d
  | none => d

/-- UPDATE has ended for the group of a stream. -/
def Plan.groupDone (p : Plan) (k : Nat) : Bool :=
  match p.cfg.groupOf k with
  | some (g, o) => o.kind = 0 || p.rerun == .gatherOnly || (match p.groups[g]? with
      | some s => s.done
      | none => false)
  | none => true

/-- SCALAR_POST_START: UPDATE has ended for the streams whose parameters need T. -/
def Dev.scalarPost (d : Dev) (slot : Nat) : Dev :=
  match d.plan slot with
  | some p =>
    let ks := p.scaleStreams
    if !p.runs ∨ ks.isEmpty ∨ p.postDone ∨ p.scal.isSome ∨ p.skipped ∨
       !ks.all (fun k => match p.cfgOf k with
         | some s => p.groupDone s.gradOf
         | none => false) then d
    else
      (d.modPlan slot (fun p => { p with streams := p.streams.mapIdx (fun k s =>
        if ks.contains k ∧ s.phase < 6 then { s with phase := 6 } else s) })).scalBegin slot true p.postVals
  | none => d

/-! ### Gather (R131, R143) -/

/-- T of a parameter stream in this step. -/
def Plan.scaleOf (p : Plan) (k : Nat) (s : StreamCfg) : W32 :=
  let e := (Desc.of s.outFmt).elem
  if s.kind = 3 ∧ (e = 4 ∨ e = 5) then
    tensorScale s.tscale e ((p.maxima.find? (fun x => x.1 = k)).map (·.2) |>.getD 0)
  else 0

/-- The values that the owner of a shard spreads. -/
def Plan.ownOut (p : Plan) (k : Nat) (s : StreamCfg) : List El × Events :=
  let d := Desc.of s.outFmt
  let sh := (p.outTen s).shard p.cfg.np p.rank
  if s.kind = 3 then
    let g := p.stOf s.gradOf
    let t := p.scaleOf k s
    mapIxEv (fun i (th : W32) =>
      let c := paramConvert d (p.rnd s (sh.1 + i)) t th
      (elOf c.1 (match g.grad[i]? with
        | some e => e.poison
        | none => false), c.2)) 0 g.theta
  else
    let st := p.stOf k
    let f : Option W32 := match p.cfg.groupOf k with
      | some (_, o) => if o.kind = 0 then some o.gscale else none
      | none => none
    mapIxEv (fun i (e : El) =>
      let b := match f with
        | some w => (let m := encVal s.acc (decodeCode 1 w.toNat); let r := fMul s.acc e.bits.toNat m.1; (r.1, m.2.add r.2))
        | none => (e.bits.toNat, Events.zero)
      let c := encodeCode d.elem (decodeCode s.acc b.1).exact (d.mode (p.rnd s (sh.1 + i))) d.ovf
      (elOf c.1 e.poison, b.2.add c.2)) 0 st.grad

/-- The step's SCALAR_PRE is over, or the step has none: it is known whether the step is skipped (R138, R139). -/
def Plan.preOver (p : Plan) : Bool := p.rerun == .gatherOnly || !p.needsPre || p.preDone

/-- GATHER of a stream may begin: its previous phase has ended (R116), SCALAR_PRE for a stream of a group. -/
def Plan.mayGather (p : Plan) (k : Nat) (s : StreamCfg) : Bool :=
  let st := p.stOf k
  p.runs && p.cfg.writesDest k s && decide (st.phase < 7) &&
  (if s.kind = 3 then p.groupDone s.gradOf && (p.skipped || !p.scaleStreams.contains k || p.postDone)
   else p.rerun == .gatherOnly || (st.phase ≥ 3 && (st.ended || st.phase > 3) && ((p.cfg.groupOf k).isNone || p.preOver)))

/-- Fresh values of elements that no state holds any more: the reduced shard of an all-reduce stream in a GATHER
that is run again (DESIGN CHOICE, log 26). -/
def Dev.freshEls (d : Dev) : Nat → List El × Dev
  | 0 => ([], d)
  | n + 1 =>
    let v := d.fresh
    let r := v.2.freshEls n
    (⟨v.1, false⟩ :: r.1, r.2)

/-- GATHER_START of a stream. In a skipped step no parameters are sent (R139). -/
def Dev.gatherStart (d : Dev) (slot k : Nat) : Dev :=
  match d.plan slot with
  | some p => match p.cfgOf k with
    | some s =>
      if !p.mayGather k s then d
      else if p.skipped ∧ s.kind = 3 then
        (d.modStream slot k (fun st => { st with tscale := 0 })).gatherDone slot k p s
      else
        let sh := (p.outTen s).shard p.cfg.np p.rank
        let own := p.ownOut k s
        let r := if s.kind ≠ 3 ∧ own.1.length < sh.2 then d.freshEls sh.2 else (own.1, d)
        let els := padTo sh.2 El.zero r.1
        let d := (r.2.modStream slot k (fun st => { st with
          phase := 7, ended := false, gat := .start, tscale := p.scaleOf k s
          outp := putEls (List.replicate s.elements none) sh.1 (els.map some) })).addEvents slot own.2
        (d.destWrite p s sh.1 els).exStart slot k
    | none => d
  | none => d

/-- READY_RECORD_WRITE (R132): after the last byte of a stream has been written to an accelerator, on the port that carried its
data; its SKIPPED is known once SCALAR_PRE is over (R139). -/
def Dev.readyRecord (d : Dev) (slot k acc : Nat) : Dev :=
  match d.plan slot with
  | some p => match p.cfgOf k with
    | some s =>
      let st := p.stOf k
      match (p.destRegs s).find? (fun r => r.mask.getLsbD acc), p.cfg.sched.regions[p.cfg.sched.readyReg + acc]? with
      | some data, some r =>
        if st.phase ≠ 8 ∨ !p.runs ∨ acc ∈ st.ready ∨ p.serving ∨ !p.preOver then d
        else
          let rec_ := le 8 p.step.toNat ++ le 4 st.tscale.toNat ++ le 4 (b2n p.skipped)
          (d.dmaSlice p.slice data.port (r.addr + 16 * k) rec_ [] false).modStream slot k (fun st =>
            { st with ready := st.ready ++ [acc] })
      | _, _ => d
    | none => d
  | none => d

/-! ### End of a step (R111, R116, R212) -/

/-- The signals of a step that runs again stand again: accelerators do not repeat them (R118, R157; DEDUCED, log 64). -/
def Plan.relatch (p : Plan) : Plan :=
  { p with streams := p.streams.map (fun s => { s with latches := s.signalled.foldl addOnce s.latches }) }

/-- A step runs as REDO (Table 4.17): the residuals are zeroed, and one invalid event is counted. -/
def Dev.redo (d : Dev) (slot : Nat) : Dev :=
  match d.plan slot with
  | some p => ((d.rewriteResids p).modPlan slot (fun p => p.zeroResid.relatch)).addEvents slot evInvalid
  | none => d

/-- A stream's part of the step is done. -/
def Plan.streamDone (p : Plan) (k : Nat) (s : StreamCfg) : Bool :=
  let st := p.stOf k
  if s.kind = 4 then true
  else if p.cfg.writesDest k s then
    st.phase == 8 && st.residNew.isEmpty &&
    (p.serving || (List.range 8).all (fun a => !(p.destRegs s).any (fun r => r.mask.getLsbD a) || st.ready.contains a))
  else p.rerun == .gatherOnly || (st.phase ≥ 3 && st.ended && p.groupDone k && st.residNew.isEmpty)

/-- STEP_END: the step's last work item has completed. -/
def Dev.stepEnd (d : Dev) (slot : Nat) : Dev :=
  match d.plan slot with
  | some p =>
    if !p.runs ∨ !p.running.isEmpty ∨ !p.preOver ∨ !(List.range p.cfg.streams.length).all (fun k => match p.cfgOf k with
      | some s => p.streamDone k s
      | none => true) then d
    else
      let d := d.freeTriggers slot (some (p.step.toNat % 256))
      let next : StreamSt → StreamSt := fun s => { s.clear with
        signalled := s.latches, early := s.early.filter (fun e => e.2.step == p.step + 1) }
      let cutNow := match p.cut with
        | some c => p.step + 1 == c
        | none => false
      let d := d.modPlan slot (fun p => { p with
        step := p.step + 1, armed := false, begun := p.serving && p.begun, applied := p.serving && p.applied, skipped := false
        aborted := false, earlyS := p.earlyS.filter (fun e => e.1 == p.step + 1)
        rerun := if p.nextRedo then .redo else .normal, serving := false, nextRedo := false, spillBad := []
        streams := p.streams.map next, scal := none, preDone := false, postDone := false, maxima := []
        groups := p.groups.map (fun g => { g with started := false, done := false }), held := p.held || cutNow })
      let d := if p.nextRedo then d.redo slot else d
      if p.state = .stopping then
        let d := (d.leaveRunning slot .admitted).modPlan slot (fun p => { p with stopOwner := none })
        match p.stopOwner with
        | some o => d.finish o stOk 0 []
        | none => d
      else d
  | none => d

/-! ### The start exchange (R159, R211) -/

/-- Every plan peer has an open session. -/
def Dev.sessionsOpen (d : Dev) (slot : Nat) (p : Plan) : Bool := p.peers.all (fun n => (d.planSession slot n).isSome)

/-- Bring the collective queue pairs of a plan to RTS (R211). -/
def Dev.connectAll (d : Dev) (slot : Nat) (p : Plan) : Dev :=
  p.qps.foldl (fun d e => match d.planSession slot e.1 with
    | some s =>
      let was := d.qp e.2
      let d := d.collConnect e.2 s.tx s.peerRx s.peerQpn
      match was with
      | some q => if q.f cState = qsRts then d else d.refKey s.tx true
      | none => d
    | none => d) d

/-- Send the values of the current round of the start exchange. -/
def Dev.startSend (d : Dev) (slot : Nat) : Dev :=
  match d.plan slot with
  | some p => match p.startX with
    | some x =>
      let ls := p.cfg.sched.levels
      let l := ls.getD x.prog.level ⟨1, 0, 1⟩
      let c := coord ls x.prog.level p.rank
      (scalDests l c x.prog.round).foldl (fun d j =>
        d.sendColl p (p.cfg.sched.peers.getD (rankAt ls x.prog.level p.rank j) 0) 5 (x.prog.level + 1) 0 0 0 (.start x.vals)) d
    | none => d
  | none => d

/-- The outcome of Table 4.17 for a device at its own step: none is START_FAIL. Otherwise the step to run, how, whether
the device only serves, and whether the step after it is a REDO. -/
def startOutcome (own : W64) (vs : List StartVal) : Option (W64 × Rerun × Bool × Bool) :=
  let begun := vs.any (·.begun)
  if vs.all (fun v => v.step == own) then some (own, if begun then .redo else .normal, false, false)
  else
    let s := vs.foldl (fun a v => if v.step.toNat < a.toNat then v.step else a) own
    if vs.all (fun v => v.step == s || v.step == s + 1) && vs.all (fun v => v.step != s || v.applied) then
      some (s, .gatherOnly, own != s, vs.any (fun v => v.step == s + 1 && v.begun))
    else none

/-- The start exchange ends in START_FAIL. -/
def Dev.startFail (d : Dev) (slot : Nat) : Dev :=
  match d.plan slot with
  | some p =>
    let d := d.planFail slot 5 0 d.node 0
    match p.startX with
    | some x => d.finish x.own stRefused rsStartFail []
    | none => d
  | none => d

/-- All P values have arrived: the outcome is applied, and PLAN_START completes. -/
def Dev.startApply (d : Dev) (slot : Nat) : Dev :=
  match d.plan slot with
  | some p => match p.startX with
    | some x =>
      if x.vals.any (fun v => v.digest3 != p.digest3) then d.startFail slot
      else match startOutcome p.step x.vals with
        | none => d.startFail slot
        | some (s, r, serve, redo) =>
          let d := d.modPlan slot (fun p => { p with
            startX := none, step := s, rerun := r, serving := serve, nextRedo := redo })
          let d := if r == .redo then d.redo slot else d
          d.finish x.own stOk 0 []
    | none => d
  | none => d

/-- One action of the start exchange. -/
def Dev.startStep (d : Dev) (slot : Nat) : Option Dev :=
  match d.plan slot with
  | some p => match p.startX with
    | some x =>
      let ls := p.cfg.sched.levels
      if x.prog.level ≥ ls.length then some (d.startApply slot)
      else
        let l := ls.getD x.prog.level ⟨1, 0, 1⟩
        let c := coord ls x.prog.level p.rank
        let have_ := fun j => (List.range p.cfg.np).all (fun r =>
          !(r % below ls (x.prog.level + 1) / below ls x.prog.level == j &&
            r / below ls (x.prog.level + 1) == p.rank / below ls (x.prog.level + 1)) || x.vals.any (fun v => v.rank = r))
        if (scalHeld l c (x.prog.round + 1)).all have_ then
          let g : Prog := if x.prog.round + 1 < rounds l then ⟨x.prog.level, x.prog.round + 1, [], []⟩ else ⟨x.prog.level + 1, 0, [], []⟩
          some ((d.modPlan slot (fun p => { p with startX := some { x with prog := g } })).startSend slot)
        else none
    | none => none
  | none => none

/-- Run the start exchange as far as it goes. -/
def Dev.startRun (d : Dev) (slot : Nat) : Nat → Dev
  | 0 => d
  | fuel + 1 => match d.startStep slot with
    | some d' => d'.startRun slot fuel
    | none => d

/-- PLAN_START (R110, R136, R159); `init` holds what INIT_SRC of each stream's group gave. -/
def Dev.planStart (c : Cmd) (init : List (List W32)) (o : Owner) (d : Dev) : Reply :=
  if !zeroFrom c 1 then .refuse d rsBadField
  else match d.cmdPlan c with
    | .inl rs => .refuse d rs
    | .inr (slot, p) =>
      if (p.state ≠ .admitted ∧ p.state ≠ .failed) ∨ (d.slice p.slice).state ≠ .active ∨ d.fatal ∨
          d.scaler.boot ≠ .running ∨ d.pwr.state ≥ 2 then .refuse d rsWrongState
      else
        let d := d.rechoose slot
        let d := if p.started then d else (d.readInit slot p).fillState slot init
        let d := (d.clearStale slot).modPlan slot (fun p =>
          { p with state := .running, fail := none, aborted := false, rerun := .normal, heldPower := d.pwr.state = 1 })
        if p.cfg.np = 1 then
          .ok (d.modPlan slot (fun p => if p.begun then { p.relatch with rerun := .redo } else p)) []
        else
          .defer (d.modPlan slot (fun p => { p with startX := some ⟨.start, [p.startVal], o, false⟩ }))

/-- Values by rank, the first of a rank's standing. -/
def addVals (vs ws : List StartVal) : List StartVal := vs ++ ws.filter (fun v => !vs.any (fun w => w.rank = v.rank))

/-- The exchange of a starting plan begins once the sessions with its peers are all open: the queue pairs are
connected, the device's own values go out, and what peers sent before counts. -/
def Dev.tryStart (d : Dev) (slot : Nat) : Dev :=
  match d.plan slot with
  | some p => match p.startX with
    | some x =>
      if x.sent ∨ !d.sessionsOpen slot p then d
      else
        let d := (d.connectAll slot p).startSend slot
        (d.modPlan slot (fun q => { q with
          startX := some { x with vals := addVals x.vals p.earlyStart, sent := true }
          earlyStart := [] })).startRun slot exFuel
    | none => d
  | none => d

/-- The Scaler goes on with the start of a plan (R403): the sessions that are missing are opened, or tried again,
and the exchange begins when they are all open. -/
def Dev.kickPlan (d : Dev) (slot : Option Nat) : Dev :=
  match slot with
  | none => d
  | some n => match (d.plan n).bind (·.startX) with
    | some x => if x.sent then d else (d.openPlanSessions n).tryStart n
    | none => d

/-- What follows a PLAN_START that left `e`. -/
def Dev.afterStart (d : Dev) (c : Cmd) (e : Dev) : Dev :=
  match d.cmdPlan c with
  | .inr (slot, p) => if p.state = .admitted ∨ p.state = .failed then e.kickPlan (some slot) else e
  | .inl _ => e

/-- What follows a command that left `e` and may have ended a handshake: the start of the session's plan goes on. -/
def Dev.afterShake (d : Dev) (id : Option Nat) (e : Dev) : Dev :=
  match id with
  | none => e
  | some n => match d.session n with
    | some s => if s.step < 9 && (e.session n).all (fun t => t.step == 9) then e.kickPlan s.plan else e
    | none => e

/-- START_RECEIVE: the values join the exchange, or wait for it to begin here. -/
def Dev.startReceive (d : Dev) (m : CollMsg) (vals : List StartVal) : Dev :=
  match (d.mill.plans.find? (fun e => e.2.slice = m.slice && e.2.cfg.planId == m.planId && m.version == 0x0100 &&
    e.2.peers.contains m.origin)).map (·.1) with
  | none => d.count itCollLost
  | some slot => match d.plan slot with
    | none => d
    | some p => match p.startX with
      | some x =>
        if x.sent then
          (d.modPlan slot (fun p => { p with startX := some { x with vals := addVals x.vals vals } })).startRun slot exFuel
        else d.modPlan slot (fun p => { p with earlyStart := addVals vals p.earlyStart })
      | none => d.modPlan slot (fun p => { p with earlyStart := addVals vals p.earlyStart })

/-- START_WAIT_TIMEOUT. -/
def Dev.startTimeout (d : Dev) (slot : Nat) : Dev :=
  match d.plan slot with
  | some p => if p.startX.isSome then d.startFail slot else d
  | none => d

/-! ### Peer failures (R155 to R157) -/

/-- The coordinates whose values a round of a scalar exchange waits for. -/
def scalWaits (l : Level) (c k : Nat) (vals : List (Nat × Scalars)) : List Nat :=
  let short := !(scalHeld l c (k + 1)).all (fun j => vals.any (fun v => v.1 = j))
  if !short then []
  else match l.alg with
    | 0 => (List.range l.g).filter (fun j => j != c && !vals.any (fun v => v.1 = j))
    | 1 => [c ^^^ 2 ^ (lg l.g - 1 - k)]
    | _ => [(c + l.g - 1) % l.g]

/-- Nodes from which the plan waits for a receive at a level (from 0), its own data for it sent (R155): of a stream's
exchange, or of a scalar exchange. -/
def Plan.awaited (p : Plan) (i : Nat) : List Nat :=
  let ls := p.cfg.sched.levels
  let node := fun c => p.cfg.sched.peers.getD (rankAt ls i p.rank c) 0
  let stream := fun k => match p.cfgOf k with
    | some s =>
      let st := p.stOf k
      let e := p.exOf s st
      let g := e.prog st
      if st.exchanging && decide (g.level < ls.length) && e.levelOf ls.length g.level == i &&
          (p.exSends e g).all (fun x => x.2.all (fun q => g.sent.contains (x.1, q))) then
        ((p.exWaits e g).filter (fun x => !g.got.contains x)).map (fun x => node x.1)
      else []
    | none => []
  ((List.range p.cfg.streams.length).map stream).flatten ++
  (match p.scal with
  | some x => if x.prog.level = i ∧ i < ls.length then
      (scalWaits (ls.getD i ⟨1, 0, 1⟩) (coord ls i p.rank) x.prog.round x.vals).map node else []
  | none => [])

/-- PEER_TIMEOUT (R155): of a receive at a level, from a peer, that is armed and waits. -/
def Dev.peerTimeout (d : Dev) (slot level peer : Nat) : Dev :=
  match d.plan slot with
  | some p => if p.runs ∧ 1 ≤ level ∧ peer ∈ p.awaited (level - 1) then d.declare slot 1 peer level else d
  | none => d

/-- ABORT_RECEIVE. -/
def Dev.abortReceive (d : Dev) (m : AbortMsg) : Dev :=
  match d.msgPlan m.version m.planId m.digest3 m.slice m.origin with
  | none => d.count itCollLost
  | some slot => match d.plan slot with
    | none => d
    | some p =>
      if p.state = .running ∨ p.state = .stopping then
        let d := (d.sendAborts slot m.failed m.reason).planFail slot 3 m.failed m.origin 0
        match p.startX with
        | some x => d.finish x.own stRefused rsStartFail []
        | none => d
      else
        (d.count itCollLost).modPlan slot (fun p => { p with fail := p.fail.map (fun f => { f with aborts := satAdd 32 f.aborts 1 }) })

end Sys2Proof.Machine
end

