-- ==== Sys2Proof/Machine/Emb.lean ====
section
/-! DEFINITION. The embedding service (04_collectives R144 to R153): doorbells, lookups, updates, loads and reads,
the messages between the owners of rows, and completions. -/

namespace Sys2Proof.Machine

/-! ### Tables and their rows (R145) -/

/-- The owner, counted from 0, that holds a row of the table. -/
def EmbTab.ownerOf (t : EmbTab) (row : Nat) : Nat := ((row + 1) * t.shards + t.rows - 1) / t.rows - 1

/-- The rank that holds a row of the table. -/
def EmbTab.rankOf (t : EmbTab) (row : Nat) : Nat := t.firstRank + t.ownerOf row

/-- The format that carries rows and partials of the table between devices (R145). -/
def Plan.embWire (p : Plan) (t : EmbTab) : Nat := ((p.cfgOf t.stream).map (fun s => (Desc.of s.wireFmt).elem)).getD 1

/-- A row's values in binary32 (exact: R145 rows are binary32, bfloat16 or binary16). -/
def Plan.embVec (p : Plan) (t : EmbTab) (row : Nat) : List Nat :=
  (p.embRow t row).vals.map (fun v => (convert t.rowFmt 1 v.toNat .rne false).1)

/-- Store a row. -/
def Plan.putRow (p : Plan) (t : EmbTab) (row : Nat) (r : EmbRow) : Plan :=
  { p with tables := tblPut p.tables t.table (tblPut (tblGetD p.tables t.table []) row r) }

/-- Convert a vector between formats by RNE. -/
def convVec (src dst : Nat) (v : List Nat) : List Nat × Events := mapEv (fun e => convert src dst e .rne false) v

/-! ### Pooling (R149, Table 4.14) -/

/-- A pooled bag: per column the value, the position of a maximum, and the count of rows. -/
structure Pooled where
  vals : List Nat
  args : List Nat
  count : Nat
  deriving DecidableEq, Repr

/-- The maximum of two columns with the position of its first occurrence. -/
def maxAt (a b : Nat × Nat) : Nat × Nat :=
  let va := decodeCode 1 a.1
  let vb := decodeCode 1 b.1
  let m := (encVal 1 (maxVal va vb)).1
  let isA : Bool := va.isNan || (!vb.isNan && a.1 == m)
  let isB : Bool := vb.isNan || (!va.isNan && b.1 == m)
  (m, if isA && isB then min a.2 b.2 else if isA then a.2 else b.2)

/-- Combine two pooled parts of a bag: rows in index order at an owner, partials by rank at the requester. -/
def Pooled.join (pool : Nat) (a b : Pooled) : Pooled × Events :=
  if a.count = 0 then (b, .zero)
  else if b.count = 0 then (a, .zero)
  else if pool = 3 then
    let cols := ((a.vals.zip a.args).zip (b.vals.zip b.args)).map (fun x => maxAt x.1 x.2)
    (⟨cols.map (·.1), cols.map (·.2), a.count + b.count⟩, .zero)
  else
    let s := zipEv (fAdd 1) a.vals b.vals
    (⟨s.1, [], a.count + b.count⟩, s.2)

/-- Pool an owner's rows of one bag: (position, row values, weight) in index order. -/
def poolBag (pool dim : Nat) (items : List (Nat × List Nat × Nat)) : Pooled × Events :=
  if pool = 2 then
    let r := foldEv (fun acc (x : Nat × List Nat × Nat) => zipEv (fun v a => fFma 1 x.2.2 v a) x.2.1 acc)
      (List.replicate dim 0) items
    (⟨r.1, [], items.length⟩, r.2)
  else
    foldEv (fun a (x : Nat × List Nat × Nat) => a.join pool ⟨x.2.1, List.replicate dim x.1, 1⟩) ⟨[], [], 0⟩ items

/-- The bag's result from the joined partials: the mean divides once; an empty bag gives +0 and position
0xFFFF_FFFF. -/
def Pooled.result (pool dim : Nat) (a : Pooled) : Pooled × Events :=
  if a.count = 0 then (⟨List.replicate dim 0, List.replicate dim 0xFFFFFFFF, 0⟩, .zero)
  else if pool = 1 then
    let k := (encVal 1 (ofInt a.count)).1
    let r := mapEv (fun v => fDiv 1 v k) a.vals
    ({ a with vals := r.1 }, r.2)
  else (a, .zero)

/-! ### Row optimizers (R151, R152) -/

/-- The rounding of a new value: R64 in the wide form of R65 when SR is 1. -/
def Plan.embRound (p : Plan) (t : EmbTab) (row j : Nat) : Round :=
  if t.sr then .sr (srRandomWide p.cfg.seed p.step (p.embStream t) (row * t.dim + j)) else .rne

/-- New values of a row in ROW_FMT. -/
def Plan.embStore (p : Plan) (t : EmbTab) (row : Nat) (xs : List Nat) : List W64 × Events :=
  mapIxEv (fun j x =>
    let r := convert 1 t.rowFmt x (p.embRound t row j) false
    (BitVec.ofNat 64 r.1, r.2)) 0 xs

/-- Apply the row optimizer to a row with its summed gradient. -/
def Plan.rowUpdate (p : Plan) (t : EmbTab) (row : Nat) (h : List Nat) : EmbRow × Events :=
  let r := p.embRow t row
  let xs := p.embVec t row
  if t.rowOpt = 0 then
    let n := zipEv (fun g x => fFma 1 (fNeg 1 t.lr.toNat) g x) h xs
    let s := p.embStore t row n.1
    ({ r with vals := s.1 }, n.2.add s.2)
  else if t.rowOpt = 1 then
    let sq := foldEv (fun a g =>
      let m := fMul 1 g g
      let s := fAdd 1 a m.1
      (s.1, m.2.add s.2)) 0 h
    let q := fDiv 1 sq.1 (encVal 1 (ofInt t.dim)).1
    let g' := fAdd 1 r.acc.toNat q.1
    let rt := fSqrt 1 g'.1
    let dn := fAdd 1 rt.1 t.eps.toNat
    let n := zipEv (fun g x =>
      let a := fMul 1 t.lr.toNat g
      let b := fDiv 1 a.1 dn.1
      let c := fSub 1 x b.1
      (c.1, (a.2.add b.2).add c.2)) h xs
    let s := p.embStore t row n.1
    ({ r with vals := s.1, acc := BitVec.ofNat 32 g'.1 },
      [sq.2, q.2, g'.2, rt.2, dn.2, n.2, s.2].foldl Events.add .zero)
  else
    let k := optScalars t.b1 t.b2 t.eps 0 0x3F800000 0x3F800000 t.lr ((p.step - p.cfg.step0).toNat + 1)
    let u := zipEv (fun (e : Nat × Nat) (mv : W32 × W32) => optStep 1 k.1 e.1 e.2 mv.1.toNat mv.2.toNat)
      (h.zip xs) (r.m.zip r.v)
    let s := p.embStore t row (u.1.map (·.1))
    ({ r with vals := s.1, m := u.1.map (fun x => BitVec.ofNat 32 x.2.1), v := u.1.map (fun x => BitVec.ofNat 32 x.2.2) },
      (k.2.add u.2).add s.2)

/-- Sum row gradients of the same row in index order (R151). -/
def sumRows : List (Nat × List Nat) → List (Nat × List Nat) → List (Nat × List Nat) × Events
  | acc, [] => (acc, .zero)
  | acc, x :: t =>
    match acc.find? (fun a => a.1 = x.1) with
    | none => sumRows (acc ++ [x]) t
    | some a =>
      let s := zipEv (fAdd 1) a.2 x.2
      let r := sumRows (acc.map (fun b => if b.1 = x.1 then (b.1, s.1) else b)) t
      (r.1, s.2.add r.2)

/-- Where a byte of the embedding rows that lies in the spill window stands in the plan's part of it (R109). -/
def Plan.embWin (p : Plan) (rel : Nat) : Nat := p.stateBytes - p.spillFrom + (rel - p.embFrom)

/-- A byte of the embedding rows is lost: its granule in the plan's pages, or in the window, carries poison (R164, R180). -/
def Dev.embBad (d : Dev) (p : Plan) (rel : Nat) : Bool :=
  if rel < p.embFrom then d.planBad p (p.embBase + rel) else p.spillBad.contains (p.embWin rel / 64)

/-- A row is lost: a granule that holds a part of it or of its state carries poison. -/
def Dev.rowBad (d : Dev) (p : Plan) (t : EmbTab) (row : Nat) : Bool :=
  (List.range (12 * t.dim)).any (fun i => d.embBad p (p.embRel t row + i))

/-- A row with its state has been written: its part in the plan's pages, and the blocks of the window that hold the rest of
it, sealed again (R109, R164, R179). -/
def Dev.rowWritten (d : Dev) (slot : Nat) (t : EmbTab) (row : Nat) : Dev :=
  match d.plan slot with
  | some p =>
    let lo := p.embRel t row
    let hi := lo + 12 * t.dim
    let d := d.rewritePlan p (p.embBase + lo) (min hi p.embFrom - lo)
    if hi ≤ p.embFrom then d
    else
      let a := p.embWin (max lo p.embFrom)
      let b := p.embWin hi
      d.sealBlocks slot ((List.range ((b + 4095) / 4096 - a / 4096)).map (· + a / 4096))
  | none => d

/-- Apply summed row gradients at the owner, one after another. A row that carries poison keeps its values, and its elements
count as invalid operands (R141). -/
def Dev.applyRows (d : Dev) (slot : Nat) (t : EmbTab) (hs : List (Nat × List Nat)) : Dev :=
  hs.foldl (fun d h => match d.plan slot with
    | some p =>
      if d.rowBad p t h.1 then d.addEvents slot { Events.zero with invalid := t.dim }
      else
        let r := p.rowUpdate t h.1 h.2
        ((d.modPlan slot (fun p => p.putRow t h.1 r.1)).rowWritten slot t h.1).addEvents slot r.2
    | none => d) d

/-- Write loaded rows at the owner; their state is zeroed (R153). -/
def Dev.loadRows (d : Dev) (slot : Nat) (t : EmbTab) (src : Nat) (rs : List (Nat × List Nat)) : Dev :=
  rs.foldl (fun d r =>
    let v := convVec src t.rowFmt r.2
    ((d.modPlan slot (fun p => p.putRow t r.1
      ⟨v.1.map (BitVec.ofNat 64), 0, List.replicate t.dim 0, List.replicate t.dim 0⟩)).rowWritten slot t r.1).addEvents slot v.2) d

/-! ### Descriptors (R147, R148) -/

/-- What the bags of a descriptor hold: (bag, position in the bag, place in the index array, row). READ and LOAD
ignore POOL and bags: their rows are those of the index array. -/
def embItems (e : EmbDesc) (op : Nat) : List (Nat × Nat × Nat × Nat) :=
  if op ≥ 3 then e.indices.mapIdx (fun i r => (0, i, i, bits r 0 40))
  else ((List.range e.bags).map (fun b =>
    let lo := e.offsets.getD b 0
    (List.range (e.offsets.getD (b + 1) 0 - lo)).map (fun i => (b, i, lo + i, bits (e.indices.getD (lo + i) 0) 0 40)))).flatten

/-- The fields of a descriptor that Table 4.11 and R148 hold to: an OP that is not reserved, POOL, BAGS, INDICES, FMT, WEIGHTS
only with POOL 2, and bag boundaries that rise within the index array. -/
def embFieldsOk (e : EmbDesc) (op : Nat) : Bool :=
  e.op == op && e.reservedOk && e.pool ≤ 4 && 1 ≤ e.bags && e.bags ≤ 1048576 && e.indices.length ≤ 16777216 && 1 ≤ e.fmt && e.fmt ≤ 3 &&
  (e.pool == 2 || e.weightsAddr == 0) && (op ≥ 3 || (e.offsets.length == e.bags + 1 && (List.range e.bags).all (fun b =>
    e.offsets.getD b 0 ≤ e.offsets.getD (b + 1) 0) && e.offsets.getD e.bags 0 ≤ e.indices.length))

/-- The addresses of a descriptor lie in the slice's windows on the port of its ring (R148): OFFSETS, INDEX, WEIGHTS, DATA and
ARGMAX_ADDR, each where the OP uses it. -/
def Dev.embDmaOk (d : Dev) (s port : Nat) (t : EmbTab) (op : Nat) (e : EmbDesc) : Bool :=
  let can := fun (a n : Nat) (write : Bool) => n == 0 || (d.slice s).dmaOk port a n write
  let n := e.indices.length
  let bags := decide (op < 3)
  let vecs := if op ≥ 3 ∨ e.pool = 4 then n else e.bags
  (!bags || can e.offsetsAddr (4 * (e.bags + 1)) false) && can e.indexAddr (8 * n) false &&
  (!bags || e.pool != 2 || can e.weightsAddr (4 * n) false) && can e.dataAddr (vecs * t.dim * fmtBytes e.fmt) (op == 1 || op == 4) &&
  (!bags || !e.argmax || can e.argmaxAddr (4 * e.bags * t.dim) (op == 1))

/-- An owner of rows is lost: another rank without an open session (R153) (DEDUCED, log 40). -/
def Dev.ownerLost (d : Dev) (slot : Nat) (p : Plan) (rank : Nat) : Bool :=
  rank != p.rank && (d.planSession slot (p.cfg.sched.peers.getD rank 0)).isNone

/-- The row gradients of an UPDATE (R151), in index order, of the valid rows. -/
def embRowGrads (e : EmbDesc) (t : EmbTab) : List (Nat × List Nat) × Events :=
  let valid := (embItems e 2).filter (fun x => x.2.2.2 < t.rows)
  let data := e.data.map (fun v => (convVec e.fmt 1 (v.map (·.toNat))).1)
  let r := mapEv (fun (x : Nat × Nat × Nat × Nat) =>
    let g := data.getD x.1 []
    match e.pool with
    | 1 =>
      let k := (encVal 1 (ofInt (valid.filter (fun y => y.1 = x.1)).length)).1
      let q := mapEv (fun v => fDiv 1 v k) g
      ((x.2.2.2, q.1), q.2)
    | 2 =>
      let q := mapEv (fun v => fMul 1 (e.weights.getD x.2.2.1 0).toNat v) g
      ((x.2.2.2, q.1), q.2)
    | 3 =>
      let args := e.argmaxIn.getD x.1 []
      ((x.2.2.2, g.mapIdx (fun j v => if args.getD j 0xFFFFFFFF = x.2.1 then v else 0)), .zero)
    | 4 => ((x.2.2.2, data.getD x.2.2.1 []), .zero)
    | _ => ((x.2.2.2, g), Events.zero)) (valid.filter (fun x => e.pool != 3 || (e.argmaxIn.getD x.1 []).contains x.2.1))
  let s := sumRows [] r.1
  (s.1, r.2.add s.2)

/-- The rows of a LOAD, in index order, as encodings of FMT. -/
def embLoads (e : EmbDesc) (t : EmbTab) : List (Nat × List Nat) :=
  ((embItems e 3).filter (fun x => x.2.2.2 < t.rows)).map (fun x => (x.2.2.2, (e.data.getD x.2.1 []).map (·.toNat)))

/-- The request or update of a descriptor for one owner. -/
def Plan.embAsk (p : Plan) (t : EmbTab) (acc op : Nat) (e : EmbDesc) (rank : Nat) : EmbPart × Events :=
  if op = 2 ∨ op = 3 then
    let rs := (if op = 2 then (embRowGrads e t).1 else embLoads e t).filter (fun r => t.rankOf r.1 = rank)
    let v := if op = 2 then (rs.map (·.2), Events.zero) else mapEv (convVec e.fmt (p.embWire t)) (rs.map (·.2))
    (⟨acc, e.tag, op, e.pool, t.table, [rs.mapIdx (fun i r => (i, r.1))], [], v.1.map (·.map (BitVec.ofNat 32)), [], [], []⟩, v.2)
  else
    let mine := (embItems e op).filter (fun x => x.2.2.2 < t.rows && t.rankOf x.2.2.2 = rank)
    let bags := List.range (if op = 4 then 1 else e.bags)
    (⟨acc, e.tag, op, e.pool, t.table, bags.map (fun b => (mine.filter (fun x => x.1 = b)).map (fun x => (x.2.1, x.2.2.2))),
      bags.map (fun b => (mine.filter (fun x => x.1 = b)).map (fun x => e.weights.getD x.2.2.1 0)), [], [], [], []⟩, .zero)

/-- An owner's answer to a request (R149, R153): pooled bags, or its rows, in a format; `bad` says which rows carry poison, and
the vectors that they feed are marked. -/
def Plan.embAnswer (p : Plan) (t : EmbTab) (bad : Nat → Bool) (q : EmbPart) (fmt : Nat) : EmbPart × Events :=
  if q.op = 4 ∨ q.pool = 4 then
    let v := mapEv (fun (x : Nat × Nat) => convVec t.rowFmt fmt ((p.embRow t x.2).vals.map (·.toNat))) q.rows.flatten
    ({ q with vals := v.1.map (·.map (BitVec.ofNat 32)), marks := q.rows.flatten.map (fun x => bad x.2) }, v.2)
  else
    let v := mapIxEv (fun b (rs : List (Nat × Nat)) =>
      let r := poolBag q.pool t.dim (rs.mapIdx (fun i x => (x.1, p.embVec t x.2, ((q.weights.getD b []).getD i 0).toNat)))
      let c := convVec 1 fmt r.1.vals
      ((c.1, r.1.args, r.1.count), r.2.add c.2)) 0 q.rows
    ({ q with vals := v.1.map (fun x => x.1.map (BitVec.ofNat 32)), args := v.1.map (·.2.1), counts := v.1.map (·.2.2)
              marks := q.rows.map (fun rs => rs.any (fun x => bad x.2)) }, v.2)

/-- The output of a LOOKUP or READ. -/
structure EmbOut where
  /-- Vectors in FMT, each with its poison mark. -/
  vecs : List (List Nat × Bool)
  /-- The ARGMAX array. -/
  args : List (List Nat)
  deriving DecidableEq, Repr

/-- The output of a descriptor from its partials by rank (R149). -/
def Plan.embOutput (p : Plan) (t : EmbTab) (j : EmbJob) : EmbOut × Events :=
  let e := j.desc
  let wire := fun (r : Nat) => if r = p.rank then 1 else p.embWire t
  if j.op = 4 ∨ e.pool = 4 then
    let found := (j.parts.map (fun x => ((x.2.rows.mapIdx (fun b rs => rs.map (fun y => (b, y.1)))).flatten).zip
      (x.2.vals.mapIdx (fun i v => ((convVec (wire x.1) 1 (v.map (·.toNat))).1, x.2.marks.getD i false))))).flatten
    let o := mapEv (fun (x : Nat × Nat × Nat × Nat) => match found.find? (fun f => f.1 = (x.1, x.2.1)) with
      | some f => (let c := convVec 1 e.fmt f.2.1; ((c.1, f.2.2), c.2))
      | none => ((List.replicate t.dim 0, false), Events.zero)) (embItems e j.op)
    (⟨o.1, []⟩, o.2)
  else
    let o := mapEv (fun b =>
      let ps := j.parts.map (fun x => (⟨(convVec (wire x.1) 1 ((x.2.vals.getD b []).map (·.toNat))).1,
        x.2.args.getD b [], x.2.counts.getD b 0⟩ : Pooled))
      let s := foldEv (fun (a q : Pooled) => a.join e.pool q) ⟨[], [], 0⟩ ps
      let r := s.1.result e.pool t.dim
      let c := convVec 1 e.fmt r.1.vals
      (((c.1, j.parts.any (fun x => x.2.marks.getD b false)), r.1.args), (s.2.add r.2).add c.2)) (List.range e.bags)
    (⟨o.1.map (·.1), if e.argmax && e.pool == 3 then o.1.map (·.2) else []⟩, o.2)

/-- Send a message of the embedding service (R133). -/
def Dev.sendEmb (d : Dev) (p : Plan) (t : EmbTab) (node type : Nat) (q : EmbPart) : Dev :=
  d.sendColl p node type 0 (p.embStream t) 0 0 (.emb q)

/-- Change the job of an accelerator's tag. -/
def Dev.modJob (d : Dev) (slot acc : Nat) (tag : BitVec 16) (f : EmbJob → EmbJob) : Dev :=
  d.modPlan slot (fun p =>
    let i := p.jobs.findIdx (fun j => j.acc = acc && j.desc.tag == tag && !j.waiting.isEmpty)
    { p with jobs := modAt p.jobs i f })

/-- The effects on this device's rows of a descriptor that every other owner has answered. -/
def Dev.embLocal (d : Dev) (slot : Nat) (t : EmbTab) (op : Nat) (e : EmbDesc) : Dev :=
  match d.plan slot with
  | some p =>
    if op = 2 then
      let g := embRowGrads e t
      (d.addEvents slot g.2).applyRows slot t (g.1.filter (fun r => t.rankOf r.1 = p.rank))
    else if op = 3 then d.loadRows slot t e.fmt ((embLoads e t).filter (fun r => t.rankOf r.1 = p.rank))
    else d
  | none => d

/-- EMB_DOORBELL_WRITE (R147, R256, R257): the tail moves, and the entries posted are read. -/
def Dev.embDoorbell (d : Dev) (via : Via) (slot acc size : Nat) (val : W32) (poisoned : Bool) : Dev :=
  match d.pageOk via size 4 poisoned, d.plan slot with
  | some s, some p => match p.cfg.embQ[acc]? with
    | some q =>
      if p.slice ≠ s ∨ val.toNat ≥ 65536 ∨ q.ringReg = 0xFFFF then d.bellLost via
      else
        let r := tblGetD p.rings acc ⟨0, 0, 0⟩
        let tail := val.toNat % q.depth
        let was := r.tail
        let d := d.modPlan slot (fun p => { p with rings := tblPut p.rings acc { r with tail := tail } })
        match p.cfg.sched.regions[q.ringReg]? with
        | some g => (List.range ((tail + q.depth - was) % q.depth)).foldl (fun d i =>
            d.readSlice p.slice g.port (.emb slot acc) (g.addr + q.ringOff + 64 * ((was + i) % q.depth)) 64) d
        | none => d
    | none => d.bellLost via
  | _, _ => (d.bellLost via).notePoison via poisoned

def stDmaFault : Nat := 0x0110
def stPeerFailed : Nat := 0x0111

/-- A descriptor of an OP is fetched and run (R147 to R153): of a slice that fetches new work (Table 8.10), while its read is
not held back (R273). -/
def Dev.embRun (d : Dev) (op slot acc : Nat) (e : EmbDesc) : Dev :=
  match d.plan slot with
  | some p =>
    let r := tblGetD p.rings acc ⟨0, 0, 0⟩
    match p.cfg.embQ[acc]? with
    | none => d
    | some q =>
      if q.ringReg = 0xFFFF ∨ r.fetched = r.tail ∨ (p.held ∧ !p.took) ∨ (d.slice p.slice).state ≠ .active ∨ d.readHeld (.emb slot acc) then d
      else
        let d := d.modPlan slot (fun p => { p with rings := tblPut p.rings acc { r with fetched := (r.fetched + 1) % q.depth } })
        let job := fun st bad waiting parts => ({ acc := acc, op := op, desc := e, status := st, waiting := waiting,
                                                  parts := parts, bad := bad } : EmbJob)
        let push := fun (d : Dev) (j : EmbJob) => d.modPlan slot (fun p => { p with jobs := p.jobs ++ [j] })
        if p.state = .failed then push d (job stPeerFailed 0 [] [])
        else match p.embTab e.table with
        | none => push d (job stRefused 0 [] [])
        | some t =>
          if !embFieldsOk e op then push d (job stRefused 0 [] [])
          else if !d.embDmaOk p.slice ((p.cfg.sched.regions[q.ringReg]?.map (·.port)).getD 0) t op e then push d (job stDmaFault 0 [] [])
          else
            let rows := (embItems e op).map (·.2.2.2)
            let bad := (rows.filter (fun r => r ≥ t.rows)).length
            let owners := (rows.filter (fun r => r < t.rows)).foldl (fun l r => addOnce l (t.rankOf r)) []
            if owners.any (d.ownerLost slot p) then push d (job stPeerFailed 0 [] [])
            else
              let others := owners.filter (fun r => r != p.rank)
              let own := p.embAsk t acc op e p.rank
              let mine := if op = 1 ∨ op = 4 then p.embAnswer t (d.rowBad p t) own.1 1 else (own.1, Events.zero)
              let d := (push d (job stOk bad others (if owners.contains p.rank then [(p.rank, mine.1)] else []))).addEvents slot mine.2
              let d := others.foldl (fun d r =>
                let a := p.embAsk t acc op e r
                let node := p.cfg.sched.peers.getD r 0
                (d.sendEmb p t node (if op = 1 ∨ op = 4 then 6 else 8) a.1).addEvents slot a.2) d
              if others.isEmpty then d.embLocal slot t op e else d
  | none => d

/-- EMB_REQ_RECEIVE: an owner answers with its partial in the table's wire format. -/
def Dev.embReqReceive (d : Dev) (m : CollMsg) (q : EmbPart) : Dev :=
  match (d.msgPlan m.version m.planId m.digest3 m.slice m.origin) with
  | none => d.count itCollLost
  | some slot => match d.plan slot with
    | none => d
    | some p => match p.embTab q.table with
      | none => d.count itCollLost
      | some t =>
        if p.state = .failed ∨ !q.rows.flatten.all (fun x => x.2 < t.rows && t.rankOf x.2 = p.rank) then d.count itCollLost
        else
          let a := p.embAnswer t (d.rowBad p t) q (p.embWire t)
          (d.sendEmb p t m.origin 7 a.1).addEvents slot a.2

/-- EMB_UPD_RECEIVE: an owner applies row gradients, or writes loaded rows, and answers that it has. -/
def Dev.embUpdReceive (d : Dev) (m : CollMsg) (q : EmbPart) : Dev :=
  match (d.msgPlan m.version m.planId m.digest3 m.slice m.origin) with
  | none => d.count itCollLost
  | some slot => match d.plan slot with
    | none => d
    | some p => match p.embTab q.table with
      | none => d.count itCollLost
      | some t =>
        let rs := (q.rows.flatten.map (·.2)).zip (q.vals.map (·.map (·.toNat)))
        if p.state = .failed ∨ !rs.all (fun x => x.1 < t.rows && t.rankOf x.1 = p.rank) then d.count itCollLost
        else
          let d := if q.op = 3 then d.loadRows slot t (p.embWire t) rs else d.applyRows slot t rs
          d.sendEmb p t m.origin 7 { q with vals := [], weights := [] }

/-- EMB_RESP_RECEIVE: an owner's partial or answer; the last one lets this device's own rows take effect. -/
def Dev.embRespReceive (d : Dev) (m : CollMsg) (q : EmbPart) : Dev :=
  match (d.msgPlan m.version m.planId m.digest3 m.slice m.origin) with
  | none => d.count itCollLost
  | some slot => match d.plan slot with
    | none => d
    | some p =>
      let rank := p.cfg.sched.peers.findIdx (fun n => n = m.origin)
      match p.jobs.find? (fun j => j.acc = q.acc && j.desc.tag == q.tag && !j.waiting.isEmpty), p.embTab q.table with
      | some j, some t =>
        if p.state = .failed ∨ !j.waiting.contains rank then d.count itCollLost
        else
          let rest := j.waiting.filter (fun r => r != rank)
          let put := fun (l : List (Nat × EmbPart)) => l.filter (fun x => x.1 < rank) ++ (rank, q) :: l.filter (fun x => x.1 > rank)
          let d := d.modJob slot q.acc q.tag (fun j => { j with waiting := rest, parts := put j.parts })
          if rest.isEmpty then d.embLocal slot t j.op j.desc else d
      | _, _ => d.count itCollLost

/-- Write the outputs of a descriptor: DATA, and the ARGMAX array. -/
def Dev.embWrite (d : Dev) (slot : Nat) (p : Plan) (port : Nat) (t : EmbTab) (j : EmbJob) : Dev :=
  let o := p.embOutput t j
  let w := fmtBytes j.desc.fmt
  let data := (o.1.vecs.map (fun v => (v.1.map (le w)).flatten)).flatten
  let args := (o.1.args.map (fun v => (v.map (le 4)).flatten)).flatten
  let a := j.desc.dataAddr
  let n := max 1 (w * t.dim)
  let marks := if o.1.vecs.any (·.2) then (granulesOf a data.length).map (fun g =>
      (List.range o.1.vecs.length).any (fun i => (o.1.vecs.getD i ([], false)).2 && (granulesOf (a + i * n) n).contains g)) else []
  let d := if data.isEmpty then d else d.dmaSlice p.slice port a data marks true
  let d := if args.isEmpty then d else d.dmaSlice p.slice port j.desc.argmaxAddr args [] true
  d.addEvents slot o.2

/-- EMB_COMPLETION (R147, R148, R153): a descriptor that every owner has applied or answered completes, and one that
still waits when its plan has failed, or for an owner that is lost, ends with PEER_FAILED: its outputs are written, then its
16 B completion. -/
def Dev.embComplete (d : Dev) (slot acc : Nat) (tag : BitVec 16) : Dev :=
  match d.plan slot with
  | some p =>
    let i := p.jobs.findIdx (fun j => j.acc = acc && j.desc.tag == tag && (j.waiting.isEmpty || p.state == .failed || j.waiting.any (d.ownerLost slot p)))
    match p.jobs[i]?, p.cfg.embQ[acc]? with
    | some j, some q =>
      let st := if j.status = stOk ∧ !j.waiting.isEmpty then stPeerFailed else j.status
      let r := tblGetD p.rings acc ⟨0, 0, 0⟩
      let d := d.modPlan slot (fun p => { p with
        jobs := p.jobs.eraseIdx i
        rings := tblPut p.rings acc { r with cqPos := r.cqPos + 1 } })
      match p.cfg.sched.regions[q.cqReg]? with
      | some g =>
        let d := match p.embTab j.desc.table with
          | some t => if st = stOk ∧ (j.op = 1 ∨ j.op = 4) then d.embWrite slot p g.port t j else d
          | none => d
        let phase := b2n (r.cqPos / q.depth % 2 == 0)
        d.dmaSlice p.slice g.port (g.addr + q.cqOff + 16 * (r.cqPos % q.depth))
          (le 2 tag.toNat ++ le 2 st ++ le 4 (min j.bad (2 ^ 31 - 1) + 2 ^ 31 * phase) ++ le 8 d.stamp.toNat) [] false
      | none => d
    | _, _ => d
  | none => d

end Sys2Proof.Machine
end

