-- ==== Sys2Proof/Machine/Kerf.lean ====
section
/-! DEFINITION. Kerf-36 instructions (11_kerf_cores R333 to R345, R350): registers and their sidecar bits, local
memory and fabric segments, exceptions and interrupts, repeat prefixes, control registers, arithmetic, branches,
CRC and sync operations. A command names the core that executes the instruction at its program counter and the
bits of the instruction below its opcode. -/

namespace Sys2Proof.Machine

/-! ### Words and registers (R333, R334) -/

/-- A word of data with a poison bit; its user bits are 0. -/
def word (v : Nat) (p : Bool) : W36 := BitVec.ofNat 36 (v % 2 ^ 32 + 2 ^ 32 * b2n p)

/-- A register; k0 reads as 0. -/
def Core.reg (k : Core) (n : Nat) : W36 := if n = 0 then 0 else tblGetD k.regs n 0

/-- The data of a register. -/
def Core.data (k : Core) (n : Nat) : W32 := (k.reg n).truncate 32

/-- The poison bit of a register. -/
def Core.pois (k : Core) (n : Nat) : Bool := (k.reg n).getLsbD 32

/-- Write a register; a write to k0 is discarded. -/
def Core.setReg (k : Core) (n : Nat) (v : W36) : Core := if n = 0 then k else { k with regs := tblPut k.regs n v }

/-- Write a register of a core. -/
def Dev.setReg (d : Dev) (c n : Nat) (v : W36) : Dev := d.modCore c (fun k => k.setReg n v)

/-- A field of `w` bits, sign-extended. -/
def sext (w v : Nat) : Int := if v % 2 ^ w ≥ 2 ^ (w - 1) then (v % 2 ^ w : Nat) - (2 ^ w : Nat) else (v % 2 ^ w : Nat)

/-- A 32-bit word of an integer. -/
def w32 (i : Int) : W32 := BitVec.ofInt 32 i

/-! ### Exceptions and interrupts (R341, R343, R344, Table 11.7) -/

/-- How an instruction ends: it completes, and jumps when it names a parcel; it cannot go on yet; or it raises an
exception of Table 11.7 with a value for EVAL. -/
inductive KRes where
  | ok (d : Dev) (jump : Option Nat)
  | stall (d : Dev)
  | exc (d : Dev) (code : Nat) (val : Option Nat)

/-- The program of a sequencer core ends, and its plan fails (R343). -/
def Dev.programFault (d : Dev) (c : Nat) : Dev :=
  let d := d.modCore c (fun k => { k with state := .halted, pre := none })
  match d.planOfCore c with
  | some slot => d.planFail slot 6 d.node d.node (d.core c).logical
  | none => d

/-- Take an exception or interrupt at a parcel (R341): EPC, ECAUSE and EVAL are saved with the position in a
repetition (R340), EXL is set, and the core goes to EVEC; with EXL set already the core stops as a crash. An EVAL
for which the manual names no value is free (DESIGN CHOICE, log 3). -/
def Dev.trap (d : Dev) (c code : Nat) (val : Option Nat) (imprecise : Bool) (epc : Nat) (pre : Option RepPrefix) : Dev :=
  let d := if code < 16 then d.count 0x700 else d
  let cause := BitVec.ofNat 32 (code + 32 * b2n imprecise)
  let d := if code < 16 then d.modCore c (fun k => { k with exc := satAdd 16 k.exc 1 }) else d
  if isSeq c ∧ code = 7 ∧ d.flag F.KRF_CORE_CTRL_DEBUG c then
    d.modCore c (fun k => { k with state := .debug, ecause := cause, pre := none })
  else if isSeq c ∧ code ≤ 9 then (d.modCore c (fun k => { k with ecause := cause, epc := BitVec.ofNat 32 epc })).programFault c
  else if (d.core c).exl then d.modCore c (fun k => { k with state := .crashed, ecause := cause, pre := none })
  else
    let f := d.fresh
    let v : W64 := match val with
      | some v => BitVec.ofNat 64 v
      | none => f.1
    f.2.modCore c (fun k => { k with
      epc := BitVec.ofNat 32 epc
      ecause := cause
      eval := v.truncate 32
      evalh := (v >>> 32).truncate 32
      exl := true
      rep := pre.isSome
      savedRepx := (pre.map (·.repx)).getD false
      repcnt := match pre with
        | some p => BitVec.ofNat 32 p.left
        | none => k.repcnt
      pre := none
      pc := k.evec.toNat % 2 ^ 19 })

/-- An interrupt that the core would take is pending. -/
def Core.irqPend (k : Core) : Bool := (k.smpPend && k.smpe) || k.mboxPend

/-- An instruction boundary of a core (R340, R341, R344): SYNC_SAT, then a sampling interrupt, then a mailbox
interrupt. Within a REPX nothing is taken. -/
def Dev.boundary (d : Dev) (c : Nat) : Dev :=
  let k := d.core c
  let inRepx : Bool := match k.pre with
    | some p => p.repx
    | none => false
  if k.state ≠ .running ∨ inRepx then d
  else match k.satPend with
  | some n => (d.modCore c (fun k => { k with satPend := none })).trap c 9 (some n) false k.pc k.pre
  | none =>
    if !k.ie ∨ k.exl then d
    else if k.smpPend ∧ k.smpe then (d.modCore c (fun k => { k with smpPend := false })).trap c 16 none false k.pc k.pre
    else if k.mboxPend then (d.modCore c (fun k => { k with mboxPend := false })).trap c 17 none false k.pc k.pre
    else d

/-- End a WFI when an interrupt pends. -/
def Dev.wake (d : Dev) (c : Nat) : Dev :=
  let k := d.core c
  if k.state = .waitIrq ∧ k.irqPend then d.modCore c (fun k => { k with state := .running }) else d

/-- INTERRUPT_TAKE: another block interrupts the core (R341); the interrupt pends until it can be taken. -/
def Dev.interrupt (d : Dev) (c : Nat) : Dev :=
  if (d.core c).state = .off then d else ((d.modCore c (fun k => { k with mboxPend := true })).wake c).boundary c

/-- SAMPLING_INTERRUPT (R344, R440): an overflow of the event that TLY_SMP_CFG selects for the core; a second one
while one pends is counted and lost. -/
def Dev.sampling (d : Dev) (c : Nat) : Dev :=
  let k := d.core c
  if !d.flag F.TLY_SMP_CFG_EN c ∨ k.state = .off then d
  else if k.smpPend then d.count 0x702
  else
    let e := d.fld F.TLY_SMP_CFG_EVENT c
    ((d.modCore c (fun k => { k with smpPend := true, smpEvent := e })).wake c).boundary c

/-- DEBUG_RESUME (R343): DEBUG is 0 again, and the core goes on behind the BRK. -/
def Dev.debugResume (d : Dev) (c : Nat) : Dev :=
  let d := d.setFlag F.KRF_CORE_CTRL_DEBUG c false
  if (d.core c).state = .debug then d.modCore c (fun k => { k with state := .running, pc := (k.pc + 1) % 2 ^ 19 }) else d

/-! ### Executing an instruction (R339, R340) -/

/-- How an instruction may be repeated: by REP, by REPX, and the base register that each repetition of a memory
instruction advances, with the amount. -/
structure RepUse where
  rep : Bool
  repx : Bool
  base : Option (Nat × Nat)

/-- No prefix may stand before the instruction. -/
def noRep : RepUse := ⟨false, false, none⟩

/-- Any prefix may stand before the instruction. -/
def anyRep : RepUse := ⟨true, true, none⟩

/-- Advance the base register of a repeated memory instruction. -/
def Dev.advance (d : Dev) (c : Nat) : Option (Nat × Nat) → Dev
  | some (n, by_) => d.modCore c (fun k => k.setReg n (word (k.data n + BitVec.ofNat 32 by_).toNat (k.pois n)))
  | none => d

/-- Execute an instruction of some parcels on a running core: alone, or as one repetition under a prefix. -/
def Dev.insn (d : Dev) (c parcels : Nat) (u : RepUse) (f : Dev → KRes) : Dev :=
  let k := d.core c
  if k.state ≠ .running then d
  else match k.pre with
  | none => match f d with
    | .ok d j => (d.modCore c (fun k => { k with pc := (j.getD (k.pc + parcels)) % 2 ^ 19 })).boundary c
    | .stall d => d
    | .exc d code val => d.trap c code val false k.pc none
  | some p =>
    if !(if p.repx then u.repx else u.rep) then
      (d.modCore c (fun k => { k with pre := none })).trap c 1 none false ((k.pc + (2 ^ 19 - 1)) % 2 ^ 19) none
    else if p.left = 0 then
      (d.modCore c (fun k => { k with pre := none, pc := (k.pc + parcels) % 2 ^ 19 })).boundary c
    else match f d with
    | .ok d _ =>
      ((d.advance c u.base).modCore c (fun k => if p.left = 1 then { k with pre := none, pc := (k.pc + parcels) % 2 ^ 19 }
        else { k with pre := some { p with left := p.left - 1 } })).boundary c
    | .stall d => d
    | .exc d code val => d.trap c code val false k.pc (some p)

/-- An instruction that only writes a register. -/
def Dev.insnReg (d : Dev) (c parcels : Nat) (u : RepUse) (rd : Nat) (f : Core → W36) : Dev :=
  d.insn c parcels u (fun d => .ok (d.setReg c rd (f (d.core c))) none)

/-! ### Fields of instructions (Tables 11.3 and 11.4) -/

/-- Bits [12:8] of a short instruction. -/
def sRd (w : BitVec 13) : Nat := bits w.toNat 8 5
/-- Bits [7:3] of a short instruction. -/
def sRs (w : BitVec 13) : Nat := bits w.toNat 3 5
/-- Bits [2:0] of a short instruction. -/
def sFn (w : BitVec 13) : Nat := bits w.toNat 0 3
/-- Bits [7:0] of a short instruction. -/
def sImm (w : BitVec 13) : Nat := bits w.toNat 0 8
/-- rd of a long instruction. -/
def lRd (w : BitVec 29) : Nat := bits w.toNat 24 5
/-- rs1 of a long instruction. -/
def lRs1 (w : BitVec 29) : Nat := bits w.toNat 19 5
/-- rs2 of format R. -/
def lRs2 (w : BitVec 29) : Nat := bits w.toNat 14 5
/-- fn of format R. -/
def lFn (w : BitVec 29) : Nat := bits w.toNat 8 6
/-- imm19 of format I. -/
def lImm (w : BitVec 29) : Nat := bits w.toNat 0 19
/-- Segment of format M. -/
def lSeg (w : BitVec 29) : Nat := bits w.toNat 16 3
/-- Offset of format M. -/
def lOff (w : BitVec 29) : Int := sext 16 w.toNat
/-- Offset of format B. -/
def lOffB (w : BitVec 29) : Int := sext 24 w.toNat
/-- Counter of format S. -/
def lCtr (w : BitVec 29) : Nat := bits w.toNat 10 6
/-- imm10 of format S. -/
def lImm10 (w : BitVec 29) : Nat := bits w.toNat 0 10

/-- The parcel address that an offset reaches. -/
def jumpTo (pc : Nat) (off : Int) : Nat := ((pc + off) % 2 ^ 19).toNat

/-- Raise ILLEGAL_INSN unless a field is as Tables 11.3 to 11.6 list it. -/
def Dev.legal (d : Dev) (ok : Bool) (r : KRes) : KRes := if ok then r else .exc d 1 none

/-! ### Integer arithmetic (Tables 11.3, 11.4 and 11.5) -/

/-- One if it holds. -/
def flag32 (b : Bool) : W32 := if b then 1 else 0

/-- Zeros above the highest one of a word. -/
def clz32 (a : W32) : Nat := if a = 0 then 32 else 31 - Nat.log2 a.toNat

/-- Functions 0x00 to 0x1B of ALU; the quotient of −2^31 by −1, which no rule states, is a free value `f`. -/
def aluFn (fn : Nat) (f a b : W32) : Option W32 :=
  let sh := bits b.toNat 0 5
  match fn with
  | 0x00 => some (a + b)
  | 0x01 => some (a - b)
  | 0x02 => some (a &&& b)
  | 0x03 => some (a ||| b)
  | 0x04 => some (a ^^^ b)
  | 0x05 => some (~~~(a ||| b))
  | 0x06 => some (a <<< sh)
  | 0x07 => some (a >>> sh)
  | 0x08 => some (a.sshiftRight sh)
  | 0x09 => some (a * b)
  | 0x0A => some (w32 (a.toInt * b.toInt / 2 ^ 32))
  | 0x0B => some (BitVec.ofNat 32 (a.toNat * b.toNat / 2 ^ 32))
  | 0x0C => some (if b = 0 then 0xFFFFFFFF else if a = 0x80000000 ∧ b = 0xFFFFFFFF then f else w32 (a.toInt.tdiv b.toInt))
  | 0x0D => some (if b = 0 then 0xFFFFFFFF else BitVec.ofNat 32 (a.toNat / b.toNat))
  | 0x0E => some (if b = 0 then a else w32 (a.toInt.tmod b.toInt))
  | 0x0F => some (if b = 0 then a else BitVec.ofNat 32 (a.toNat % b.toNat))
  | 0x10 => some (flag32 (a == b))
  | 0x11 => some (flag32 (a != b))
  | 0x12 => some (flag32 (a.slt b))
  | 0x13 => some (flag32 (a.ult b))
  | 0x14 => some (flag32 (a.sle b))
  | 0x15 => some (flag32 (a.ule b))
  | 0x16 => some (if a.sle b then a else b)
  | 0x17 => some (if a.sle b then b else a)
  | 0x18 => some (if a.ule b then a else b)
  | 0x19 => some (if a.ule b then b else a)
  | 0x1A => some (BitVec.ofNat 32 (popcount 32 a.toNat))
  | 0x1B => some (BitVec.ofNat 32 (clz32 a))
  | _ => none

/-- Shifts of SHI and SHI.S: 0 SLL, 1 SRL, 2 SRA. -/
def shiftFn (kind sh : Nat) (a : W32) : W32 :=
  match kind with
  | 0 => a <<< sh
  | 1 => a >>> sh
  | _ => a.sshiftRight sh

/-- ALU.S. -/
def Dev.kAluS (d : Dev) (c : Nat) (w : BitVec 13) : Dev :=
  d.insnReg c 1 anyRep (sRd w) (fun k =>
    let p := k.pois (sRd w) || k.pois (sRs w)
    let a := k.data (sRd w)
    let b := k.data (sRs w)
    match sFn w with
    | 0 => word (a + b).toNat p
    | 1 => word (a - b).toNat p
    | 2 => word (a &&& b).toNat p
    | 3 => word (a ||| b).toNat p
    | 4 => word (a ^^^ b).toNat p
    | 5 => k.reg (sRs w)
    | 6 => word (flag32 (a.slt b)).toNat p
    | _ => word (flag32 (a.ult b)).toNat p)

/-- ADDI.S. -/
def Dev.kAddiS (d : Dev) (c : Nat) (w : BitVec 13) : Dev :=
  d.insnReg c 1 anyRep (sRd w) (fun k => word (k.data (sRd w) + w32 (sext 8 (sImm w))).toNat (k.pois (sRd w)))

/-- LI.S. -/
def Dev.kLiS (d : Dev) (c : Nat) (w : BitVec 13) : Dev :=
  d.insnReg c 1 anyRep (sRd w) (fun _ => word (w32 (sext 8 (sImm w))).toNat false)

/-- SHI.S. -/
def Dev.kShiS (d : Dev) (c : Nat) (w : BitVec 13) : Dev :=
  d.insn c 1 anyRep (fun d => d.legal (sFn w ≤ 2)
    (let k := d.core c
     .ok (d.setReg c (sRd w) (word (shiftFn (sFn w) (sRs w) (k.data (sRd w))).toNat (k.pois (sRd w)))) none))

/-- ALU. -/
def Dev.kAlu (d : Dev) (c : Nat) (w : BitVec 29) : Dev :=
  d.insn c 2 anyRep (fun d =>
    let k := d.core c
    let a := k.reg (lRs1 w)
    let b := k.reg (lRs2 w)
    let unary := lFn w == 0x1A || lFn w == 0x1B
    let p := a.getLsbD 32 || (!unary && b.getLsbD 32)
    let f := d.fresh
    if bits w.toNat 0 8 ≠ 0 then .exc d 1 none
    else match lFn w with
    | 0x1C => .ok (d.setReg c (lRd w) (BitVec.ofNat 36 (a.toNat % 2 ^ 33 + 2 ^ 33 * (b.toNat % 8)))) none
    | 0x1D => .ok (d.setReg c (lRd w) (word (bits a.toNat 33 3) (a.getLsbD 32))) none
    | 0x1E => .ok (d.setReg c (lRd w) (BitVec.ofNat 36 (putBits a.toNat 32 1 (b.toNat % 2)))) none
    | 0x1F => .ok (d.setReg c (lRd w) (word (bits a.toNat 32 1) (a.getLsbD 32))) none
    | fn => match aluFn fn (f.1.truncate 32) (a.truncate 32) (b.truncate 32) with
      | some v => .ok (f.2.setReg c (lRd w) (word v.toNat p)) none
      | none => .exc d 1 none)

/-- An ALU instruction of format I. -/
def Dev.kImm (d : Dev) (c : Nat) (w : BitVec 29) (f : W32 → W32) : Dev :=
  d.insnReg c 2 anyRep (lRd w) (fun k => word (f (k.data (lRs1 w))).toNat (k.pois (lRs1 w)))

/-- imm19 of an instruction, sign-extended. -/
def lSext (w : BitVec 29) : W32 := w32 (sext 19 (lImm w))

/-- imm19 of an instruction, zero-extended. -/
def lZext (w : BitVec 29) : W32 := BitVec.ofNat 32 (lImm w)

/-- LUI: rs1 is k0. -/
def Dev.kLui (d : Dev) (c : Nat) (w : BitVec 29) : Dev :=
  d.insn c 2 anyRep (fun d => d.legal (lRs1 w = 0) (.ok (d.setReg c (lRd w) (word (lImm w * 2 ^ 13) false)) none))

/-- SHI. -/
def Dev.kShi (d : Dev) (c : Nat) (w : BitVec 29) : Dev :=
  d.insn c 2 anyRep (fun d => d.legal (bits w.toNat 5 2 ≤ 2 && bits w.toNat 7 12 = 0)
    (let k := d.core c
     .ok (d.setReg c (lRd w) (word (shiftFn (bits w.toNat 5 2) (bits w.toNat 0 5) (k.data (lRs1 w))).toNat (k.pois (lRs1 w)))) none))

/-! ### Branches and jumps -/

/-- A conditional branch: taken when the register is 0, or when it is not. -/
def Dev.kBranch (d : Dev) (c parcels rs : Nat) (zero : Bool) (off : Int) : Dev :=
  d.insn c parcels noRep (fun d =>
    let k := d.core c
    if k.pois rs then .exc d 3 none
    else .ok d (if (k.data rs == 0) == zero then some (jumpTo k.pc off) else none))

/-- J.S. -/
def Dev.kJumpS (d : Dev) (c : Nat) (w : BitVec 13) : Dev :=
  d.insn c 1 noRep (fun d => .ok d (some (jumpTo (d.core c).pc (sext 13 w.toNat))))

/-- JR.S. -/
def Dev.kJrS (d : Dev) (c : Nat) (w : BitVec 13) : Dev :=
  d.insn c 1 noRep (fun d => d.legal (sImm w = 0)
    (if (d.core c).pois (sRd w) then .exc d 3 none else .ok d (some (((d.core c).data (sRd w)).toNat % 2 ^ 19))))

/-- JAL. -/
def Dev.kJal (d : Dev) (c : Nat) (w : BitVec 29) : Dev :=
  d.insn c 2 noRep (fun d =>
    let k := d.core c
    .ok (d.setReg c (lRd w) (word ((k.pc + 2) % 2 ^ 19) false)) (some (jumpTo k.pc (lOffB w))))

/-- JALR: the target is read before rd is written. -/
def Dev.kJalr (d : Dev) (c : Nat) (w : BitVec 29) : Dev :=
  d.insn c 2 noRep (fun d =>
    let k := d.core c
    if k.pois (lRs1 w) then .exc d 3 none
    else .ok (d.setReg c (lRd w) (word ((k.pc + 2) % 2 ^ 19) false)) (some ((k.data (lRs1 w) + lSext w).toNat % 2 ^ 19)))

/-! ### MISC.S and the prefixes -/

/-- NOP. -/
def Dev.kNop (d : Dev) (c : Nat) (w : Byte) : Dev := d.insn c 1 anyRep (fun d => d.legal (w = 0) (.ok d none))

/-- FENCE: stores, CRC writes and ISSUEs of this model are accepted as they execute. -/
def Dev.kFence (d : Dev) (c : Nat) (w : Byte) : Dev := d.insn c 1 noRep (fun d => d.legal (w = 0) (.ok d none))

/-- ERET (R340, R341): EXL is cleared, and a repetition goes on where it stopped. -/
def Dev.kEret (d : Dev) (c : Nat) (w : Byte) : Dev :=
  d.insn c 1 noRep (fun d => d.legal (w = 0)
    (let k := d.core c
     .ok (d.modCore c (fun k => { k with
       exl := false
       rep := false
       pre := if k.rep then some ⟨k.savedRepx, k.repcnt.toNat⟩ else none })) (some (k.epc.toNat % 2 ^ 19))))

/-- A core stops; the program of a sequencer core has ended its share of the step or of the UPDATE (R352). -/
def Dev.haltCore (d : Dev) (c : Nat) : Dev :=
  let k := d.core c
  let d := d.modCore c (fun k => { k with state := .halted, job := .none_ })
  match k.job with
  | .step slot => d.modPlan slot (fun p => { p with running := p.running.filter (fun l => l != k.logical) })
  | _ => d

/-- HALT. -/
def Dev.kHalt (d : Dev) (c : Nat) (w : Byte) : Dev :=
  d.insn c 1 noRep (fun d => d.legal (w = 0) (.ok (d.haltCore c) none))

/-- BRK. -/
def Dev.kBrk (d : Dev) (c : Nat) (w : Byte) : Dev := d.insn c 1 noRep (fun d => .exc d (if w = 0 then 7 else 1) none)

/-- SYS. -/
def Dev.kSys (d : Dev) (c : Nat) (w : Byte) : Dev := d.insn c 1 noRep (fun d => .exc d (if w = 0 then 8 else 1) none)

/-- WFI: with an interrupt pending it does not block. -/
def Dev.kWfi (d : Dev) (c : Nat) (w : Byte) : Dev :=
  d.insn c 1 noRep (fun d => d.legal (w = 0)
    (.ok (if (d.core c).irqPend then d else d.modCore c (fun k => { k with state := .waitIrq })) none))

/-- REP (R339). -/
def Dev.kRep (d : Dev) (c : Nat) (w : BitVec 13) : Dev :=
  d.insn c 1 noRep (fun d =>
    let k := d.core c
    if sImm w ≠ 0 then .exc d 1 none
    else if k.pois (sRd w) then .exc d 3 none
    else .ok (d.modCore c (fun k => { k with pre := some ⟨false, (k.data (sRd w)).toNat⟩ })) none)

/-- REPX (R339). -/
def Dev.kRepx (d : Dev) (c : Nat) (w : BitVec 13) : Dev :=
  d.insn c 1 noRep (fun d => d.legal (bits w.toNat 0 7 = 0)
    (.ok (d.modCore c (fun k => { k with pre := some ⟨true, bits w.toNat 7 6 + 1⟩ })) none))

/-! ### Loads and stores (R161, R164, R334, R337) -/

/-- The poison NaN of K36 (R54). -/
def isPoisonNan (v : W36) : Bool := v.toNat == poisonNan

/-- What a load gives or a store takes: an integer of some bytes, or a K36 value in its container. -/
inductive MemKind where
  | int (size : Nat)
  | k36
  deriving DecidableEq, Repr

/-- Bytes of an access. -/
def MemKind.size : MemKind → Nat
  | .int n => n
  | .k36 => 8

/-- The word that a load of bytes makes. -/
def MemKind.word (m : MemKind) (v : Nat) (poison : Bool) : W36 :=
  match m with
  | .int n => Machine.word (v % 2 ^ (8 * n)) poison
  | .k36 => if poison then BitVec.ofNat 36 poisonNan else BitVec.ofNat 36 v

/-- The granule of a store is marked poisoned. -/
def MemKind.marks (m : MemKind) (v : W36) : Bool :=
  match m with
  | .int _ => v.getLsbD 32
  | .k36 => isPoisonNan v

/-- A program of a plan reaches LPDDR5X inside the plan's pages and stacked SRAM inside its banks (R337). -/
def Dev.planReaches (d : Dev) (slot : Nat) (t : Target) (len : Nat) : Bool :=
  match d.plan slot with
  | none => false
  | some p => match t with
    | .lpddr a => p.pages.any (fun r => d.pageAddr r.1 ≤ a && a + len ≤ d.pageAddr (r.1 + r.2))
    | .stacked m o => p.sram.any (fun b => b.1 = m && b.2.1 * 2 ^ 20 ≤ o && o + len ≤ (b.2.1 + b.2.2) * 2 ^ 20)
    | _ => false

/-- The slice for which a sequencer core acts (R261). -/
def Dev.sliceOfCore (d : Dev) (c : Nat) : Option Nat := (d.planOfCore c).bind (fun s => (d.plan s).map (·.slice))

/-- A core may make a fabric access: none is bound for an unmapped address, a sequencer core stays inside its
plan's memory and its slice's windows (R161, R261, R337); a stopped memory answers with an error (R31). -/
def Dev.coreReaches (d : Dev) (c : Nat) (t : Target) (len : Nat) (write : Bool) : Bool :=
  match t with
  | .unmapped => false
  | .pcie port a => if isSeq c then match d.sliceOfCore c with
      | some s => (d.slice s).dmaOk port a len write
      | none => false
    else true
  | t => !d.targetStopped t && (if isSeq c then match d.planOfCore c with
      | some slot => d.planReaches slot t len
      | none => false
    else true)

/-- An access of a core that R161 treats as unmapped: Table 5.2 maps nothing there, or the windows of the slice exclude
the PCIe address (R261). -/
def Dev.coreUnmapped (d : Dev) (c : Nat) (t : Target) (len : Nat) (write : Bool) : Bool :=
  match t with
  | .unmapped => true
  | .pcie _ _ => !d.coreReaches c t len write
  | _ => false

/-- A message of a core to a target waits at its source while their old route is drained (R27). -/
def Dev.routeHeld (d : Dev) (c : Nat) (t : Target) : Bool :=
  match d.targetNode t with
  | some n => (d.heldLink (coreNode c) n).isSome
  | none => false

/-- A load waits: on such a route, or for a function that cannot issue requests now (R273). -/
def Dev.loadHeld (d : Dev) (c : Nat) (t : Target) : Bool :=
  d.routeHeld c t || (match t with
    | .pcie port _ => !d.canIssue port (match d.sliceOfCore c with
        | some s => (d.slice s).kind
        | none => .pf0)
    | _ => false)

/-- The fabric address of an access, after the checks of R337 in the order of Table 11.7: the address, or the code
of the exception with its EVAL. -/
def Core.fabric (k : Core) (seg rs : Nat) (off : Int) (size : Nat) (write : Bool) : Nat ⊕ (Nat × Option Nat) :=
  let s := tblGetD k.segs seg ⟨0, 0, 0⟩
  let rel : Int := (k.data rs).toNat + off
  let addr := ((s.base.toNat + rel) % 2 ^ 64).toNat
  if k.pois rs then .inr (3, none)
  else if addr % size ≠ 0 then .inr (4, some addr)
  else if rel < 0 ∨ rel > (s.limit.toNat : Int) - size ∨ !bit s.attr 0 ∨ !bit s.attr (if write then 2 else 1) then
    .inr (5, some addr)
  else .inl addr

/-- Bytes that a core reads at a fabric address, and whether their granule is poisoned. What a PCIe completer or
the structures of the I/O-die SRAM hold is outside the model: a free value; the read is issued (DESIGN CHOICE, log 4). -/
def Dev.coreRead (d : Dev) (c : Nat) (t : Target) (addr size : Nat) : Nat × Bool × Dev :=
  match t with
  | .pcie port a =>
    let f := d.fresh
    let g := f.2.fresh
    let d := match d.sliceOfCore c with
      | some s => g.2.readSlice s port (.core c) a size
      | none => g.2.readOwn port (.core c) a size
    (f.1.toNat % 2 ^ (8 * size), g.1.getLsbD 0, d)
  | .ioSram _ _ =>
    let f := d.fresh
    (f.1.toNat % 2 ^ (8 * size), d.mem.poisoned addr size, f.2)
  | _ => (unle (d.mem.read addr size), d.mem.poisoned addr size, d)

/-- Bytes that a core writes at a fabric address. -/
def Dev.coreWrite (d : Dev) (c : Nat) (t : Target) (addr size : Nat) (v : Nat) (poison : Bool) : Dev :=
  match t with
  | .pcie port a => match d.sliceOfCore c with
    | some s => d.dmaSlice s port a (le size v) (if poison then [true] else []) false
    | none => d.dma ⟨port, .pf0, none, none, a, le size v, if poison then [true] else [], false⟩
  | _ => d.memWrite addr (le size v) poison

/-- A load of a word into rd: segment 0 is local memory where the instruction has it. An unmapped read gives zeros
marked poisoned (R161). -/
def Dev.kLoad (d : Dev) (c : Nat) (rd rs seg : Nat) (off : Int) (m : MemKind) (parcels : Nat) : Dev :=
  let u : RepUse := ⟨true, seg == 0, if rs = 0 then none else some (rs, if seg = 0 then 1 else m.size)⟩
  d.insn c parcels u (fun d =>
    let k := d.core c
    if seg = 0 then
      let a := (k.data rs + w32 off).toNat
      if k.pois rs then .exc d 3 none
      else if a ≥ localWords c then .exc d 6 (some a)
      else .ok (d.setReg c rd (tblGetD k.mem a 0)) none
    else match k.fabric seg rs off m.size false with
    | .inr e => .exc d e.1 e.2
    | .inl addr =>
      let t := d.decode (coreIo c) addr
      if d.coreUnmapped c t m.size false then .exc ((d.count itUnmapped).setReg c rd (m.word 0 true)) 6 (some addr)
      else if !d.coreReaches c t m.size false then .exc d 6 (some addr)
      else if d.loadHeld c t then .stall d
      else
        let r := d.coreRead c t addr m.size
        .ok (r.2.2.setReg c rd (m.word r.1 r.2.1)) none)

/-- A store of a register. -/
def Dev.kStore (d : Dev) (c : Nat) (rt rs seg : Nat) (off : Int) (m : MemKind) (parcels : Nat) : Dev :=
  let u : RepUse := ⟨true, seg == 0, if rs = 0 then none else some (rs, if seg = 0 then 1 else m.size)⟩
  d.insn c parcels u (fun d =>
    let k := d.core c
    if seg = 0 then
      let a := (k.data rs + w32 off).toNat
      if k.pois rs then .exc d 3 none
      else if a ≥ localWords c then .exc d 6 (some a)
      else .ok (d.modCore c (fun k => { k with mem := tblPut k.mem a (k.reg rt) })) none
    else match k.fabric seg rs off m.size true with
    | .inr e => .exc d e.1 e.2
    | .inl addr =>
      let t := d.decode (coreIo c) addr
      let v := k.reg rt
      if d.coreUnmapped c t m.size true then .exc (d.count itUnmapped) 6 (some addr)
      else if !d.coreReaches c t m.size true then .exc d 6 (some addr)
      else if d.routeHeld c t then .stall d
      else
        let bytes := match m with
          | .int n => v.toNat % 2 ^ (8 * n)
          | .k36 => v.toNat
        .ok (d.coreWrite c t addr m.size bytes (m.marks v)) none)

/-- LW.S and SW.S: a local word (DEDUCED, log 41). -/
def Dev.kLwS (d : Dev) (c : Nat) (w : BitVec 13) : Dev := d.kLoad c (sRd w) (sRs w) 0 (sFn w) (.int 4) 1
def Dev.kSwS (d : Dev) (c : Nat) (w : BitVec 13) : Dev := d.kStore c (sRd w) (sRs w) 0 (sFn w) (.int 4) 1

/-- LW, LK, and SW, SK: local or fabric. -/
def Dev.kLoadM (d : Dev) (c : Nat) (w : BitVec 29) (m : MemKind) : Dev := d.kLoad c (lRd w) (lRs1 w) (lSeg w) (lOff w) m 2
def Dev.kStoreM (d : Dev) (c : Nat) (w : BitVec 29) (m : MemKind) : Dev := d.kStore c (lRd w) (lRs1 w) (lSeg w) (lOff w) m 2

/-- LBU, LHU, SB and SH have fabric segments only. -/
def Dev.kNarrow (d : Dev) (c : Nat) (w : BitVec 29) (store : Bool) (size : Nat) : Dev :=
  if lSeg w = 0 then d.insn c 2 ⟨true, false, none⟩ (fun d => .exc d 1 none)
  else if store then d.kStoreM c w (.int size) else d.kLoadM c w (.int size)

/-! ### K36 arithmetic and conversions (R336, R342) -/

/-- Count the numeric events of a core's operation (R78). -/
def Dev.coreEvents (d : Dev) (c : Nat) (e : Events) : Dev :=
  match d.planOfCore c with
  | some slot => d.addEvents slot e
  | none => ([e.sat, e.inf, e.nan, e.nanGrp, e.nanLost, e.invalid].foldl (fun (a : Nat × Dev) n =>
      (a.1 + 1, a.2.countN a.1 n)) (0x600, d)).2

/-- KABS and KNEG: the sign bit cleared or inverted. A NaN operand gives the canonical NaN, or the poison NaN when it is
that, and a signalling one counts an invalid event (R52, R54). -/
def kSign (clear : Bool) (a : Nat) : Nat × Events :=
  let x := decodeCode 15 a
  deliver 15 [x] (if x.isNan then nanOf [x] else if clear then x.abs else x.neg).exact false

/-- KCLASS: one bit of Table 11.5 for the class of a K36 value. -/
def kClass (a : Nat) : Nat :=
  let e := a / 2 ^ 26 % 512
  match decodeCode 15 a with
  | .nan sig _ => if sig then 256 else 512
  | .inf neg => if neg then 1 else 128
  | .fin neg m _ => if m = 0 then (if neg then 8 else 16) else if e = 0 then (if neg then 4 else 32) else if neg then 2 else 64

/-- A comparison or classification of K36 values: with a poison NaN operand it produces the poison NaN, as every K36
operation does (R54). -/
def kTest (ops : List FVal) (r : Nat) : Nat × Events :=
  (if ops.any FVal.isPoison then poisonNan else r, evOperands ops)

/-- KOP functions on rs1, rs2 and rd. -/
def kopFn (fn a b r : Nat) : Option (Nat × Events) :=
  let x := decodeCode 15 a
  let y := decodeCode 15 b
  match fn with
  | 0x00 => some (fAdd 15 a b)
  | 0x01 => some (fSub 15 a b)
  | 0x02 => some (fMul 15 a b)
  | 0x03 => some (fFma 15 a b r)
  | 0x04 => some (fDiv 15 a b)
  | 0x05 => some (fSqrt 15 a)
  | 0x06 => some (minOp 15 x y)
  | 0x07 => some (maxOp 15 x y)
  | 0x08 => some (kTest [x, y] (b2n (cmpVal x y == 1)))
  | 0x09 => some (kTest [x, y] (b2n (cmpVal x y == 0)))
  | 0x0A => some (kTest [x, y] (b2n (cmpVal x y == 0 || cmpVal x y == 1)))
  | 0x0B => some (kSign true a)
  | 0x0C => some (kSign false a)
  | 0x0D => some (kTest [x] (kClass a))
  | _ => none

/-- KOP. -/
def Dev.kKop (d : Dev) (c : Nat) (w : BitVec 29) : Dev :=
  d.insn c 2 anyRep (fun d =>
    let k := d.core c
    if bits w.toNat 0 8 ≠ 0 then .exc d 1 none
    else match kopFn (lFn w) (k.reg (lRs1 w)).toNat (k.reg (lRs2 w)).toNat (k.reg (lRd w)).toNat with
    | some r => .ok ((d.setReg c (lRd w) (BitVec.ofNat 36 r.1)).coreEvents c r.2) none
    | none => .exc d 1 none)

/-- The canonical NaN of a format, or 0 in one without NaN. -/
def canonNan (c : Nat) : Nat :=
  match fmtOf c with
  | some (.flt f) => if f.hasNan then f.nanCode else 0
  | _ => 0

/-- The plan's step number of a core, 0 outside a plan. -/
def Dev.coreStep (d : Dev) (c : Nat) : W64 := (((d.planOfCore c).bind d.plan).map (·.step)).getD 0

/-- CVT (R342). -/
def Dev.kCvt (d : Dev) (c : Nat) (w : BitVec 29) : Dev :=
  d.insn c 2 anyRep (fun d =>
    let k := d.core c
    let src := lFn w
    let a := k.reg (lRs1 w)
    let ds := Desc.of ((k.reg (lRs2 w)).truncate 16)
    if bits w.toNat 0 8 ≠ 0 ∨ src ≥ 32 then .exc d 1 none
    else if src = 0 ∨ src > 15 ∨ !ds.ok ∨ ds.scaled ∨ ds.elem = 0 then .exc d 2 none
    else
      let bad := if src = 15 then isPoisonNan a else a.getLsbD 32
      let x := decodeCode src (if src = 15 then a.toNat else a.toNat % 2 ^ fmtBits src)
      let sr : Bool := decide (ds.round = 2)
      let rnd := srRandom k.srSeed (d.coreStep c) k.srStream k.srIndex
      let v := encodeCode ds.elem x.exact (ds.mode rnd) ds.ovf
      let d := if sr then d.modCore c (fun k => { k with srIndex := (k.srIndex + 1) % 2 ^ 32 }) else d
      if bad then
        .ok (d.setReg c (lRd w) (if ds.elem = 15 then BitVec.ofNat 36 poisonNan else word (canonNan ds.elem) true)) none
      else .ok ((d.setReg c (lRd w) (if ds.elem = 15 then BitVec.ofNat 36 v.1 else word v.1 false)).coreEvents c v.2) none)

/-! ### CRC (R350) -/

/-- One byte into the running value of an algorithm (Table 11.10). -/
def crcFeed (alg : Nat) (run : Nat) (b : Byte) : Nat :=
  let refl := fun (poly r : Nat) => (List.range 8).foldl (fun r _ => if r % 2 = 1 then (r / 2) ^^^ poly else r / 2) (r ^^^ b.toNat)
  match alg with
  | 0 => run / 2 ^ 32 * 2 ^ 32 + refl 0x82F63B78 (run % 2 ^ 32)
  | 1 => run / 2 ^ 32 * 2 ^ 32 + refl 0xEDB88320 (run % 2 ^ 32)
  | 2 => refl 0x9A6C9329AC4BC9B5 run
  | _ => run / 2 ^ 16 * 2 ^ 16 + (List.range 8).foldl (fun r _ => if r ≥ 2 ^ 15 then (2 * r % 2 ^ 16) ^^^ 0x8BB7 else 2 * r)
      (run % 2 ^ 16 ^^^ b.toNat * 256)

/-- CRC_RES: the running value with the final mask. -/
def crcResult (alg : Nat) (run : W64) : W64 :=
  match alg with
  | 0 => run ^^^ 0xFFFFFFFF
  | 1 => run ^^^ 0xFFFFFFFF
  | 2 => run ^^^ 0xFFFFFFFFFFFFFFFF
  | _ => run

/-- CRCB, CRCH and CRCW. -/
def Dev.kCrc (d : Dev) (c : Nat) (w : BitVec 29) : Dev :=
  d.insn c 2 anyRep (fun d =>
    let k := d.core c
    if lRd w ≠ 0 ∨ lFn w > 2 ∨ bits w.toNat 0 8 ≠ 0 then .exc d 1 none
    else
      let bs := le (2 ^ lFn w) (k.data (lRs1 w)).toNat
      .ok (d.modCore c (fun k => { k with
        crcRun := BitVec.ofNat 64 (bs.foldl (crcFeed k.crcSel) k.crcRun.toNat)
        crcPoison := k.crcPoison || k.pois (lRs1 w) })) none)

/-! ### Control registers (Table 11.6) -/

/-- SAT flags of counters from one on: 32 of them. -/
def Core.satWord (k : Core) (hi : Bool) (first : Nat) : W32 :=
  BitVec.ofNat 32 (packBits 1 ((List.range (min 32 (48 - first))).map (fun i =>
    b2n (if hi then (k.ctr (first + i)).satHi else (k.ctr (first + i)).satLo))))

/-- Clear the SAT flags that a word names. -/
def Core.satClear (k : Core) (hi : Bool) (first : Nat) (v : W32) : Core :=
  (List.range (min 32 (48 - first))).foldl (fun k i =>
    if v.getLsbD i then k.setCtr (first + i) (if hi then { k.ctr (first + i) with satHi := false } else { k.ctr (first + i) with satLo := false })
    else k) k

/-- The value of a control register, and the core after a read of it; none where the number is not listed. -/
def Dev.csrRead (d : Dev) (c n : Nat) : Option (W32 × Dev) :=
  let k := d.core c
  let hi := fun (v : W64) => ((v >>> 32).truncate 32 : W32)
  let seg := tblGetD k.segs ((n - 0x10) / 4 + 1) ⟨0, 0, 0⟩
  if 0x10 ≤ n ∧ n < 0x2C then
    some (match n % 4 with
      | 0 => seg.base.truncate 32
      | 1 => hi seg.base
      | 2 => seg.limit
      | _ => BitVec.ofNat 32 seg.attr, d)
  else match n with
  | 0x00 => some (BitVec.ofNat 32 (packBits 1 ([k.ie, k.exl, k.rep, k.sate, k.smpe].map b2n)), d)
  | 0x01 => some (k.epc, d)
  | 0x02 => some (k.ecause, d)
  | 0x03 => some (k.eval, d)
  | 0x04 => some (k.evalh, d)
  | 0x05 => some (k.evec, d)
  | 0x06 => some (k.repcnt, d)
  | 0x07 => some (BitVec.ofNat 32 (c + 2 ^ 8 * clusterOf c + 2 ^ 13 * coreDie c + 2 ^ 16 * (if isSeq c then k.logical else 0xFF)), d)
  | 0x08 =>
    let f := d.fresh
    some (f.1.truncate 32, f.2.modCore c (fun k => { k with cycleHi := hi f.1 }))
  | 0x09 => some (k.cycleHi, d)
  | 0x0A => some ((d.dieStamp (coreNode c)).truncate 32, d.modCore c (fun k => { k with ringHi := hi (d.dieStamp (coreNode c)) }))
  | 0x0B => some (k.ringHi, d)
  | 0x0C => some (k.satWord true 0, d)
  | 0x0D => some (k.satWord true 32, d)
  | 0x0E => some (k.satWord false 0, d)
  | 0x0F => some (k.satWord false 32, d)
  | 0x30 => some (BitVec.ofNat 32 (k.crcSel + 4 * b2n k.crcPoison), d)
  | 0x31 => some (k.crcRun.truncate 32, d)
  | 0x32 => some (hi k.crcRun, d)
  | 0x33 => some ((crcResult k.crcSel k.crcRun).truncate 32, d)
  | 0x34 => some (hi (crcResult k.crcSel k.crcRun), d)
  | 0x38 => some (k.srSeed.truncate 32, d)
  | 0x39 => some (hi k.srSeed, d)
  | 0x3A => some (BitVec.ofNat 32 k.srStream, d)
  | 0x3B => some (BitVec.ofNat 32 k.srIndex, d)
  | 0x40 => some (BitVec.ofNat 32 k.smpEvent, d)
  | _ => none

/-- Replace the low or the high word of a doubleword. -/
def putWord (v : W64) (high : Bool) (x : W32) : W64 :=
  BitVec.ofNat 64 (putBits v.toNat (if high then 32 else 0) 32 x.toNat)

/-- The core after a write of a control register; none where the register is read only (DEDUCED, log 41). -/
def Core.csrWrite (k : Core) (c n : Nat) (v : W32) : Option Core :=
  let s := (n - 0x10) / 4 + 1
  let seg := tblGetD k.segs s ⟨0, 0, 0⟩
  if 0x10 ≤ n ∧ n < 0x2C then
    if isSeq c then none
    else some { k with segs := tblPut k.segs s (match n % 4 with
      | 0 => { seg with base := putWord seg.base false v }
      | 1 => { seg with base := putWord seg.base true v }
      | 2 => { seg with limit := v }
      | _ => { seg with attr := bits v.toNat 0 3 }) }
  else match n with
  | 0x00 => some { k with ie := v.getLsbD 0, exl := v.getLsbD 1, rep := v.getLsbD 2, sate := v.getLsbD 3, smpe := v.getLsbD 4 }
  | 0x01 => some { k with epc := v }
  | 0x02 => some { k with ecause := v &&& 0x3F }
  | 0x03 => some { k with eval := v }
  | 0x04 => some { k with evalh := v }
  | 0x05 => some { k with evec := v }
  | 0x06 => some { k with repcnt := v }
  | 0x0C => some (k.satClear true 0 v)
  | 0x0D => some (k.satClear true 32 v)
  | 0x0E => some (k.satClear false 0 v)
  | 0x0F => some (k.satClear false 32 v)
  | 0x30 => some { k with crcSel := bits v.toNat 0 2, crcPoison := k.crcPoison && !v.getLsbD 2 }
  | 0x31 => some { k with crcRun := putWord k.crcRun false v }
  | 0x32 => some { k with crcRun := putWord k.crcRun true v }
  | 0x38 => if isSeq c then none else some { k with srSeed := putWord k.srSeed false v }
  | 0x39 => if isSeq c then none else some { k with srSeed := putWord k.srSeed true v }
  | 0x3A => some { k with srStream := bits v.toNat 0 24 }
  | 0x3B => some { k with srIndex := v.toNat }
  | 0x40 => some { k with smpEvent := bits v.toNat 0 11 }
  | _ => none

/-- CSR: write, set bits, clear bits, or read only. -/
def Dev.kCsr (d : Dev) (c : Nat) (w : BitVec 29) : Dev :=
  d.insn c 2 noRep (fun d =>
    let n := bits w.toNat 0 8
    let op := bits w.toNat 17 2
    let k := d.core c
    let a := k.data (lRs1 w)
    if bits w.toNat 8 9 ≠ 0 then .exc d 1 none
    else if n = 0x0A ∧ d.stampHeld (coreNode c) then .stall d
    else match d.csrRead c n with
    | none => .exc d 1 none
    | some r =>
      if op = 3 then .ok (r.2.setReg c (lRd w) (word r.1.toNat false)) none
      else
        let v := if op = 0 then a else if op = 1 then r.1 ||| a else r.1 &&& ~~~a
        match (r.2.core c).csrWrite c n v with
        | none => .exc d 1 none
        | some k' =>
          if k.pois (lRs1 w) then .exc d 3 none
          else .ok ((r.2.setCore c k').setReg c (lRd w) (word r.1.toNat false)) none)

/-! ### Sync operations (R345 to R347) -/

/-- Items counted without a number: a signal to a core that is off (R345). -/
def itSigOff : Nat := 4096 + 0x5B8

/-- SIG and SIG.S. -/
def Dev.kSig (d : Dev) (c parcels n : Nat) (fields : Bool) : Dev :=
  d.insn c parcels anyRep (fun d => d.legal (fields && decide (n < 48)) (.ok (d.signal c n) none))

/-- The core that SIGR names (R345). -/
def Dev.sigTarget (d : Dev) (c t : Nat) : Option Nat :=
  if isSeq c then ((d.planOfCore c).bind d.plan).bind (fun p => p.cores[t]?)
  else if t < 0x80 ∨ (0xC0 ≤ t ∧ t ≤ 0xC9) then some t else none

/-- SIGR. -/
def Dev.kSigr (d : Dev) (c : Nat) (w : BitVec 29) : Dev :=
  let tgt := d.sigTarget c (((d.core c).data (lRs1 w)).toNat % 256)
  let d' := d.insn c 2 noRep (fun d =>
    if lCtr w ≥ 48 then .exc d 1 none
    else match tgt with
    | none => .exc d 2 none
    | some t => .ok (if (d.core t).state = .off then d.count itSigOff else d.signalFrom (coreNode c) t (lCtr w)) none)
  match tgt with
  | some t => if t = c then d' else d'.boundary t
  | none => d'

/-- A wait of the owning core begins (R345, R346); SYNC_WAIT_RELEASE ends it. -/
def Dev.kWait (d : Dev) (c parcels n : Nat) (fields observing : Bool) (t : Nat) : Dev :=
  d.insn c parcels noRep (fun d => d.legal (fields && decide (n < 48))
    (.stall ((d.modCore c (fun k => { k with state := .waitSync, waitLen := parcels })).beginWait c n ⟨0, observing, t⟩)))

/-- WAITO: T is imm10, or rs1[15:0]. -/
def Dev.kWaito (d : Dev) (c : Nat) (w : BitVec 29) : Dev :=
  d.kWait c 2 (lCtr w) true true (if lRs1 w = 0 then lImm10 w else ((d.core c).data (lRs1 w)).toNat % 2 ^ 16)

/-- TRYC. -/
def Dev.kTryc (d : Dev) (c : Nat) (w : BitVec 29) : Dev :=
  d.insn c 2 noRep (fun d => d.legal (decide (lCtr w < 48))
    (let n := ((d.core c).ctr (lCtr w)).count
     if n ≥ 1 then .ok ((d.modCtr c (lCtr w) (fun v => { v with count := n - 1 })).setReg c (lRd w) 1) none
     else .ok (d.setReg c (lRd w) 0) none))

/-- RDC. -/
def Dev.kRdc (d : Dev) (c : Nat) (w : BitVec 29) : Dev :=
  d.insn c 2 noRep (fun d => d.legal (decide (lCtr w < 48))
    (.ok (d.setReg c (lRd w) (word ((d.core c).ctr (lCtr w)).count false)) none))

/-- ADJC. -/
def Dev.kAdjc (d : Dev) (c : Nat) (w : BitVec 29) : Dev :=
  d.insn c 2 noRep (fun d => d.legal (decide (lCtr w < 48)) (.ok (d.adjust c (lCtr w) (sext 10 (lImm10 w))) none))

/-- CLRC. -/
def Dev.kClrc (d : Dev) (c : Nat) (w : BitVec 29) : Dev :=
  d.insn c 2 noRep (fun d => d.legal (decide (lCtr w < 48)) (.ok (d.modCtr c (lCtr w) (fun v => { v with count := 0 })) none))

/-- SYNC_WAIT_RELEASE (R346): the arbitration of a cycle; a released core stands at a boundary. -/
def Dev.syncRelease (d : Dev) (c n : Nat) : Dev := (d.waitRelease c n).boundary c

end Sys2Proof.Machine
end

