-- ==== Sys2Proof/Machine/Units.lean ====
section
/-! DEFINITION. Work that sequencer cores issue to arrays, vector units and DMA (11_kerf_cores R351, R348, 03_mill
R79 to R83, 02_number_formats R73), state dumps and the deadlock detector (R354, R355). Where the manual gives no
layout of an operation's operands, the model takes A and the output by rows and B by columns (DESIGN CHOICE, log 27). -/

namespace Sys2Proof.Machine

/-! ### Descriptors (Table 11.11) -/

def QOp.kind (o : QOp) : Nat := bits (o.w 0) 16 8
def QOp.waitCtr (o : QOp) : Nat := bits (o.w 1) 0 6
def QOp.waitEn (o : QOp) : Bool := bit (o.w 1) 6
def QOp.doneCtr (o : QOp) : Nat := bits (o.w 1) 8 6
def QOp.doneEn (o : QOp) : Bool := bit (o.w 1) 14
def QOp.fa (o : QOp) : Desc := Desc.of (BitVec.ofNat 16 (o.w 2))
def QOp.fb (o : QOp) : Desc := Desc.of (BitVec.ofNat 16 (o.w 2 / 2 ^ 16))
def QOp.fo (o : QOp) : Desc := Desc.of (BitVec.ofNat 16 (o.w 3))
def QOp.acc (o : QOp) : Nat := bits (o.w 3) 16 5
def QOp.aAddr (o : QOp) : Nat := o.w 4 + 2 ^ 32 * o.w 5
def QOp.bAddr (o : QOp) : Nat := o.w 6 + 2 ^ 32 * o.w 7
def QOp.oAddr (o : QOp) : Nat := o.w 8 + 2 ^ 32 * o.w 9
def QOp.m (o : QOp) : Nat := o.w 10
def QOp.n (o : QOp) : Nat := o.w 11
def QOp.k (o : QOp) : Nat := o.w 12
def QOp.log2b (o : QOp) : Nat := bits (o.w 13) 0 4
def QOp.xprec (o : QOp) : Bool := bit (o.w 13) 4

/-- A format code that is an integer. -/
def isIntCode (c : Nat) : Bool := 9 ≤ c && c ≤ 12

/-- Formats of an array's operands (R79 to R81): neither binary64, K36 nor a scale format, both floating-point or both
integer. An accumulator is binary32 or K36, but for plain integers, which accumulate in INT32. XFORM takes whole
blocks of a floating-point stream and a matrix of Table 3.10, with XPREC a binary32 stream split into a bfloat16 or
binary16 matrix's format (R88); LRPROJ takes at most 256 columns. -/
def QOp.arrayOk (o : QOp) : Bool :=
  let fit := fun c => decide (1 ≤ c) && decide (c ≤ 12)
  let ints := isIntCode o.fa.elem
  fit o.fa.elem && fit o.fb.elem && ints == isIntCode o.fb.elem &&
  (o.acc == 1 || o.acc == 15 || (ints && !o.fa.scaled && !o.fb.scaled)) &&
  (o.kind != 2 || (5 ≤ o.log2b && o.log2b ≤ 8 && o.m % 2 ^ o.log2b == 0 && !ints && !o.fb.scaled && o.fb.elem ≤ 3 &&
    (!o.xprec || (o.fa.elem == 1 && !o.fa.scaled && o.fb.elem != 1)))) &&
  (o.kind != 3 || o.n ≤ 256)

/-- The checks that ISSUE makes of a descriptor for a target (0 array, 1 vector unit, 2 DMA): the layout, KIND and the
formats, those of DMA descriptors included (R48, R58, R59, R74). -/
def QOp.ok (o : QOp) (target : Nat) : Bool :=
  bits (o.w 0) 0 16 == 0x0100 && bits (o.w 0) 24 8 == 0 && !bit (o.w 1) 7 && bits (o.w 1) 16 16 == 0 &&
  bits (o.w 3) 21 11 == 0 && bits (o.w 13) 5 27 == 0 && o.w 15 == 0 && o.waitCtr < 48 && o.doneCtr < 48 &&
  1 ≤ o.kind && o.kind ≤ (if target = 0 then 3 else if target = 1 then 16 else 2) &&
  o.fa.ok && o.fb.ok && o.fo.ok && o.acc ≤ 15 &&
  (target != 0 || o.arrayOk) &&
  (target != 1 || ((o.acc == 1 || o.acc == 15) && (o.kind != 12 || (5 ≤ o.log2b && o.log2b ≤ 8))))

/-! ### Units of an operation (R84, R113) -/

/-- The unit that runs a descriptor of a core; DMA engines are no units. -/
def Dev.opUnit (d : Dev) (c target : Nat) (o : QOp) : Option Nat :=
  if target = 2 then none else d.routeOf c (o.ownUnit c target)

/-- The target of a descriptor has a unit in service. -/
def Dev.unitServes (d : Dev) (c target : Nat) (o : QOp) : Bool := target == 2 || (d.opUnit c target o).isSome

/-- Plan slots with an operation ready for a unit: the released head of a queue that is routed to it. -/
def Dev.unitLoad (d : Dev) (u : Nat) : List Nat :=
  d.kerf.cores.foldl (fun l e => match tblGetD e.2.queues (u / 8) [] with
    | o :: _ => if o.released && d.opUnit e.1 (u / 8) o == some u then match d.planOfCore e.1 with
        | some slot => addOnce l slot
        | none => l
      else l
    | [] => l) []

/-- SHARE of a plan slot. -/
def Dev.shareOf (d : Dev) (slot : Nat) : Nat := match d.plan slot with
  | some p => max 1 p.cfg.share
  | none => 1

/-- Operations that a unit ran for a slot while plans contended for it; a slot that joins begins level with the one
that had the least. -/
def Dev.servedFor (d : Dev) (u slot : Nat) : Nat :=
  let t := (d.unit u).served
  match tblGet t slot with
  | some n => n
  | none => match t.map (fun e => e.2 * 100 / d.shareOf e.1) with
    | [] => 0
    | x :: xs => xs.foldl min x * d.shareOf slot / 100

/-- The weighted round-robin of R113 lets a slot's operation run now: no slot with work ready has had fewer operations
for its share (DESIGN CHOICE, log 59). -/
def Dev.unitTurn (d : Dev) (u slot : Nat) : Bool :=
  (d.unitLoad u).all (fun k => decide (d.servedFor u slot * d.shareOf k ≤ d.servedFor u k * d.shareOf slot))

/-- A unit ran an operation of a slot (R113; Table 3.21, LAST_SLOT). -/
def Dev.unitRan (d : Dev) (u slot : Nat) : Dev :=
  let load := addOnce (d.unitLoad u) slot
  d.setUnit u { d.unit u with
    lastSlot := slot
    served := if load.length = 1 then [] else
      load.foldl (fun t k => tblPut t k (d.servedFor u k + b2n (k == slot))) [] }

/-- The waiter number of a target's queue (R346). -/
def waiterOf (target : Nat) : Nat := if target = 2 then 1 else target + 2

/-- The head of a queue begins its wait, or is free to run. -/
def Dev.headWait (d : Dev) (c target : Nat) : Dev :=
  match tblGetD (d.core c).queues target [] with
  | o :: _ =>
    if o.waitEn then d.beginWait c o.waitCtr ⟨waiterOf target, false, 0⟩
    else d.modCore c (fun k => k.released (waiterOf target))
  | [] => d

/-- ISSUE (R351) (DEDUCED, log 41). The step number is latched with the operation (R78). -/
def Dev.kIssue (d : Dev) (c : Nat) (w : BitVec 29) : Dev :=
  d.insn c 2 noRep (fun d =>
    let k := d.core c
    let t := bits w.toNat 0 2
    let a := (k.data (lRs1 w)).toNat
    let q := tblGetD k.queues t []
    if !isSeq c ∨ lRd w ≠ 0 ∨ t = 3 ∨ bits w.toNat 2 17 ≠ 0 then .exc d 1 none
    else if k.pois (lRs1 w) then .exc d 3 none
    else
      let o : QOp := ⟨(List.range 16).map (fun i => (tblGetD k.mem (a + i) 0).truncate 32), false, d.coreStep c⟩
      if a + 16 ≤ localWords c ∧ !(o.ok t && d.unitServes c t o) then .exc d 2 none
      else if a + 16 > localWords c then .exc d 6 (some a)
      else if q.length ≥ 16 then .stall d
      else
        let d := if t = 2 then d else d.keepRoute c (o.ownUnit c t)
        let d := d.modCore c (fun k => { k with queues := tblPut k.queues t (q ++ [o]) })
        .ok (if q.isEmpty then d.headWait c t else d) none)

/-! ### Operands in memory -/

/-- Free bytes: what a PCIe completer holds (DESIGN CHOICE, log 4). -/
def Dev.freshBytes (d : Dev) : Nat → List Byte × Dev
  | 0 => ([], d)
  | n + 1 =>
    let f := d.fresh
    let r := f.2.freshBytes n
    (BitVec.ofNat 8 f.1.toNat :: r.1, r.2)

/-- Bytes that an issued operation reads, with the poison mark of each; none when the address fails (R351). -/
def Dev.opRead (d : Dev) (c addr len : Nat) : Option ((List Byte × (Nat → Bool)) × Dev) :=
  let t := d.decode none addr
  if len = 0 then some (([], fun _ => false), d)
  else if !d.coreReaches c t len false then none
  else match t with
  | .pcie port a =>
    let f := d.freshBytes len
    match d.sliceOfCore c with
    | some s => some ((f.1, fun _ => false), f.2.readSlice s port (.core c) a len)
    | none => none
  | _ =>
    let m := d.mem
    some ((m.read addr len, fun i => m.poisoned (addr + i) 1), d)

/-- Write bytes that an issued operation made, in pieces inside granules; `p` says which bytes are of poisoned
elements. PCIe destinations are read back with zero length before DONE (R348). -/
def Dev.opWrite (d : Dev) (c addr : Nat) (bs : List Byte) (p : Nat → Bool) : Option Dev :=
  let t := d.decode none addr
  if bs.isEmpty then some d
  else if !d.coreReaches c t bs.length true then none
  else
    let gs := granulesOf addr bs.length
    let bad := fun g => (List.range 64).any (fun i => decide (addr ≤ g * 64 + i) && decide (g * 64 + i < addr + bs.length) && p (g * 64 + i - addr))
    match t with
    | .pcie port a => match d.sliceOfCore c with
      | some s => some ((d.dmaSlice s port a bs (gs.map bad) true).readSlice s port (.core c) a 0)
      | none => none
    | _ => some (gs.foldl (fun d g =>
        let lo := max addr (g * 64)
        let hi := min (addr + bs.length) (g * 64 + 64)
        d.memWrite lo (bytesAt bs (lo - addr) (hi - lo)) (bad g)) d)

/-- An element of an operand: its scale, its value without the scale, and its poison mark. -/
structure Opnd where
  scale : FVal
  val : FVal
  poison : Bool
  deriving DecidableEq, Repr

/-- The value 1, the scale of an unscaled element. -/
def FVal.one : FVal := .fin false 1 0

/-- An element that an operation does not read. -/
def Opnd.none_ : Opnd := ⟨.one, .fin false 0 0, false⟩

/-- The value of an operand with its scale, dequantized in a format (R71); an unscaled one as it stands, a signalling
NaN included. -/
def Opnd.full (c : Nat) (o : Opnd) : FVal × Events :=
  if o.scale = .one then (o.val, .zero)
  else
    let s := encodeCode c o.scale.exact .rne false
    let r := mulOp c (decodeCode c s.1) o.val
    (decodeCode c r.1, s.2.add r.2)

/-- Elements of a group with their exact scale (R69, R70). -/
def groupOpnds (c : Nat) (sup : Option Byte) (g : Group) : List (FVal × FVal) :=
  let s : FVal := match sup with
    | none => if g.scale = 0xFF then .nan false false else .fin false 1 ((g.scale.toNat : Int) - 127)
    | some z => if z = 0xFF || g.scale.toNat ≥ 0x7F then .nan false false
      else (decodeFlt fE4m3 g.scale.toNat).scale ((z.toNat : Int) - 127)
  g.elems.map (fun e => (s, decodeElem c e.toNat))

/-- Scales and values of one row of a tensor, or of all of an unscaled one. -/
def rowOpnds (f : Desc) (n : Nat) (bs : List Byte) : List (FVal × FVal) :=
  let vs : List (FVal × FVal) := match unpackTensor f n bs with
    | .plain es => es.map (fun e => (FVal.one, decodeCode f.elem e.toNat))
    | .scaled sbs => (sbs.map (fun sb => (sb.2.map (groupOpnds f.elem sb.1)).flatten)).flatten
  padTo n (FVal.one, .fin false 0 0) vs

/-- The operands of a matrix in memory. -/
def operands (f : Desc) (s : Shape) (bs : List Byte) (p : Nat → Bool) : List Opnd :=
  let vs := if f.scaled then ((List.range s.rows).map (fun i => rowOpnds f s.inner (bytesAt bs (i * f.bytes s.inner) (f.bytes s.inner)))).flatten
    else rowOpnds f (s.rows * s.inner) bs
  vs.mapIdx (fun i v => ⟨v.1, v.2, (f.spans s i).any (fun r => (List.range r.2).any (fun k => p (r.1 + k)))⟩)

/-- Read a matrix. -/
def Dev.opOperands (d : Dev) (c addr : Nat) (f : Desc) (s : Shape) : Option (List Opnd × Dev) :=
  (d.opRead c addr (f.size s)).map (fun r => (operands f s r.1.1 r.1.2, r.2))

/-- The bytes of a matrix, row by row where it is scaled, with the events of its quantization; `rnd` gives the random
value of an element's index in the tensor (R65), which counts data elements and no padding. -/
def packRows (f : Desc) (s : Shape) (rnd : Nat → Nat) (vs : List FVal) : List Byte × Events :=
  if f.scaled then
    let r := mapIxEv (fun i row =>
      let q := quantize f rnd (i * s.inner) row
      (packTensor f q.1, q.2)) 0 (chunksOf (max 1 s.inner) vs)
    (r.1.flatten, r.2)
  else
    let q := quantize f rnd 0 vs
    (packTensor f q.1, q.2)

/-- Write values as a matrix of the output descriptor; stochastic rounding takes the core's stream, the step latched at
ISSUE and the element's index (R65, R78). -/
def Dev.opResult (d : Dev) (c : Nat) (o : QOp) (s : Shape) (vs : List (FVal × Bool)) : Option Dev :=
  let k := d.core c
  let q := packRows o.fo s (fun i => srRandom k.srSeed o.step k.srStream i) (vs.map (·.1))
  let ps := ((List.range vs.length).zip vs).filter (fun x => x.2.2)
  let bad := fun b => ps.any (fun x => (o.fo.spans s x.1).any (fun r => decide (r.1 ≤ b) && decide (b < r.1 + r.2)))
  (d.opWrite c o.oAddr q.1 bad).map (fun d => d.coreEvents c q.2)

/-! ### Arrays (R73, R79 to R81) -/

/-- A product as it enters the tree: exact, and rounded RNE for binary32 operands. -/
def prodVal (b32 : Bool) (x y : FVal) : FVal × Events :=
  if b32 then
    let r := mulOp 1 x y
    (decodeCode 1 r.1, r.2)
  else ((mulVal x y).1, (evOperands [x, y]).add (if (mulVal x y).2 then evNan else .zero))

/-- An operation's products are rounded to binary32. -/
def QOp.b32 (o : QOp) : Bool := o.fa.elem == 1 || o.fb.elem == 1

/-- The binary point of a product of two integer operands (R56). -/
def QOp.point (o : QOp) : Nat :=
  (if o.fa.scaled then intPoint o.fa.elem else 0) + (if o.fb.scaled then intPoint o.fb.elem else 0)

/-- An exact INT32 sum of products, which saturates and is counted; `point` is their binary point. -/
def intSum (point : Nat) (xs : List (Opnd × Opnd)) : FVal × Events :=
  let s := xs.foldl (fun a (x : Opnd × Opnd) => (addVal a (mulVal x.1.val x.2.val).1).1) (FVal.fin false 0 0)
  let r := encodeCode 9 (s.scale point).exact .rne false
  ((decodeCode 9 r.1).scale (-(point : Int)), r.2)

/-- The sum of one group of 32 products, multiplied by the product of the two group scales before it enters the tree
(R73). The product of the scales is kept exact, and only what enters the tree is delivered in binary32 by R63 (DEDUCED,
log 60: the manual says that it is exact unless it leaves the binary32 range, and not what happens then). -/
def groupSum (o : QOp) (xs : List (Opnd × Opnd)) : FVal × Events :=
  let t : FVal × Events := if isIntCode o.fa.elem then intSum o.point xs else
    evBind (mapEv (fun (x : Opnd × Opnd) => prodVal o.b32 x.1.val x.2.val) xs) fun ps =>
      let t := treeLevels 5 (padTo 32 (FVal.fin false 0 0) ps)
      (t.1.headD (FVal.fin false 0 0), t.2)
  match xs with
  | x :: _ =>
    let r := mulOp 1 t.1 (mulVal x.1.scale x.2.scale).1
    (decodeCode 1 r.1, t.2.add r.2)
  | [] => t

/-- One column sum of at most 256 products. -/
def colSum (o : QOp) (xs : List (Opnd × Opnd)) : FVal × Events :=
  if o.fa.scaled || o.fb.scaled then
    evBind (mapEv (groupSum o) (chunksOf 32 xs)) fun gs =>
      let t := treeLevels 3 (padTo 8 (FVal.fin false 0 0) gs)
      (t.1.headD (FVal.fin false 0 0), t.2)
  else evBind (mapEv (fun (x : Opnd × Opnd) => prodVal o.b32 x.1.val x.2.val) xs) columnSum

/-- One element of a product: column sums added to the accumulator of +0, plain integers exactly in INT32. -/
def dotArray (o : QOp) (xs : List (Opnd × Opnd)) : (FVal × Bool) × Events :=
  let bad := xs.any (fun x => x.1.poison || x.2.poison)
  if isIntCode o.fa.elem ∧ !o.fa.scaled ∧ !o.fb.scaled then evBind (intSum 0 xs) fun s => ((s, bad), .zero)
  else evBind (foldEv (fun a ch => evBind (colSum o ch) fun s => addOp o.acc (decodeCode o.acc a) s) 0 (chunksOf 256 xs))
    fun r => ((decodeCode o.acc r, bad), .zero)

/-- GEMM and LRPROJ: out[M × N] = A[M × K] · B[K × N]. -/
def gemm (o : QOp) (a b : List Opnd) : List (FVal × Bool) × Events :=
  mapEv (fun i => dotArray o ((sub a (i / o.n * o.k) o.k).zip (sub b (i % o.n * o.k) o.k))) (List.range (o.m * o.n))

/-- One pass of XFORM over a block: element `k` is the product with row `k` of the matrix. -/
def xformPass (o : QOp) (b : List Opnd) (blk : List Opnd) : List (FVal × Bool) × Events :=
  mapEv (fun k => dotArray o ((sub b (k * 2 ^ o.log2b) (2 ^ o.log2b)).zip blk)) (List.range (2 ^ o.log2b))

/-- XFORM with XPREC: a block split into the matrix's format as R88 states, two passes, their results added in binary32. -/
def xformSplit (o : QOp) (b : List Opnd) (blk : List Opnd) : List (FVal × Bool) × Events :=
  let c := o.fb.elem
  evBind (mapEv (fun (x : Opnd) => encVal c x.val) blk) fun hi =>
  evBind (mapEv (fun (e : Opnd × Nat) => encVal c (addVal e.1.val (decodeCode c e.2).neg).1) (blk.zip hi)) fun lo =>
  let part := fun (vs : List Nat) => vs.map (fun v => (Opnd.mk .one (decodeCode c v) false))
  let o16 : QOp := { o with words := o.words.set 2 (BitVec.ofNat 32 (c + 2 ^ 16 * c)) }
  evBind (xformPass o16 b (part hi)) fun y => evBind (xformPass o16 b (part lo)) fun z =>
    zipEv (fun (p q : FVal × Bool) => evBind (addB32 p.1 q.1) fun s => ((s, p.2 || q.2 || blk.any (·.poison)), .zero)) y z

/-- XFORM: each block of 2^LOG2B elements by the matrix B, by rows. -/
def xform (o : QOp) (a b : List Opnd) : List (FVal × Bool) × Events :=
  evBind (mapEv (if o.xprec then xformSplit o b else xformPass o b) (chunksOf (2 ^ o.log2b) a)) fun r => (r.flatten, .zero)

/-! ### Vector operations -/

/-- The vector operation reads B, and reads its output. -/
def readsB (kind : Nat) : Bool := [1, 2, 3, 4, 5, 6, 8, 9].contains kind
def readsOut (kind : Nat) : Bool := kind == 4 || kind == 11

/-- Formats in which the vector plane runs an operation by itself: those of Table 3.4, every floating-point format for
MIN, MAX and SIGN. -/
def ownFmts (kind : Nat) : List Nat :=
  if kind ≤ 4 then [0, 1, 2, 3, 15] else if kind = 5 then [0, 1, 15] else if kind = 6 ∨ kind = 7 then [0, 1]
  else if kind = 8 ∨ kind = 9 ∨ kind = 13 then [0, 1, 2, 3, 4, 5, 6, 7, 8, 15] else []

/-- The format in which an element-wise operation computes (DESIGN CHOICE, log 61: the manual names none): that of its
operands where all have one and the plane runs the operation in it; binary64 where an operand has it, or is a K36
operand of a division or root; else binary32 for a division or root, and the accumulator code for any other. -/
def QOp.vecFmt (o : QOp) : Nat :=
  let used := o.fa :: ((if readsB o.kind then [o.fb] else []) ++ (if readsOut o.kind then [o.fo] else []))
  let has := fun c => used.any (fun f => !f.scaled && f.elem == c)
  if used.all (fun f => !f.scaled && f.elem == o.fa.elem) && (ownFmts o.kind).contains o.fa.elem then o.fa.elem
  else if (ownFmts o.kind).contains 0 && (has 0 || ((o.kind == 6 || o.kind == 7) && has 15)) then 0
  else if o.kind = 6 ∨ o.kind = 7 then 1
  else o.acc

/-- An operand's value in the format of the operation; a NaN stays as it is, so that a signalling one counts once. -/
def Opnd.inFmt (c : Nat) (o : Opnd) : FVal × Events :=
  evBind (o.full c) fun v => if v.isNan then (v, .zero) else evBind (encVal c v) fun n => (decodeCode c n, .zero)

/-- sign of a value: −1, +0 or 1; a NaN gives NaN. -/
def signVal (x : FVal) : FVal :=
  match x with
  | .nan _ _ => nanOf [x]
  | .inf n => .fin n 1 0
  | .fin n m _ => if m = 0 then .fin false 0 0 else .fin n 1 0

/-- One element of a vector operation in a format. -/
def vecElem (kind c : Nat) (scalar a b o : FVal) : Nat × Events :=
  match kind with
  | 1 => addOp c a b
  | 2 => subOp c a b
  | 3 => mulOp c a b
  | 4 => fmaOp c a b o
  | 5 => fmaOp c scalar a b
  | 6 => divOp c a b
  | 7 => sqrtOp c a
  | 8 => minOp c a b
  | 9 => maxOp c a b
  | 11 => addOp c o a
  | _ => deliver c [a] (signVal a).exact false

/-- Values of a list of operands in a format. -/
def fullVals (c : Nat) (a : List Opnd) : List FVal × Events := mapEv (Opnd.full c) a

/-- A vector operation on operands of M elements. -/
def vector (o : QOp) (a b out : List Opnd) : List (FVal × Bool) × Events :=
  let some_ := a.any (·.poison)
  match o.kind with
  | 10 => mapEv (fun (x : Opnd) => evBind (x.full o.acc) fun v => ((v, x.poison), .zero)) a
  | 12 => evBind (mapEv (fun (blk : List Opnd) =>
      let c := o.acc
      evBind (mapEv (fun (x : Opnd) => evBind (x.full c) (encVal c)) (padTo (2 ^ o.log2b) Opnd.none_ blk)) fun e =>
      evBind (inverseHad c o.log2b e) fun h => (h.map (fun v => (decodeCode c v, blk.any (·.poison))), Events.zero))
        (chunksOf (2 ^ o.log2b) a)) fun r => (r.flatten, .zero)
  | 14 => evBind (foldEv (fun s (x : Opnd) => evBind (x.full 0) fun v => evBind (encVal 0 v) fun n =>
      evBind (fMul 0 n n) (fAdd 0 s)) 0 a) fun r => ([(decodeCode 0 r, some_)], .zero)
  | 15 => evBind (fullVals o.acc a) fun vs =>
      ([(ofInt (vs.filter (fun v => !v.isFin)).length, some_)], { Events.zero with invalid := (vs.filter FVal.signalling).length })
  | 16 => evBind (fullVals o.acc a) fun vs =>
      ([(maxAbs vs, some_)], { Events.zero with invalid := (vs.filter FVal.signalling).length })
  | kind =>
    let c := o.vecFmt
    mapIxEv (fun i (x : Opnd) =>
      let y := if readsB kind then b.getD i Opnd.none_ else Opnd.none_
      let w := if readsOut kind then out.getD i Opnd.none_ else Opnd.none_
      evBind (x.inFmt c) fun ea => evBind (y.inFmt c) fun eb => evBind (w.inFmt c) fun eo =>
      evBind ((Opnd.mk .one (decodeCode 1 (o.w 14)) false).inFmt c) fun es =>
      evBind (vecElem kind c es ea eb eo) fun r => ((decodeCode c r, x.poison || y.poison || w.poison), Events.zero)) 0 a

/-! ### Running and completing an operation (R348) -/

/-- The shapes of A, B, an output that is read, and the output. A and the output lie by rows and B by columns, each row
or column a matrix row of its own; an operation on M elements takes one row, and a transform's matrix its rows
(DESIGN CHOICE, log 27). -/
def QOp.shapes (o : QOp) (target : Nat) : Shape × Shape × Shape × Shape :=
  let one : Shape := ⟨1, o.m⟩
  let nil : Shape := ⟨0, 0⟩
  if target = 0 then
    if o.kind = 2 then (one, ⟨2 ^ o.log2b, 2 ^ o.log2b⟩, nil, one) else (⟨o.m, o.k⟩, ⟨o.n, o.k⟩, nil, ⟨o.m, o.n⟩)
  else (one, if readsB o.kind then one else nil, if readsOut o.kind then one else nil,
    if 14 ≤ o.kind then ⟨1, 1⟩ else if o.kind = 12 then ⟨1, (o.m + 2 ^ o.log2b - 1) / 2 ^ o.log2b * 2 ^ o.log2b⟩ else one)

/-- Run an operation on its target; none when an address fails in execution. -/
def Dev.opRun (d : Dev) (c target : Nat) (o : QOp) : Option Dev :=
  if target = 2 then
    let n := o.m
    if o.kind = 1 then
      match d.opRead c o.aAddr n with
      | some r => r.2.opWrite c o.oAddr r.1.1 r.1.2
      | none => none
    else d.opWrite c o.oAddr ((List.range n).map (fun i => BitVec.ofNat 8 (o.w 14 / 2 ^ (8 * (i % 4))))) (fun _ => false)
  else
    let sh := o.shapes target
    match d.opOperands c o.aAddr o.fa sh.1 with
    | none => none
    | some a => match a.2.opOperands c o.bAddr o.fb sh.2.1 with
      | none => none
      | some b => match b.2.opOperands c o.oAddr o.fo sh.2.2.1 with
        | none => none
        | some w =>
          let r := if target = 1 then vector o a.1 b.1 w.1 else if o.kind = 2 then xform o a.1 b.1 else gemm o a.1 b.1
          (w.2.coreEvents c r.2).opResult c o sh.2.2.2 r.1

/-- An operation waits for a function that cannot issue requests now (R273): A, B or an output that it reads lies behind
PCIe. -/
def Dev.opHeld (d : Dev) (c target : Nat) (o : QOp) : Bool :=
  let reads := if target = 2 then (if o.kind = 1 then [o.aAddr] else [])
    else [o.aAddr] ++ (if target = 0 || readsB o.kind then [o.bAddr] else []) ++ (if target = 1 && readsOut o.kind then [o.oAddr] else [])
  reads.any (fun a => d.loadHeld c (d.decode none a))

/-- The unit that ran an operation of a plan's core counts it. -/
def Dev.opServed (d : Dev) (c target : Nat) (o : QOp) : Dev :=
  match d.planOfCore c, d.opUnit c target o with
  | some slot, some u => d.unitRan u slot
  | _, _ => d

/-- The operation's unit may run it now (R113). -/
def Dev.opTurn (d : Dev) (c target : Nat) (o : QOp) : Bool :=
  target == 2 || (match d.opUnit c target o, d.planOfCore c with
    | some u, some slot => d.unitTurn u slot
    | some _, none => true
    | none, _ => false)

/-- ISSUE_OP_COMPLETE: the head of a queue, when its wait is released and its unit's turn has come, runs and signals its
DONE counter; one whose address fails is abandoned without a signal, with an imprecise BUS_ERROR at the core (R351). -/
def Dev.issueComplete (d : Dev) (c target : Nat) : Dev :=
  match tblGetD (d.core c).queues target [] with
  | [] => d
  | o :: rest =>
    if !o.released || !d.opTurn c target o || d.opHeld c target o then d
    else
      let pop := fun (d : Dev) => (d.modCore c (fun k => { k with queues := tblPut k.queues target rest })).headWait c target
      match d.opRun c target o with
      | some d' =>
        let d' := pop (d'.opServed c target o)
        if o.doneEn then d'.signal c o.doneCtr else d'
      | none => (pop (d.count itUnmapped)).trap c 6 (some o.oAddr) true (d.core c).pc (d.core c).pre

/-! ### Dumps and the deadlock detector (R354, R355) -/

/-- All core IDs (Table 11.1). -/
def coreIds : List Nat := List.range 0x80 ++ (List.range 64).map (· + 0x80) ++ (List.range 10).map (· + 0xC0)

/-- The counter is watched by the detector. -/
def Dev.watched (d : Dev) (c n : Nat) : Bool :=
  if n < 32 then bit (d.fld F.KRF_DL_WATCH_LO_MASK c) n else bit (d.fld F.KRF_DL_WATCH_HI_MASK c) (n - 32)

/-- The 32 B entry of a counter. -/
def Dev.dumpEntry (d : Dev) (c n : Nat) : List Byte :=
  let v := (d.core c).ctr n
  let slot := fun i => match v.waits.find? (fun w => w.num = i) with
    | some w => 1 + 2 * b2n w.observing + 2 ^ 16 * (w.t % 2 ^ 16)
    | none => 0
  le 2 v.count ++ le 1 (b2n v.satHi + 2 * b2n v.satLo + 4 * b2n (d.watched c n)) ++
  le 1 (packBits 1 ((List.range 4).map (fun i => b2n (v.waits.any (fun w => w.num = i))))) ++
  ((List.range 4).map (fun i => le 4 (slot i))).flatten ++ le 8 v.lastSig.toNat ++ zeros 4

/-- The record of a core; counters of a slice that the requesting function, of port `port`, does not manage are 0. -/
def Dev.dumpRecord (d : Dev) (c port : Nat) (detector : Bool) : List Byte :=
  let plan := (d.planOfCore c).bind d.plan
  let shown := match plan with
    | some p => d.manages port p.slice
    | none => true
  le 2 0x0100 ++ le 1 c ++ le 1 (d.ring.state.code + 4 * b2n detector) ++ le 4 (tblGetD d.kerf.dumpSeq c 0) ++
  le 8 d.stamp.toNat ++ le 2 (match plan with
    | some p => if shown then p.cfg.planId.toNat else 0xFFFF
    | none => 0xFFFF) ++ zeros 14 ++
  ((List.range 48).map (fun n => if shown then d.dumpEntry c n else zeros 32)).flatten

/-- Write the records of some cores to KRF_DUMP_ADDR for a manager function, that of port `req`. -/
def Dev.dump (d : Dev) (cores : List Nat) (req : Nat) (detector : Bool) : Dev :=
  let port := d.fld F.KRF_DUMP_CTRL_PORT 0
  let base := d.fld F.KRF_DUMP_ADDR_ADDR 0 / 64 * 64
  let recs := cores.map (fun c => d.dumpRecord c req detector)
  let d := cores.foldl (fun d c => { d with kerf := { d.kerf with
    dumpSeq := tblPut d.kerf.dumpSeq c ((tblGetD d.kerf.dumpSeq c 0 + 1) % 2 ^ 32) } }) d
  d.dmaOwn port base recs.flatten

/-- STATE_DUMP: a write of KRF_DUMP_CTRL through a port, with START. -/
def Dev.stateDump (d : Dev) (port : Nat) (val : W32) : Dev :=
  let d := (d.setFld F.KRF_DUMP_CTRL_PORT 0 (bits val.toNat 2 2)).setFlag F.KRF_DUMP_CTRL_ALL 0 (val.getLsbD 4)
  if !val.getLsbD 0 then d
  else d.dump (if val.getLsbD 4 then coreIds else coreIds.filter (· == d.fld F.KRF_CORE_SEL_CORE port)) port false

/-- DEADLOCK_FIRE: every watched counter has a waiter, and none has had a signal for the window. No function asked for its
dump, which goes to PF0 of KRF_DUMP_CTRL.PORT (DEDUCED, log 41). -/
def Dev.deadlock (d : Dev) : Dev :=
  let held := coreIds.filter (fun c => (List.range 48).any (d.watched c))
  if !d.flag F.KRF_DL_CTRL_EN 0 ∨ held.isEmpty ∨
     !held.all (fun c => (List.range 48).all (fun n => !d.watched c n || !((d.core c).ctr n).waits.isEmpty)) then d
  else
    let d := (d.setFlag F.KRF_DL_STATUS_FIRED 0 true).setFld F.KRF_DL_STATUS_CORE 0 (held.headD 0)
    let d := d.faultOpen 44 .contained (held.headD 0) 0
    if d.flag F.KRF_DL_CTRL_DUMP 0 then d.dump held (d.fld F.KRF_DUMP_CTRL_PORT 0) true else d

end Sys2Proof.Machine
end

