-- ==== Sys2Proof/Machine/Images.lean ====
section
/-! DEFINITION. Versions and images: how configuration images and firmware images are checked, and the cores that run
firmware images (00_scope R18, 12_firmware_commands R358 to R364, R378, R379). -/

namespace Sys2Proof.Machine

/-- A version is accepted (R18): the same major number, and a minor number at most the device's own. -/
def versionOk (own v : Nat) : Bool := v / 256 == own / 256 && v % 256 ≤ own % 256

/-- Usable LPDDR5X in GiB (Table 5.1). -/
def dataGib (sparing : Bool) : Nat := if sparing then 464 else 496

/-- The slice pool of an image in GiB, the system reserve taking 8 (R165). -/
def poolGib (g : CfgImage) : Nat := dataGib g.sparing - 8 - g.stagingGib

/-- Why a copy fails (R360, R361): status and section type; none when it passes. -/
def checkCopy (g : CfgImage) : Option (Nat × Nat) :=
  if !g.sigOk ∨ !g.chainOk then some (stBadSig, 0)
  else if !versionOk 0x0100 g.version.toNat ∨ g.minRom.toNat > 0x0700 then some (stVersion, 0)
  else if g.badSection ≠ 0 then some (stRefused, g.badSection)
  else if g.stagingGib > 448 ∨ (poolGib g) < 16 then some (stRefused, 3)
  else none

/-! ### Cores that run firmware (R378 to R380) -/

/-- The core of a Scaler. -/
def scalerCore (die : Die) : Nat := 0xC8 + die.num

/-- The kind of image that a core runs: 1 Ranger, 2 stream core, 3 Scaler; 0 for a sequencer core or no core. -/
def coreKind (c : Nat) : Nat := if c < 0x80 then 2 else if c < 0xC0 then 0 else if c < 0xC8 then 1 else if c < 0xCA then 3 else 0

/-- The cores of a kind in ascending core ID. -/
def coresOf (kind : Nat) : List Nat := coreIds.filter (fun c => coreKind c == kind)

/-- The firmware side of a core. -/
def Dev.fwCore (d : Dev) (c : Nat) : FwCore := tblGetD d.scaler.cores c ⟨[], false, none⟩

/-- Change the firmware side of a core. -/
def Dev.modFw (d : Dev) (c : Nat) (f : FwCore → FwCore) : Dev :=
  { d with scaler := { d.scaler with cores := tblPut d.scaler.cores c (f (d.fwCore c)) } }

/-- The counters of a core while it is loaded again: they stay live, and its own wait ends (R349). -/
def Core.liveCtrs (k : Core) : Tbl SyncCtr := tblMap k.ctrs (fun _ v => { v with waits := v.waits.filter (·.num != 0) })

/-- A core runs with a context: its counters, what interrupts it and the exceptions it counted stay live. -/
def Dev.runCore (d : Dev) (c : Nat) (k : Core) : Dev :=
  let l := d.core c
  d.setCore c { k with
    state := .running, ctrs := l.liveCtrs, smpPend := k.smpPend || l.smpPend, mboxPend := k.mboxPend || l.mboxPend, exc := l.exc }

/-- A core starts an image from its entry. -/
def Dev.startCore (d : Dev) (c : Nat) (g : FwCode) : Dev :=
  (d.modFw c (fun f => { f with image := some g })).runCore c { Core.init with pc := g.entry % 2 ^ 19, mem := imageWords g.code }

/-- A Scaler starts on the ROM, or on the extension that runs. -/
def Dev.startScaler (d : Dev) (die : Die) : Dev :=
  match tblGet d.scaler.running 3 with
  | some g => d.startCore (scalerCore die) g
  | none => d.runCore (scalerCore die) Core.init

/-- Every Ranger runs a loaded image. -/
def Dev.rangersRun (d : Dev) : Bool := (coresOf 1).all (fun c => (d.fwCore c).image.isSome)

/-- HOST_WAIT ends when every Ranger runs a loaded image (Table 12.3). -/
def Dev.bootRunning (d : Dev) : Dev :=
  if d.scaler.boot = .hostWait ∧ d.rangersRun then { d with scaler := { d.scaler with boot := .running } } else d

/-! ### Staging (R364) -/

/-- Why a firmware image fails its checks (R363, R364). -/
def Dev.checkImage (d : Dev) (g : FwImage) : Option Nat :=
  let operator : Bool := match d.scaler.accepted with
    | some a => a.operatorImages
    | none => false
  match g.cfg with
  | some c => if g.kind = 4 then (checkCopy c).map (·.1) else some stRefused
  | none =>
    if !g.sigOk ∨ g.signer > 8 ∨ (g.signer ≠ 0 ∧ !operator) then some stBadSig
    else if g.minRom.toNat > 0x0700 ∨ !versionOk 0x0100 g.version.toNat then some stVersion
    else if g.kind = 0 ∨ g.kind > 3 then some stRefused
    else if (coresOf g.kind).any (fun c => g.body.code.length > localWords c) then some stRefused
    else none

/-- Record a staged image that passed its checks: its digest goes to Bark (R364, Table 13.2). -/
def Dev.stageImage (d : Dev) (g : FwImage) : Dev :=
  let d : Dev := { d with scaler := { d.scaler with staged := tblPut d.scaler.staged g.kind g } }
  if g.kind ≤ 3 then d.measure (8 + g.kind) g.body.digest else d

/-- The directory is rewritten (R259). -/
def Dev.rewriteDir (d : Dev) : Dev := { d with scaler := { d.scaler with dirGen := d.scaler.dirGen + 1 } }

end Sys2Proof.Machine
end

