-- ==== Sys2Proof/Machine/Boot.lean ====
section
/-! DEFINITION. The boot stages (12_firmware_commands R361, R365 to R367, 05_memory R165, R172, R176, R177). -/

namespace Sys2Proof.Machine

/-- Set the boot stage. -/
def Dev.setBoot (d : Dev) (b : Boot) : Dev := { d with scaler := { d.scaler with boot := b } }

/-- The stages can run: power, reset pins released, reference clocks (R454). -/
def Dev.bootReady (d : Dev) : Bool :=
  d.pwrGood && !d.pins.mrstLow && !d.pins.wrstLow && d.pins.xclkA && d.pins.xclkB

/-- The usable banks of an SRAM by MEM_SRAM_AVAIL index: 64 for an I/O die, 384 for a compute die (Table 5.1). -/
def sramNominal (m : Nat) : Nat := if m < 2 then 64 else 384

/-- SRAM_TEST_STAGE (R176, R177): per SRAM, the banks that pass or are repaired, spare banks included, and the columns
repaired. Banks marked for retirement count as faulty. -/
def Dev.sramTest (d : Dev) (res : List (Nat × Nat)) : Dev :=
  if d.scaler.boot ≠ .reset ∨ !d.bootReady then d
  else
    let good := fun m => (res.getD m (sramNominal m, 0)).1 - (d.mem.retire.filter (fun e => e.1 = m)).length
    let d1 := (List.range 6).foldl (fun d m =>
      ((d.setFld (F.MEM_SRAM_AVAIL_BANKS_OK m) 0 (min (sramNominal m) (good m))).setFld (F.MEM_SRAM_AVAIL_SPARES_LEFT m) 0
        (good m - sramNominal m)).setFld (F.MEM_SRAM_AVAIL_COLS_REPAIRED m) 0 (res.getD m (0, 0)).2) d
    let d1 : Dev := { d1 with mem := { d1.mem with retire := [] } }
    match [0, 1].find? (fun m => good m < 64) with
    | some m => (d1.setBoot .sramTest).faultOpen (14 + m) .fatal m 0
    | none => d1.setBoot .imageRead

/-- BOOT_HOLD (R361): Scaler W, Bark, Ring and the sideband run. -/
def Dev.bootHold (d : Dev) (status section_ : Nat) : Dev :=
  let d := if d.pwr.cold then d.measure 1 Config.romDigest else d
  let d := ((d.setFld F.SCL_BOOT_ERR_STATUS 0 status).setFld F.SCL_BOOT_ERR_SECTION 0 (section_ % 8192)).setBoot .hold
  let d : Dev := { d with
    scaler := { d.scaler with inUse := none, tryB := none, lease := { d.scaler.lease with acting := [.west] } }
    pwr := { d.pwr with cold := false } }
  d.startScaler .west

/-- IMAGE_READ_STAGE (R361): both headers are read, and the copy with the higher SEQ is chosen, A when they are equal.
`flash` is what an external programmer left in the flash, none when it holds what the device last found or
wrote (DEDUCED, log 43). -/
def Dev.imageRead (d : Dev) (flash : Option (FlashCopy × FlashCopy)) : Dev :=
  if d.scaler.boot ≠ .imageRead ∨ !d.bootReady then d
  else
    let a := (flash.map (·.1)).getD d.scaler.flashA
    let b := (flash.map (·.2)).getD d.scaler.flashB
    let d := ((d.setFlag F.SCL_BOOT_ERR_A_FAIL 0 a.isNone).setFlag F.SCL_BOOT_ERR_B_FAIL 0 b.isNone).setFld F.SCL_BOOT_ERR_SECTION 0 0
    let d : Dev := { d with scaler := { d.scaler with flashA := a, flashB := b, accepted := none, inUse := none } }
    let go := fun (x : Bool) => ({ d with scaler := { d.scaler with tryB := some x, boot := .verify } } : Dev)
    match a, b with
    | none, none => d.bootHold stRefused 0
    | some _, none => go false
    | none, some _ => go true
    | some x, some y => go (y.seq > x.seq)

/-- VERIFY_STAGE (R360, R361): the chosen copy is checked; when it fails the other one is, and without one the device
holds. -/
def Dev.verifyStage (d : Dev) : Dev :=
  match d.scaler.boot, d.scaler.tryB with
  | .verify, some x =>
    if !d.bootReady then d
    else match (if x then d.scaler.flashB else d.scaler.flashA) with
      | none => d
      | some g => match checkCopy g with
        | none =>
          let d := (d.setFld F.SCL_BOOT_ERR_STATUS 0 0).setFlag F.SCL_BOOT_ERR_COPY 0 x
          { d with scaler := { d.scaler with accepted := some g, inUse := some x, boot := .apply } }
        | some (st, sec) =>
          let d := d.setFlag (if x then F.SCL_BOOT_ERR_B_FAIL else F.SCL_BOOT_ERR_A_FAIL) 0 true
          let other := if x then F.SCL_BOOT_ERR_A_FAIL else F.SCL_BOOT_ERR_B_FAIL
          if d.flag other 0 then d.bootHold st sec
          else
            let d := d.setFld F.SCL_BOOT_ERR_SECTION 0 (sec % 8192)
            { d with scaler := { d.scaler with tryB := some (!x) } }
  | _, _ => d

/-- The fields that the sections of an image set (Table 12.2). -/
def Dev.applyFields (d : Dev) (g : CfgImage) : Dev :=
  let put := fun (d : Dev) (e : Fld × Nat) => d.setFld e.1 0 e.2
  let d := [(F.SKD_NODE_NODE, g.node.toNat), (F.MEM_CAP_DATA_GIB, dataGib g.sparing), (F.MEM_CAP_STAGING_GIB, g.stagingGib),
    (F.MEM_CAP_SPARING, b2n g.sparing), (F.MEM_CTRL_SCRUB_LP, g.scrubLp), (F.MEM_CTRL_SCRUB_SR, g.scrubSr),
    (F.MEM_POOL_PAGES_PAGES, (poolGib g) * 512), (F.CRD_CAP_AVAIL, b2n (g.stagingGib ≥ 2)), (F.PWR_LIMIT_UV_WARN, g.uvWarn),
    (F.PWR_LIMIT_CEILING, min g.ceiling 950), (F.PWR_CTRL_CAP, min g.ceiling 950)].foldl put d
  let d := (List.range 4).foldl (fun d i => d.setFld (F.BKR_HASH_SEED_SEED i) 0 (g.seeds.getD i 0).toNat) d
  g.fields.foldl (fun d e => match (fieldsOf allRows e.1).find? (fun f => f.lo == e.2.1) with
    | some f => d.setFld f 0 e.2.2
    | none => d) d

/-- Post-package repair of the rows of the repair list (R172): a row without a repair resource goes to the soft remap
table. -/
def Dev.repairRows (d : Dev) (g : CfgImage) (full : List (Nat × Nat)) : Dev :=
  g.repairs.foldl (fun d r =>
    if d.mem.ppr.contains r then d
    else if full.contains r then d.rowSpare r.1 r.2 true
    else { d with mem := { d.mem with ppr := d.mem.ppr ++ [r] } }) d

/-- Retired macros of an image (Table 16.10). -/
def retiredMacros (g : CfgImage) : List Nat :=
  (List.range 36).filter (fun m => if m < 18 then g.retireW.getLsbD m else g.retireE.getLsbD (m - 18))

/-- The slices of the image (Table 12.2): each as by its commands, from the manager function of its home port. -/
def Dev.imageSlices (d : Dev) (g : CfgImage) : Dev :=
  g.slices.foldl (fun d e =>
    let by_ := fun (p : Nat) => ({ e.2 with iss := .pf0 p } : Cmd)
    match e.1 with
    | 0x0201 => (d.sliceBind (by_ (bits (e.2.w 0) 1 2))).dev
    | 0x0202 => (d.sliceQuota (by_ (d.slice e.2.slice).home)).dev
    | 0x0203 => (d.sliceWindow (by_ (d.slice e.2.slice).home)).dev
    | _ => d) d

/-- What only a cold reset does in stage APPLY: repairs, the lanes and their macros, the identity of Bark, Ring at 0. -/
def Dev.applyCold (d : Dev) (g : CfgImage) (full : List (Nat × Nat)) (badMacros : List Nat) (idMatch : Bool) : Dev :=
  let d := ((d.repairRows g full).deriveIdentity).setFlag F.BRK_STATUS_ID_MATCH 0 idMatch
  let lost := (retiredMacros g ++ badMacros.filter (fun m => m < 36)).foldl addOnce []
  { d with
    ring := { d.ring with acc := 0 }
    lanes := { d.lanes with lost := lost }.assign }.measure 1 Config.romDigest

/-- APPLY_STAGE (Table 12.3): settings, repairs, Ring, lead, image slices, the start of the pool's zeroing. `full` are the
rows without a repair resource, `badMacros` the SerDes macros that fail self-test (die × 18 + macro), `idMatch` the
comparison of R386. -/
def Dev.applyStage (d : Dev) (full : List (Nat × Nat)) (badMacros : List Nat) (idMatch : Bool) : Dev :=
  match d.scaler.boot, d.scaler.accepted with
  | .apply, some g =>
    if !d.bootReady then d
    else
      let d := d.applyFields g
      let d : Dev := { d with lanes := { d.lanes with group := g.groups, txInv := g.txInv, rxInv := g.rxInv } }
      let d := if d.pwr.cold then d.applyCold g full badMacros idMatch else d.setFlag F.PWR_RESET_CAUSE_WARM 0 true
      let d := ((d.measure 2 g.digest).measure 3 g.policyDigest).measure 4 (BitVec.ofNat 256 g.node.toNat)
      let d := [ikBacking .west, ikBacking .east, ikJournal, ikHandoff].foldl Dev.makeInternal d
      let d := d.measure 5 ((g.scalerExt.map (·.digest)).getD 0)
      let d : Dev := { d with
        scaler := { d.scaler with
          boot := .hostWait
          running := match g.scalerExt with
            | some x => [(3, x)]
            | none => []
          lease := { d.scaler.lease with
            lead := .west
            acting := [.west]
            cells := [(0, (d.scaler.lease.epoch, Die.west, d.clk)), (1, (d.scaler.lease.epoch, Die.west, d.clk))]
            counted := d.clk } }
        pwr := { d.pwr with cold := false } }
      let d := (d.startScaler .west).startScaler .east
      ((d.setFlag F.MEM_STATUS_ZERO_BUSY 0 true).imageSlices g).rewriteDir
  | _, _ => d

end Sys2Proof.Machine
end

