-- ==== Sys2Proof/Machine/RingTime.lean ====
section
/-! DEFINITION. Ring time, its servo and PPS, and the events of the die-to-die links (01_package_and_time). -/

namespace Sys2Proof.Machine

/-! ### The master counter (R35, R36, R38, R44) -/

/-- The nominal addend, 4 ns per TCLK edge, and the clamp distance of ±500 ppm (R35). -/
def nominalAddend : Nat := 0x400000000
def addendSpan : Nat := 8589935

/-- An addend clamped to within ±500 ppm of nominal. -/
def clampAddend (v : Nat) : Nat := max (nominalAddend - addendSpan) (min (nominalAddend + addendSpan) v)

/-- TIM_SLEW_RATE in force: 1 to 1,000 ppm. -/
def Dev.slewPpm (d : Dev) : Nat := max 1 (min 1000 (d.fld F.TIM_SLEW_RATE_PPM 0))

/-- The change of the addend at one edge by the running slew: PPM of the addend, until the amount is used up
(R36). The product is cut to whole units of 2^-32 ns (DESIGN CHOICE, log 58). -/
def slewDelta (addend ppm : Nat) (slew : Int) : Int :=
  let m := addend * ppm / 1000000
  if slew < 0 then -(min m slew.natAbs : Nat) else (min m slew.natAbs : Nat)

/-- A second boundary lies above `a` and at or below `b`. -/
def secondReached (a b : Nat) : Bool := a / 1000000000 < b / 1000000000

/-- A second boundary lies above `a` and below `b`. -/
def secondSkipped (a b : Nat) : Bool := a / 1000000000 < (b - 1) / 1000000000

/-- The value of the accumulator at the next TCLK edge: the effective addend, and a pending step (R35, R36). -/
def Ring.nextAcc (r : Ring) (ppm : Nat) : BitVec 96 :=
  BitVec.ofNat 96 (r.acc.toNat + ((r.addend.toNat : Int) + slewDelta r.addend.toNat ppm r.slew).toNat +
    (match r.step with
      | some s => s.toNat * 2 ^ 32
      | none => 0))

/-- One TCLK edge of Ring. At the edge of a step, every boundary between the values before and after the edge counts as
skipped, also one that the addend alone would have crossed (DESIGN CHOICE, log 58). -/
def Dev.ringTick (d : Dev) : Dev :=
  let r := d.ring
  let acc := r.nextAcc d.slewPpm
  let a := (r.acc.toNat / 2 ^ 32)
  let b := (acc.toNat / 2 ^ 32)
  let stepped := r.step.isSome
  let due := if stepped then b % 1000000000 == 0 && a < b else secondReached a b
  let skip := stepped && secondSkipped a b && d.flag F.TIM_CTRL_PPS_OUT_EN 0 && r.isSet
  let free := stepped && d.fld F.TIM_CTRL_SRC 0 == 0
  let d := { d with
    clk := d.clk + 1
    ring := { r with
      acc := acc
      slew := r.slew - slewDelta r.addend.toNat d.slewPpm r.slew
      step := none
      ppsDue := due
      state := if free then .free else r.state } }
  if skip then d.setFlag F.TIM_STATUS_PPS_SKIP 0 true else d

/-- Load TIM_ADDEND (R35). -/
def Dev.putAddend (d : Dev) (v : W64) : Dev :=
  let n := v.toNat % 2 ^ 40
  let d' := { d with ring := { d.ring with addend := BitVec.ofNat 40 (clampAddend n) } }
  if clampAddend n = n then d' else d'.setFlag F.TIM_STATUS_ADDEND_CLAMP 0 true

/-- Set Ring, once (R36): NS is loaded and the fraction cleared. FREE follows a set while SRC is 0 (R42). -/
def Dev.putSet (d : Dev) (v : W64) : Dev :=
  { d with ring := { d.ring with
      acc := BitVec.ofNat 96 (v.toNat * 2 ^ 32)
      isSet := true
      state := if d.fld F.TIM_CTRL_SRC 0 = 0 then .free else d.ring.state } }

/-- Schedule a step for the next edge (R36); steps written before one edge add up. -/
def Dev.putStep (d : Dev) (v : W64) : Dev :=
  { d with ring := { d.ring with step := some ((d.ring.step.getD 0) + v) } }

/-- Start a slew; the amount replaces what remains (R36, R38). -/
def Dev.putSlew (d : Dev) (v : W64) : Dev :=
  { d with ring := { d.ring with slew := v.toInt * 2 ^ 32 } }

/-- A host write that is discarded while the servo owns Ring (R37): counted in Tally event 0x002. -/
def Dev.timWrite (d : Dev) (f : Dev → Dev) : Dev :=
  if d.fld F.TIM_CTRL_SRC 0 = 0 then f d else d.count 0x002

/-- A host write of TIM_SET (R36, R37). -/
def Dev.timSet (d : Dev) (v : W64) : Dev :=
  d.timWrite (fun d => if d.ring.isSet then d.count 0x002 else d.putSet v)

/-- What the servo firmware does with Ring (R36, R41): the paths of the host without the check of R37. -/
def Dev.servoAct (d : Dev) : ServoAct → Dev
  | .addend v => d.putAddend v
  | .set v => if d.ring.isSet then d else d.putSet v
  | .step v => d.putStep v
  | .slew v => d.putSlew v

/-- One offset estimate of the servo: LOCKED after 16 consecutive ones within 20 ns (R42). -/
def Dev.servoSample (d : Dev) (offsetNs : Int) : Dev :=
  let n := if offsetNs.natAbs ≤ 20 then d.ring.inBand + 1 else 0
  { d with ring := { d.ring with inBand := n, state := if n ≥ 16 then .locked else d.ring.state } }

/-- The second of the next PPS edge, given the TAI time in ns of this instant. -/
def nextSecond (now : Int) : W64 := BitVec.ofInt 64 (now / 1000000000 + 1)

/-- A PTP message reaches the servo (R41): with SRC 1 it gives an offset estimate, with SRC 3 the second
count alone (R43), and the servo acts. With other sources the servo takes nothing from PTP. -/
def Dev.ptpMessage (d : Dev) (offsetNs : Int) (acts : List ServoAct) : Dev :=
  let src := d.fld F.TIM_CTRL_SRC 0
  if src = 1 then (acts.foldl Dev.servoAct d).servoSample offsetNs
  else if src = 3 then
    acts.foldl Dev.servoAct { d with ring := { d.ring with second := some (nextSecond ((d.ns.toNat : Int) - offsetNs)) } }
  else d

/-- The selected source is lost for some sync intervals (R42). -/
def Dev.sourceLoss (d : Dev) (intervals : Nat) : Dev :=
  if intervals > 3 ∧ d.ring.state = .locked ∧ d.fld F.TIM_CTRL_SRC 0 ≠ 0 then
    { d with ring := { d.ring with state := .holdover, inBand := 0 } }
  else d

/-- A change of TIM_CTRL.SRC: while SRC is not 0 and no source is qualified yet, the servo is FREE (R42). A write of SRC 0
leaves STATE as it is, and a change between two sources starts the qualification anew (DESIGN CHOICE, log 58). -/
def Dev.sourceChange (d : Dev) (old : Nat) : Dev :=
  let src := d.fld F.TIM_CTRL_SRC 0
  if src = old ∨ src = 0 then d else { d with ring := { d.ring with state := .free, inBand := 0 } }

/-! ### PPS (R43, R44) -/

/-- The distance of NS from the nearest second, signed. -/
def secondOffset (ns : Nat) : Int :=
  let r := ns % 1000000000
  if r ≤ 500000000 then (r : Int) else (r : Int) - 1000000000

/-- The offset of Ring at a PPS edge, in ns: from the second that TIME_SECOND or PTP gave for the edge, or with none given
from the nearest second (R43). -/
def Dev.ppsOffset (d : Dev) : Int :=
  match d.ring.second with
  | some s => (d.ns.toNat : Int) - s.toNat * 1000000000
  | none => secondOffset d.ns.toNat

/-- PPS_IN takes a level (R43): an edge to the chosen level while PPS_IN_EN is 1 captures Ring to 250 ps; with
SRC 2 or 3 it gives the servo its phase, and the second given for it. -/
def Dev.ppsEdge (d : Dev) (level : Bool) (acts : List ServoAct) : Dev :=
  let edge := d.ring.ppsIn != level && level == !d.flag F.TIM_CTRL_PPS_IN_EDGE 0
  let d := { d with ring := { d.ring with ppsIn := level } }
  if edge && d.flag F.TIM_CTRL_PPS_IN_EN 0 then
    let overrun := d.flag F.TIM_STATUS_PPS_CAP_VALID 0
    let d := if overrun then d.setFlag F.TIM_STATUS_PPS_OVERRUN 0 true else d
    let d := d.setFld F.TIM_PPS_CAP_NS 0 d.ns.toNat
    let d := d.setFld F.TIM_PPS_CAP_FRAC_FRAC 0 (d.frac.toNat / 16384 * 16384)
    let d := d.setFlag F.TIM_STATUS_PPS_CAP_VALID 0 true
    if d.fld F.TIM_CTRL_SRC 0 ≥ 2 then
      let d := (acts.foldl Dev.servoAct d).servoSample d.ppsOffset
      { d with ring := { d.ring with second := none } }
    else d
  else d

/-- PPS_OUT rises (R44). -/
def Dev.ppsRise (d : Dev) : Dev :=
  if d.ring.ppsDue && d.flag F.TIM_CTRL_PPS_OUT_EN 0 && d.ring.isSet && !d.ring.ppsOut then
    { d with ring := { d.ring with ppsOut := true, ppsDue := false } }.emit (.pps true)
  else d

/-- PPS_OUT falls at the end of its width, also after PPS_OUT_EN was cleared (R44). -/
def Dev.ppsFall (d : Dev) : Dev :=
  if d.ring.ppsOut then { d with ring := { d.ring with ppsOut := false } }.emit (.pps false) else d

/-! ### Replicas (R39, R40) -/

/-- A value in two's complement of 16 bits, saturating. -/
def sat16 (i : Int) : Nat := (max (-32768) (min 32767 i) % 65536).toNat

/-- The measured error of a replica, in 2^-32 ns (R39): the replica, which its own TCLK moved by `drift` since its last
re-alignment, less the master's value that came over the sideband in `fwd`, advanced by half of the measured round trip. -/
def Ring.replicaErr (r : Ring) (m : Nat) (drift : Int) (fwd rtt : Nat) : Int :=
  tblGetD r.skew m 0 + drift - ((rtt / 2 : Nat) - (fwd : Int))

/-- A replica is re-aligned (R39, R40): it takes the master's value advanced by half of the round trip. An error above
1 ns is a corrected fault; above 2 ns the stamps of its die are withheld until a re-alignment finds it within 1 ns. -/
def Dev.realign (d : Dev) (m : Nat) (drift : Int) (fwd rtt : Nat) : Dev :=
  if m ≥ 5 then d
  else
    let e := d.ring.replicaErr m drift fwd rtt
    let d := d.setFld (F.TIM_REPLICA_ERR m) 0 (sat16 (e * 1000 / 2 ^ 32))
    let d : Dev := { d with ring := { d.ring with
      skew := tblPut d.ring.skew m ((rtt / 2 : Nat) - (fwd : Int))
      waking := d.ring.waking.filter (· != m) } }
    if e.natAbs ≤ 2 ^ 32 then
      { d with ring := { d.ring with withheld := d.ring.withheld.filter (· != m) } }
    else
      let d := d.bumpFld (F.TIM_REPLICA_COUNT m) 0 1
      let d := d.setFlag F.TIM_STATUS_REPLICA_ERR 0 true
      let d := d.fault 41 .corrected 10 m 0
      if e.natAbs > 2 ^ 33 then { d with ring := { d.ring with withheld := addOnce d.ring.withheld m } } else d

/-! ### Commands (Table 12.8) -/

/-- PTP_CONFIG (Table 1.7). -/
def Dev.ptpConfig (c : Cmd) (d : Dev) : Reply :=
  let w0 := c.w 0
  if w0 ≥ 2 ^ 12 ∨ bits w0 10 2 = 3 ∨ c.w 1 ≥ 2 ^ 32 ∨ c.w 2 ≥ 2 ^ 32 ∨ c.w 3 ≠ 0 ∨ c.w 4 ≠ 0 ∨ c.w 5 ≠ 0 then
    .refuse d rsBadField
  else
    .ok { d with ring := { d.ring with ptp :=
      ⟨bits w0 0 8, bit w0 8, bit w0 9, bits w0 10 2, c.w1, bits (c.w 2) 0 8, bits (c.w 2) 8 8,
        bits (c.w 2) 16 8, sint8 (bits (c.w 2) 24 8)⟩ } } []
where
  /-- log2 sync interval, signed. -/
  sint8 (n : Nat) : Nat := n

/-- TIME_SECOND (R43): accepted only with SRC 2. -/
def Dev.timeSecond (c : Cmd) (d : Dev) : Reply :=
  if c.w 1 ≠ 0 ∨ c.w 2 ≠ 0 ∨ c.w 3 ≠ 0 ∨ c.w 4 ≠ 0 ∨ c.w 5 ≠ 0 then .refuse d rsBadField
  else if d.fld F.TIM_CTRL_SRC 0 ≠ 2 then .refuse d rsWrongState
  else .ok { d with ring := { d.ring with second := some c.w0 } } []

/-! ### Die-to-die links (R24 to R27) -/

/-- A link leaves service (R26, R27): its messages are held at their sources, and the fault is contained, or
fatal when two dies have no route left. -/
def Dev.linkFail (d : Dev) (k : Nat) : Dev :=
  if k ≥ 13 ∨ k ∈ d.links.down then d
  else
    let l := { d.links with down := d.links.down ++ [k], held := addOnce d.links.held k }
    { d with links := l }.fault 40 (if l.allRouted then .contained else .fatal) 3 k 0

/-- A link retrains (R26): counted in Tally; three failures within 1 s take it out of service. -/
def Dev.linkRetrain (d : Dev) (k : Nat) (ok : Bool) : Dev :=
  if k ≥ 13 then d
  else
    let d := d.count (0x010 + k)
    if ok then d
    else
      let recent := d.links.failed.filter (fun e => e.1 != k || d.clk - e.2 < sTicks 1)
      let e : Dev := { d with links := { d.links with failed := (k, d.clk) :: recent } }
      if (recent.filter (fun e => e.1 == k)).length ≥ 2 then e.linkFail k else e

/-- A lane is repaired with a redundant one (R26): counted. -/
def Dev.laneRepair (d : Dev) (k : Nat) : Dev := if k ≥ 13 then d else d.count (0x010 + k)

end Sys2Proof.Machine
end

