-- ==== Sys2Proof/Machine/Bucker.lean ====
section
/-! DEFINITION. Bucker: parsing, exact-match classification, fragments and the exception path (07_packet_path
R220 to R233). -/

namespace Sys2Proof.Machine

def itMac (die : Die) : Nat := 4096 + 0x300 + 64 * die.num
def itBkrDrop (die : Die) : Nat := 4096 + 0x301 + 64 * die.num
def itFragDrop (die : Die) : Nat := 4096 + 0x302 + 64 * die.num
def itExcDrop (die : Die) (r : Nat) : Nat := 4096 + 0x308 + 64 * die.num + r
def itBkrDiscard : Nat := 4096 + 0x310

/-! ### Parsing (R220, R221) -/

/-- What the parse found. Offsets are none when the header is absent. -/
structure Parse where
  perr : Nat
  vid : Nat
  tagged : Bool
  etype : Nat
  /-- Start of the frame that the key describes: 0, or the inner frame of VXLAN. -/
  base : Nat
  vni : Nat
  vxlan : Bool
  l3 : Option Nat
  l4 : Option Nat
  inL3 : Option Nat
  inL4 : Option Nat
  /-- Of the innermost IP header: version 6, protocol, addresses, fragment fields and payload length. -/
  ip : Bool
  v6 : Bool
  proto : Nat
  src : List Byte
  dst : List Byte
  frag : Bool
  fragOff : Nat
  more : Bool
  fragId : Nat
  /-- Bytes of the datagram that a fragment carries (R230), and bytes after the headers of the IP layer. -/
  fragBytes : Nat
  payload : Nat
  sport : Nat
  dport : Nat
  ports : Bool
  roce : Bool
  destQp : Nat
  icmp : Nat

/-- Nothing parsed. -/
def Parse.empty : Parse :=
  { perr := 0, vid := 0, tagged := false, etype := 0, base := 0, vni := 0, vxlan := false, l3 := none, l4 := none,
    inL3 := none, inL4 := none, ip := false, v6 := false, proto := 0, src := [], dst := [], frag := false,
    fragOff := 0, more := false, fragId := 0, fragBytes := 0, payload := 0, sport := 0, dport := 0, ports := false, roce := false,
    destQp := 0, icmp := 0 }

/-- VLAN tags from an offset: tags, VID of the last one, offset of the EtherType. 0x88A8 counts only before
0x8100. -/
def tagsFrom (b : List Byte) : Nat → Nat → Nat × Nat × Nat
  | 0, off => (0, 0, off)
  | n + 1, off =>
    let t := beAt b off 2
    if t = 0x8100 ∨ (t = 0x88A8 ∧ beAt b (off + 4) 2 = 0x8100) then
      let r := tagsFrom b n (off + 4)
      (r.1 + 1, if r.1 = 0 then beAt b (off + 2) 2 % 4096 else r.2.1, r.2.2)
    else (0, 0, off)

/-- Where a walk over IPv6 extension headers ends: its failure code of Table 7.2, the next header, the offset after the last
header, and the Fragment header. -/
structure V6Walk where
  code : Nat
  next : Nat
  stop : Nat
  frag : Option Nat

/-- The extension headers of Table 7.1 from an offset, of which `n` more may follow. A header beyond the parsed 256 B fails
with code 1, a fifth one with code 4. What follows the Fragment header of a later fragment is payload. -/
def v6Walk (b : List Byte) : Nat → Nat → Nat → Option Nat → V6Walk
  | 0, nh, off, fr => ⟨if nh = 0 ∨ nh = 43 ∨ nh = 44 ∨ nh = 60 then 4 else 0, nh, off, fr⟩
  | n + 1, nh, off, fr =>
    if nh = 0 ∨ nh = 43 ∨ nh = 44 ∨ nh = 60 then
      let stop := off + (if nh = 44 then 8 else 8 * (beAt b (off + 1) 1 + 1))
      if off + 8 > 256 ∨ stop > 256 then ⟨1, nh, off, fr⟩
      else if nh = 44 ∧ beAt b (off + 2) 2 / 8 ≠ 0 then ⟨0, beAt b off 1, stop, some off⟩
      else v6Walk b n (beAt b off 1) stop (if nh = 44 then some off else fr)
    else ⟨0, nh, off, fr⟩

/-- Where the IP header of a parse ends: its result, and the offset of the L4 header. -/
def parseIp (b : List Byte) (len : Nat) (off : Nat) (p : Parse) : Parse × Nat :=
  if p.etype = 0x0800 then
    let ihl := beAt b off 1 % 16
    let tot := beAt b (off + 2) 2
    let fo := beAt b (off + 6) 2
    let q := { p with
      ip := true, v6 := false, proto := beAt b (off + 9) 1
      src := zeros 10 ++ [0xFF, 0xFF] ++ bytesAt b (off + 12) 4
      dst := zeros 10 ++ [0xFF, 0xFF] ++ bytesAt b (off + 16) 4
      more := bit fo 13, fragOff := fo % 8192 * 8, frag := bit fo 13 || fo % 8192 != 0
      fragId := beAt b (off + 4) 2, fragBytes := tot - 4 * ihl, payload := tot - 4 * ihl }
    if off + 20 > 256 ∨ off + 4 * ihl > 256 then ({ q with perr := 1 }, 0)
    else if ihl < 5 ∨ ipSum (bytesAt b off (4 * ihl)) ≠ 0xFFFF then ({ q with perr := 2 }, 0)
    else if off + tot > len then ({ q with perr := 3 }, 0)
    else (q, off + 4 * ihl)
  else
    let plen := beAt b (off + 4) 2
    let e := v6Walk b 4 (beAt b (off + 6) 1) (off + 40) none
    let fo := match e.frag with
      | some f => beAt b (f + 2) 2
      | none => 0
    let q := { p with
      ip := true, v6 := true, proto := e.next, src := bytesAt b (off + 8) 16, dst := bytesAt b (off + 24) 16
      frag := e.frag.isSome && (fo % 2 == 1 || fo / 8 != 0), fragOff := fo / 8 * 8, more := fo % 2 == 1
      fragId := (match e.frag with
        | some f => beAt b (f + 4) 4
        | none => 0)
      fragBytes := plen - ((match e.frag with
        | some f => f + 8
        | none => e.stop) - (off + 40))
      payload := plen - (e.stop - (off + 40)) }
    if off + 40 > 256 then ({ q with perr := 1 }, 0)
    else if off + 40 + plen > len then ({ q with perr := 3 }, 0)
    else if e.code ≠ 0 then ({ q with perr := e.code }, 0)
    else (q, e.stop)

/-- The L4 header after an IP header: ports, the BTH, ICMPv6 type. The UDP length of a first fragment counts the whole
datagram, so it is not compared with the fragment's payload (DEDUCED from R230, log 57). -/
def parseL4 (b : List Byte) (off : Nat) (p : Parse) : Parse :=
  if p.frag ∧ p.fragOff ≠ 0 then p
  else if p.proto = 17 then
    if off + 8 > 256 then { p with perr := 1 }
    else if beAt b (off + 4) 2 < 8 ∨ (!p.frag ∧ beAt b (off + 4) 2 > p.payload) then { p with perr := 5 }
    else
      let q := { p with sport := beAt b off 2, dport := beAt b (off + 2) 2, ports := true }
      if q.dport = 4791 then
        if off + 20 > 256 then { q with perr := 1 }
        else { q with roce := true, destQp := beAt b (off + 13) 3 }
      else q
  else if p.proto = 6 then
    if off + 20 > 256 then { p with perr := 1 }
    else { p with sport := beAt b off 2, dport := beAt b (off + 2) 2, ports := true }
  else if p.proto = 58 ∧ p.v6 ∧ off < 256 then { p with icmp := beAt b off 1 }
  else p

/-- Parse a frame (Table 7.1). -/
def parseFrame (b : List Byte) (vxEn : Bool) (vxPort : Nat) : Parse :=
  let len := b.length
  let t := tagsFrom b 3 12
  let p := { Parse.empty with
    perr := if t.1 > 2 then 4 else 0
    tagged := t.1 != 0, vid := t.2.1, etype := beAt b t.2.2 2 }
  if p.perr ≠ 0 then p
  else if p.etype ≠ 0x0800 ∧ p.etype ≠ 0x86DD then p
  else
    let l3 := t.2.2 + 2
    let r := parseIp b len l3 { p with l3 := some l3 }
    if r.1.perr ≠ 0 then r.1
    else
      let l4 := r.2
      let q := parseL4 b l4 { r.1 with l4 := if r.1.frag ∧ r.1.fragOff ≠ 0 then none else some l4 }
      if q.perr ≠ 0 ∨ !(vxEn ∧ q.proto = 17 ∧ q.ports ∧ q.dport = vxPort ∧ !q.frag) then q
      else if l4 + 16 > 256 then { q with perr := 1 }
      else if beAt b (l4 + 8) 1 ≠ 8 ∨ beAt b (l4 + 9) 3 ≠ 0 ∨ beAt b (l4 + 15) 1 ≠ 0 then { q with perr := 6 }
      else
        let base := l4 + 16
        let ti := tagsFrom b 1 (base + 12)
        let q := { q with
          vxlan := true, vni := beAt b (l4 + 12) 3, base := base, etype := beAt b ti.2.2 2, roce := false
          ports := false, sport := 0, dport := 0, ip := false, frag := false, proto := 0 }
        if ti.2.2 + 2 > 256 then { q with perr := 1 }
        else if q.etype ≠ 0x0800 ∧ q.etype ≠ 0x86DD then q
        else
          let i3 := ti.2.2 + 2
          let ri := parseIp b len i3 { q with inL3 := some i3 }
          if ri.1.perr ≠ 0 then ri.1
          else parseL4 b ri.2 { ri.1 with inL4 := if ri.1.frag ∧ ri.1.fragOff ≠ 0 then none else some ri.2 }

/-! ### Lookup (R223, R224) -/

/-- The key type: 1 ROCE, 2 IP5, 3 L2. -/
def Parse.ktype (p : Parse) : Nat := if p.roce then 1 else if p.ip then 2 else 3

/-- The 48 B key (Table 7.4). -/
def Parse.key (p : Parse) (b : List Byte) : List Byte :=
  let vid := be 2 (p.vid + (if p.tagged then 32768 else 0))
  match p.ktype with
  | 1 => be 3 p.vni ++ zeros 1 ++ vid ++ zeros 26 ++ p.dst
  | 2 => be 3 p.vni ++ be 1 p.proto ++ vid ++ be 2 p.sport ++ be 2 p.dport ++ zeros 6 ++ p.src ++ p.dst
  | _ => zeros 4 ++ vid ++ be 2 p.etype ++ bytesAt b p.base 6 ++ zeros 2 ++ bytesAt b (p.base + 6) 6 ++ zeros 26

/-- CRC32C started from a seed (R224). -/
def crcSeed (seed : BitVec 32) (bs : List Byte) : BitVec 32 :=
  (bs.foldl (crcByte 0x82F63B78#32) seed) ^^^ 0xFFFFFFFF#32

/-- The table key of a way and index. -/
def entKey (die : Die) (way ix : Nat) : Nat := die.num * 2 ^ 19 + way * 2 ^ 17 + ix

/-- An entry never written. -/
def blankEntry : List W32 := List.replicate 16 0

/-- The words of an entry. -/
def Dev.bkrEnt (d : Dev) (k : Nat) : List W32 := tblGetD d.path.table k blankEntry

/-- Word `i` of an entry. -/
def entWord (e : List W32) (i : Nat) : Nat := (e.getD i 0).toNat

/-- An entry matches a key (R224). -/
def entMatches (e : List W32) (kt : Nat) (key : List Byte) : Bool :=
  bit (entWord e 15) 0 && bits (entWord e 15) 1 4 == kt &&
  ((List.range 12).map (fun i => le 4 (entWord e i))).flatten == key

/-- The hash of way `k`. -/
def Dev.bkrHash (d : Dev) (k : Nat) (key : List Byte) : BitVec 32 :=
  crcSeed (BitVec.ofNat 32 (d.fld (F.BKR_HASH_SEED_SEED k) 0)) key

/-- The entries that match, the lowest way first. -/
def Dev.lookup (d : Dev) (die : Die) (kt : Nat) (key : List Byte) : List (List W32) :=
  ([0, 1, 2, 3].map (fun k => d.bkrEnt (entKey die k ((d.bkrHash k key).toNat % 2 ^ 17)))).filter
    (fun e => entMatches e kt key)

/-- The decision of an entry (Table 7.5), and its policer. -/
def entDisp (e : List W32) : Disp × Option Nat :=
  let w := entWord e 12
  (match bits w 0 2 with
    | 1 => .skid (bits w 2 9)
    | 2 => .core (bits (entWord e 13) 0 16) (bits (entWord e 13) 16 3)
    | _ => .drop,
   if bit w 11 then some (bits w 12 14) else none)

/-! ### Exception path (R232, R233) -/

/-- Tokens of a reason in units of 1/250,000, refilled to the instant: the rate is RATE × 1,000 per second. -/
def Dev.excTokens (d : Dev) (die : Die) (r : Nat) : Nat :=
  let cap := max 1 (d.fld (F.BKR_EXC_BURST r) 0) * 250000
  match tblGet d.path.exc (die.num * 8 + r) with
  | some (t, at_) => min cap (t + (d.clk - at_) * d.fld (F.BKR_EXC_RATE r) 0)
  | none => cap

/-- The metadata of an exception frame (Table 7.6). -/
def Dev.excMeta (d : Dev) (port reason : Nat) (len : Nat) (p : Parse) (user : Nat) (hash : Nat) : List Byte :=
  let off := fun (o : Option Nat) => le 1 (o.getD 0xFF)
  le 2 0x0100 ++ le 1 reason ++ le 1 port ++ le 2 len ++ le 1 (if reason = 1 then p.perr else 0) ++
  le 1 (b2n p.vxlan + 2 * b2n p.v6 + 4 * b2n p.frag + 8 * b2n p.tagged + 16 * d.ring.state.code) ++
  off p.l3 ++ off p.l4 ++ off p.inL3 ++ off p.inL4 ++ le 2 user ++ zeros 2 ++ le 8 ((d.ingressStamp port).toNat / 2 ^ 16) ++ le 4 hash ++
  zeros 4

/-- Send a frame to the exception path with a reason; true when its queue took it. -/
def Dev.exceptionTake (d : Dev) (port reason : Nat) (b : List Byte) (p : Parse) (user prio hash : Nat) : Bool × Dev :=
  let die := portDie port
  let t := d.excTokens die reason
  let put := fun (d : Dev) v => { d with path := { d.path with exc := tblPut d.path.exc (die.num * 8 + reason) (v, d.clk) } }
  if d.fld (F.BKR_EXC_RATE reason) 0 = 0 ∨ t < 250000 then (false, (put d t).count (itExcDrop die reason))
  else (put d (t - 250000)).enqueue die (65552 + reason)
    ⟨d.excMeta port reason b.length p user hash ++ b, prio, d.stamp, none, none⟩

/-- Send a frame to the exception path. -/
def Dev.exception (d : Dev) (port reason : Nat) (b : List Byte) (p : Parse) (user prio hash : Nat) : Dev :=
  (d.exceptionTake port reason b p user prio hash).2

/-! ### Fragments (R230) and decisions (R229) -/

/-- The key of a datagram in the fragment table. -/
def Parse.fragKey (p : Parse) : List Byte :=
  p.src ++ p.dst ++ (if p.v6 then be 4 p.fragId else be 1 p.proto ++ be 2 p.fragId)

/-- The DSCP of the outermost IP header, for the pre-colour. -/
def Parse.dscp (p : Parse) (b : List Byte) : Option Nat :=
  match p.l3 with
  | none => none
  | some o => if beAt b (o - 2) 2 = 0x0800 then some (beAt b (o + 1) 1 / 4)
    else some (beAt b o 2 / 64 % 64)

/-- Rewrite the DSCP of the outermost IP header (R245): ECN is kept, the IPv4 checksum corrected. -/
def Parse.rewrite (p : Parse) (b : List Byte) (dscp : Nat) : List Byte :=
  match p.l3 with
  | none => b
  | some o =>
    if beAt b (o - 2) 2 = 0x0800 then
      let b := spliceBytes b (o + 1) (be 1 (dscp % 64 * 4 + beAt b (o + 1) 1 % 4))
      let b := spliceBytes b (o + 10) (zeros 2)
      let s := ipSum (bytesAt b o (4 * (beAt b o 1 % 16)))
      spliceBytes b (o + 10) (be 2 (65535 - s))
    else
      let w := beAt b o 2
      spliceBytes b o (be 2 (w / 4096 * 4096 + dscp % 64 * 64 + w % 64))

/-- Carry out the decision on a frame that its policer passed (R229). -/
def Dev.decide (d : Dev) (port : Nat) (b : List Byte) (p : Parse) (disp : Disp) (hash : Nat) : Dev :=
  let die := portDie port
  match disp with
  | .drop => d.count (itBkrDrop die)
  | .skid s => if p.roce then d.emit (.toSkid die s ⟨b, true⟩ (d.ingressStamp port)) else d.count (itBkrDrop die)
  | .core user prio => d.exception port 6 b p user prio hash
  | .miss => if p.roce then d.count (itBkrDrop die) else d.exception port 0 b p 0 0 hash

/-- Police a frame, then carry out its decision. -/
def Dev.policeDecide (d : Dev) (port : Nat) (b : List Byte) (p : Parse) (disp : Disp) (pol : Option Nat)
    (hash : Nat) : Dev :=
  match pol with
  | none => d.decide port b p disp hash
  | some n =>
    match d.police (portDie port) n (b.length + 4) (p.dscp b) with
    | (none, d) => d
    | (some none, d) => d.decide port b p disp hash
    | (some (some x), d) => d.decide port (p.rewrite b x) p disp hash

/-- A fragment adds its bytes to its entry, which is freed once the datagram is whole. -/
def addFrag (fs : List FragEnt) (die : Die) (p : Parse) : List FragEnt :=
  fs.filterMap (fun e =>
    if e.die = die ∧ e.key = p.fragKey then
      let whole := if p.more then e.whole else some (p.fragOff + p.fragBytes)
      let total := e.total + p.fragBytes
      if whole = some total then none else some { e with total := total, whole := whole }
    else some e)

/-- A fragment of a datagram (R230). -/
def Dev.fragment (d : Dev) (port : Nat) (b : List Byte) (p : Parse) : Dev :=
  let die := portDie port
  let here := d.path.frags.filter (fun e => e.die = die)
  match here.find? (fun e => e.key = p.fragKey) with
  | some e =>
    if p.fragOff ≠ 0 then
      let d := { d with path := { d.path with frags := addFrag d.path.frags die p } }
      d.policeDecide port b p e.disp e.policer 0
    else first d die here.length
  | none => if p.fragOff = 0 then first d die here.length
    else if d.flag F.BKR_CTRL_FRAG_EARLY 0 then d.exception port 2 b p 0 0 0
    else d.count (itFragDrop die)
where
  /-- The first fragment, classified on its full headers. -/
  first (d : Dev) (die : Die) (used : Nat) : Dev :=
    let key := p.key b
    let ms := d.lookup die p.ktype key
    let d := if ms.length > 1 then d.setFlag (F.BKR_DIE_STATUS_DUP die.num) 0 true else d
    let r : Disp × Option Nat := if p.roce then (.drop, none) else match ms with
      | e :: _ => entDisp e
      | [] => (.miss, none)
    let d := if used ≥ 1024 then d.setFlag (F.BKR_DIE_FRAG_FULL die.num) 0 true
      else { d with path := { d.path with frags := d.path.frags.filter (fun e => !(e.die = die && e.key = p.fragKey)) ++
              [⟨die, p.fragKey, r.1, r.2, p.fragBytes, none⟩] } }
    d.policeDecide port b p r.1 r.2 (d.bkrHash 0 key).toNat

/-- The entry of a datagram is freed TMO after its last hit (R230): the `ix`-th of the die. -/
def Dev.fragTimeout (d : Dev) (die : Die) (ix : Nat) : Dev :=
  match (d.path.frags.filter (fun e => e.die = die))[ix]? with
  | some e => { d with path := { d.path with frags := d.path.frags.filter (fun f => f ≠ e) } }
  | none => d

/-- Classify a frame that has its ingress stamp (R220 to R230). The first three rows of Table 7.3 look at the outer headers,
which of a VXLAN frame match none (DEDUCED, log 57). A PTP frame reaches the Scaler through the exception path. -/
def Dev.classify (d : Dev) (port : Nat) (f : Frame) : Dev :=
  let die := portDie port
  let b := f.bytes
  if port ∉ d.lanes.up then d
  else
    let p := parseFrame b (d.flag F.BKR_CTRL_VXLAN_EN 0) (d.fld F.BKR_CTRL_VXLAN_PORT 0)
    if p.perr ≠ 0 then d.exception port 1 b p 0 0 0
    else if !p.vxlan ∧ p.etype = 0x8808 then d.count (itBkrDrop die)
    else if !p.vxlan ∧ (p.etype = 0x88F7 ∨ (p.proto = 17 ∧ p.ports ∧ (p.dport = 319 ∨ p.dport = 320))) then
      let r := d.exceptionTake port 4 b p 0 0 0
      if r.1 then r.2.emit (.ptp port f (d.ingressStamp port)) else r.2
    else if !p.vxlan ∧ (p.etype = 0x0806 ∨ p.etype = 0x88CC ∨ p.etype = 0x8809 ∨ (133 ≤ p.icmp ∧ p.icmp ≤ 137)) then
      d.exception port 5 b p 0 0 0
    else if p.roce ∧ p.destQp = 1 then d.exception port 3 b p 0 0 0
    else if p.frag then d.fragment port b p
    else
      let key := p.key b
      let ms := d.lookup die p.ktype key
      let d := if ms.length > 1 then d.setFlag (F.BKR_DIE_STATUS_DUP die.num) 0 true else d
      match ms with
      | e :: _ =>
        let r := entDisp e
        d.policeDecide port b p r.1 r.2 (d.bkrHash 0 key).toNat
      | [] => d.decide port b p .miss (d.bkrHash 0 key).toNat

/-- A frame arrives at a port: the MAC checks it, and it is stamped (R41). While the stamps of the die are withheld the frame
waits for its own (R40). -/
def Dev.frameReceive (d : Dev) (port : Nat) (f : Frame) : Dev :=
  if port ∉ d.lanes.up then d
  else if !f.fcsOk then d.count (0x102 + 8 * port)
  else if f.bytes.length < 60 ∨ f.bytes.length > 9216 then d.count (itMac (portDie port))
  else if d.stampHeld (.io (portDie port)) then
    { d with path := { d.path with unstamped := d.path.unstamped ++ [(port, f)] } }
  else d.classify port f

/-- Frames that waited for their ingress stamp are stamped and classified in the order of arrival, once their die gives
stamps again (R40). -/
def Dev.stampFrames (d : Dev) : Dev :=
  if d.stampHeld (.io .east) then d
  else d.path.unstamped.foldl (fun d e => d.classify e.1 e.2) { d with path := { d.path with unstamped := [] } }

/-! ### PTP frames at the Scaler (R41) -/

/-- A raw frame of firmware enters the raw egress queue of its port, with the priority chosen (R237). -/
def Dev.rawEnqueue (d : Dev) (t : RawTx) : Dev :=
  (d.enqueue (portDie t.port) (65536 + t.port % 16) ⟨t.bytes, t.prio % 8, d.stamp, none, t.req⟩).2

/-- The head frame of an exception queue is dequeued (R237, R239); true when a frame without an uncorrected word came. -/
def Dev.excDequeue (d : Dev) (die : Die) (reason : Nat) (e : BoomEcc) : Bool × Dev :=
  let k := queueKey die (65552 + reason)
  match (d.bq k).head with
  | none => (false, d)
  | some f =>
    let d := (d.modBq k (fun q => { q with frames := dropHead q.frames f })).boomEcc die e
    match e with
    | .dataUe => (false, d)
    | .linkUe lost => (false, d.linkLost die k (f.cells + (d.bq k).cells) lost)
    | _ => (true, d)

/-- PTP_MESSAGE_RECEIVE: the Scaler takes the next PTP frame of a die's exception queue, the servo acts on it, and firmware
sends the frames that it answers with (R41). -/
def Dev.ptpReceive (d : Dev) (die : Die) (e : BoomEcc) (offsetNs : Int) (acts : List ServoAct) (tx : List RawTx) : Dev :=
  let r := d.excDequeue die 4 e
  if r.1 then tx.foldl Dev.rawEnqueue (r.2.ptpMessage offsetNs acts) else r.2

/-! ### The table port (R226, R228) -/

/-- The entry and word that a manager function's BKR_TBL_ADDR names. -/
def Dev.tblAddr (d : Dev) (port : Nat) : Nat × Nat :=
  (d.fld F.BKR_TBL_ADDR_DIE port * 2 ^ 19 + d.fld F.BKR_TBL_ADDR_WAY port * 2 ^ 17 + d.fld F.BKR_TBL_ADDR_INDEX port,
   d.fld F.BKR_TBL_ADDR_WORD port)

/-- Advance WORD, from 15 to 0 within the entry. -/
def Dev.tblNext (d : Dev) (port : Nat) : Dev :=
  d.setFld F.BKR_TBL_ADDR_WORD port ((d.fld F.BKR_TBL_ADDR_WORD port + 1) % 16)

/-- BKR_TBL_DATA written: words 0 to 14 of a valid entry are discarded and counted. -/
def Dev.tblWrite (d : Dev) (port : Nat) (val : W32) : Dev :=
  let a := d.tblAddr port
  let e := d.bkrEnt a.1
  let d := if a.2 ≠ 15 ∧ bit (entWord e 15) 0 then d.count itBkrDiscard
    else { d with path := { d.path with table := tblPut d.path.table a.1 (e.set a.2 val) } }
  d.tblNext port

/-- BKR_TBL_DATA read. -/
def Dev.tblRead (d : Dev) (port : Nat) : Dev :=
  let a := d.tblAddr port
  (d.emit (.regData (entWord (d.bkrEnt a.1) a.2))).tblNext port

/-- Entries of a die with VALID 1. -/
def Dev.tblUsed (d : Dev) (die : Die) : Nat :=
  (d.path.table.filter (fun e => e.1 / 2 ^ 19 == die.num && bit (entWord e.2 15) 0)).length

/-- BKR_HASH_SEED written (R228): only while both tables are empty and the block is not locked. -/
def Dev.seedWrite (d : Dev) (k : Nat) (val : W32) : Dev :=
  if d.flag F.BKR_CTRL_LOCK 0 then d.count 0x001
  else if d.tblUsed .west ≠ 0 ∨ d.tblUsed .east ≠ 0 ∨ k ≥ 4 then d.count itBkrDiscard
  else d.setFld (F.BKR_HASH_SEED_SEED k) 0 val.toNat

end Sys2Proof.Machine
end

