-- ==== Sys2Proof/Machine/Scaler.lean ====
section
/-! DEFINITION. The Scalers: negotiation, images and activation, restart of cores, command queues, the lead lease and the
update agent of the sideband (12_firmware_commands R362 to R364, R368 to R384). -/

namespace Sys2Proof.Machine

/-! ### NEGOTIATE and IDENTIFY (R376, R377) -/

/-- The device's version of an interface (Table 12.9); 0 for a number it does not list. -/
def ifaceVersion (n : Nat) : Nat := if n = 1 then 0x0700 else if 2 ≤ n ∧ n ≤ 8 then 0x0100 else 0

/-- The twelve pairs of the parameters: interface and version. -/
def pairsOf (c : Cmd) : List (Nat × Nat) :=
  (List.range 12).map (fun i => (bits (c.w (i / 2)) (32 * (i % 2)) 16, bits (c.w (i / 2)) (32 * (i % 2) + 16) 16))

/-- A pair is accepted under R18. -/
def pairOk (p : Nat × Nat) : Bool := ifaceVersion p.1 != 0 && versionOk (ifaceVersion p.1) p.2

/-- NEGOTIATE: accepted pairs stand whether or not every pair is accepted. -/
def Dev.negotiate (c : Cmd) (d : Dev) : Reply :=
  let ps := pairsOf c
  let used := ps.filter (fun p => p != (0, 0))
  let agreed := (used.filter pairOk).foldl (fun t p =>
    tblPut t (c.iss.agreeKey * 16 + p.1) (BitVec.ofNat 16 p.2)) d.scaler.agreed
  let result := (ps.map (fun p => le 2 (ifaceVersion p.1))).flatten ++ le 2 (packBits 1 (ps.map (fun p => b2n (pairOk p))))
  let d : Dev := { d with scaler := { d.scaler with agreed := agreed } }
  if used.all pairOk then .ok d result else ⟨d, stVersion, 0, result⟩

/-- IDENTIFY. -/
def Dev.identify (c : Cmd) (d : Dev) : Reply :=
  if !zeroFrom c 0 then .refuse d rsBadField
  else .ok d (le 2 0x0700 ++ le 1 0xB0 ++ le 2 d.node ++
    le 1 (d.scaler.lease.lead.num + 2 * d.scaler.boot.code) ++ zeros 2 ++ le 4 d.scaler.lease.epoch.toNat ++
    le 2 (d.fld F.SCL_BOOT_ERR_STATUS 0))

/-! ### The lease (R368 to R372) -/

/-- Write the lease into cells. -/
def Lease.mark (l : Lease) (cells : List Die) (now : Nat) : Lease :=
  { l with cells := cells.foldl (fun t c => tblPut t c.num (l.epoch, l.lead, now)) l.cells }

/-- A new lead reads the journal (R372): a command that it shows committed completes with its outcome, any other with
BUSY (DEDUCED, log 43). -/
def Dev.replay (d : Dev) : Dev :=
  d.scaler.journal.foldl (fun d j => match j.committed with
    | some (st, rs) => d.finish j.owner st rs []
    | none => d.finish j.owner stBusy 0 []) { d with scaler := { d.scaler with journal := [] } }

/-- A Scaler becomes lead with an EPOCH, its renewal in the cells given. -/
def Dev.newLead (d : Dev) (die : Die) (epoch : W32) (acting : List Die) (conflict : Bool) (cells : List Die) : Dev :=
  let l : Lease := { d.scaler.lease with
    epoch := epoch, lead := die, acting := acting, conflict := conflict, counted := d.clk }
  { d with scaler := { d.scaler with lease := l.mark cells d.clk } }

/-- LEASE_RENEW (R368): the cells that acknowledged. Once a renewal reaches the other die's cell, of two Scalers that
act as lead the one with the lower EPOCH stops (R370) (DEDUCED, log 43). -/
def Dev.leaseRenew (d : Dev) (die : Die) (acks : List Die) : Dev :=
  let l := d.scaler.lease
  if die ∉ l.acting then d
  else
    let both := acks.contains .west && acks.contains .east
    let l := if both ∧ l.conflict then { l with acting := [l.lead], conflict := false } else l
    let l := if die = l.lead then l.mark acks d.clk else l
    let l := if both ∧ die = l.lead then { l with counted := d.clk } else l
    { d with scaler := { d.scaler with lease := l } }

/-- LEASE_LOSS: 100 ms without a counted renewal. -/
def Dev.leaseLoss (d : Dev) (die : Die) : Dev :=
  let l := d.scaler.lease
  { d with scaler := { d.scaler with lease := { l with acting := l.acting.filter (· != die), conflict := false } } }

/-- The core of a Scaler is up. -/
def Dev.scalerUp (d : Dev) (die : Die) : Bool :=
  !(d.fwCore (scalerCore die)).stopped && (d.core (scalerCore die)).state != .off

/-- The EPOCH of a claim: that of the Scaler's own cell, plus 1 (R369). -/
def Lease.claimEpoch (l : Lease) (die : Die) : W32 := (match tblGet l.cells die.num with
  | some c => c.1
  | none => l.epoch) + 1

/-- A claim stands against the Scalers that act: its EPOCH is higher, or equal and from West (R370). -/
def Lease.claimWins (l : Lease) (die : Die) : Bool :=
  l.acting.isEmpty || l.epoch.toNat < (l.claimEpoch die).toNat || (l.epoch == l.claimEpoch die && die == .west)

/-- LEASE_CLAIM (R369, R370): the follower claims with the EPOCH of its own cell plus 1. `seen` says that the two Scalers
see each other: the one with the lower EPOCH stops at once, and East when they are equal. -/
def Dev.leaseClaim (d : Dev) (die : Die) (seen : Bool) : Dev :=
  let l := d.scaler.lease
  if die ∈ l.acting ∨ !d.scalerUp die ∨ d.scaler.boot = .hold ∨ d.scaler.boot.code < 5 then d
  else
    let others := if seen then [] else l.acting
    let e := l.claimEpoch die
    let d : Dev := if l.claimWins die then
        d.newLead die e (die :: others) (!others.isEmpty) (if seen then [.west, .east] else [die])
      else if seen then d
      else { d with scaler := { d.scaler with lease := { l with
        acting := die :: l.acting
        conflict := true
        cells := tblPut l.cells die.num (e, die, d.clk) } } }
    let d := d.replay
    (((List.range 4).map Issuer.pf0) ++ (d.slices.map (fun e => Issuer.page e.1))).foldl (fun d i => d.pump i 4096) d

/-- LEASE_CONFLICT_TIMEOUT (R370). -/
def Dev.leaseConflict (d : Dev) : Dev :=
  if d.scaler.lease.conflict then d.fault d.scaler.lease.lead.num .fatal 11 0 0 else d

/-! ### Activation and handoff (R380, R381) -/

/-- The other I/O die. -/
def otherDie : Die → Die
  | .west => .east
  | .east => .west

/-- The cores of a kind in the order of their activation: for the Scaler extension the follower first. -/
def Dev.activationOrder (d : Dev) (kind : Nat) : List Nat :=
  if kind = 3 then [scalerCore (otherDie d.scaler.lease.lead), scalerCore d.scaler.lease.lead] else coresOf kind

/-- A core takes the new image. `hand` says that it is the follower, to which the lead then hands the lease with
EPOCH + 1. -/
def Dev.takeImage (d : Dev) (c : Nat) (g : FwCode) (hand : Bool) : Dev :=
  let d := d.startCore c g
  let die := otherDie d.scaler.lease.lead
  if hand then d.newLead die (d.scaler.lease.epoch + 1) [die] false [.west, .east] else d

/-- An activation ends with every core on the new image: it runs, Bark measures it, the directory is rewritten, and
HOST_WAIT may end. -/
def Dev.activationDone (d : Dev) (a : Activation) : Dev :=
  let d : Dev := { d with scaler := { d.scaler with
    running := tblPut d.scaler.running a.kind a.image
    activations := d.scaler.activations.filter (fun b => b.kind != a.kind) } }
  let ix := if a.kind = 3 then 5 else 5 + a.kind
  let d := ((d.measure ix a.image.digest).rewriteDir).bootRunning
  match a.owner with
  | some o => d.finish o stOk 0 []
  | none => d

/-- Cores of the order that stay behind the first one: the next core to hand over, or the end. -/
def Dev.activationNext (d : Dev) (a : Activation) : Dev :=
  if a.todo.isEmpty then d.activationDone a
  else { d with scaler := { d.scaler with
    activations := d.scaler.activations.filter (fun b => b.kind != a.kind) ++ [a] } }

/-- An activation starts: a core that runs nothing takes the new image at once, a stopped core stays stopped, the others
are handed over one at a time; a Scaler always runs the ROM or an extension. The former lead follows only after the
follower (DEDUCED, log 43). -/
def Dev.activationStart (d : Dev) (a : Activation) : Dev :=
  let order := (d.activationOrder a.kind).filter (fun c => !(d.fwCore c).stopped)
  let idle := if a.kind = 3 then [] else order.filter (fun c => (d.fwCore c).image.isNone)
  let d := idle.foldl (fun d c => d.takeImage c a.image false) d
  d.activationNext { a with todo := order.filter (fun c => !idle.contains c), deferred := false }

/-- An emergency has ended: deferred activations start (R381). -/
def Dev.emergencyEnd (d : Dev) : Dev :=
  if d.emergency then d
  else (d.scaler.activations.filter (fun a => a.deferred)).foldl Dev.activationStart d

/-- IMAGE_ACTIVATE (R380, R381). -/
def Dev.imageActivate (c : Cmd) (o : Owner) (d : Dev) : Reply :=
  let k := c.w 0
  if k = 0 ∨ k > 3 ∨ !zeroFrom c 1 then .refuse d rsBadField
  else match tblGet d.scaler.staged k with
    | none => .refuse d rsWrongState
    | some g =>
      if d.scaler.activations.any (fun a => a.kind == k) ∨ (coresOf k).any (fun c => (d.core c).state == .restarting) then
        .fail d stBusy 0
      else
        let a : Activation := ⟨k, g.body, some o, [], true⟩
        if d.emergency then .defer { d with scaler := { d.scaler with activations := d.scaler.activations ++ [a] } }
        else
          let e := d.activationStart { a with owner := none }
          if e.scaler.activations.any (fun a => a.kind == k) then
            .defer { e with scaler := { e.scaler with activations := e.scaler.activations.map (fun b =>
              if b.kind = k then { b with owner := some o } else b) } }
          else .ok e []

/-- HANDOFF_SAVE_POINT (R380): the old image of a core has written its block. `blockOk` is the ROM's check of VERSION and
DIGEST. A refused block ends the activation with VERSION_MISMATCH, and the old image runs on (DEDUCED, log 43). -/
def Dev.handoff (d : Dev) (core : Nat) (blockOk : Bool) : Dev :=
  match d.scaler.activations.find? (fun a => !a.deferred && a.todo.head? == some core) with
  | none => d
  | some a =>
    let old := ((d.fwCore core).image.map (·.layout.toNat)).getD Config.romLayout.toNat
    if blockOk && versionOk a.image.layout.toNat old then
      (d.takeImage core a.image (a.kind == 3 && a.todo.length == 2)).activationNext { a with todo := a.todo.drop 1 }
    else
      let d : Dev := { d with scaler := { d.scaler with activations := d.scaler.activations.filter (fun b => b.kind != a.kind) } }
      match a.owner with
      | some o => d.finish o stVersion 0 []
      | none => d

/-- ACTIVATION_ABANDON (R381): the emergency has lasted 60 s. -/
def Dev.activationAbandon (d : Dev) (kind : Nat) : Dev :=
  match d.scaler.activations.find? (fun a => a.deferred && a.kind == kind) with
  | none => d
  | some a =>
    if !d.emergency then d
    else
      let d : Dev := { d with scaler := { d.scaler with activations := d.scaler.activations.filter (fun b => b.kind != kind) } }
      match a.owner with
      | some o => d.finish o stRefused rsEmergency []
      | none => d

/-! ### Images and flash (R362, R364) -/

/-- IMAGE_LOAD; the image as it was read, none when it could not be (DEDUCED, log 54). -/
def Dev.imageLoad (c : Cmd) (img : Option FwImage) (d : Dev) : Reply :=
  if !zeroFrom c 2 then .refuse d rsBadField
  else match img with
    | none => .refuse d rsBadField
    | some g => match d.checkImage g with
      | some st => .fail d st (if st = stRefused then rsBadField else 0)
      | none => .ok (d.stageImage g) []

/-- FLASH_COMMIT (DESIGN CHOICE, log 43). -/
def Dev.flashCommit (c : Cmd) (o : Owner) (d : Dev) : Reply :=
  let k := c.w 0
  if (k ≠ 3 ∧ k ≠ 4) ∨ !zeroFrom c 1 then .refuse d rsBadField
  else match tblGet d.scaler.staged k, d.scaler.inUse with
    | some g, some b =>
      if d.scaler.flash.isSome then .fail d stBusy 0
      else .defer { d with scaler := { d.scaler with flash := some ⟨g.cfg, !b, some o, false⟩ } }
    | _, _ => .refuse d rsWrongState

/-- Set a copy of the flash. -/
def Dev.setFlash (d : Dev) (toB : Bool) (g : FlashCopy) : Dev :=
  { d with scaler := if toB then { d.scaler with flashB := g } else { d.scaler with flashA := g } }.emit (.flashWrite toB)

/-- An answer of the update agent. -/
def Dev.pldmSay (d : Dev) (command code state : Nat) : Dev := d.emit (.pldm command code state)

/-- The codes of the states of an update agent (DSP0267; PRESUMED, log 32). -/
def PldmState.code : PldmState → Nat
  | .idle => 0
  | .learn => 1
  | .readyXfer => 2
  | .download => 3
  | .verify => 4
  | .apply => 5
  | .activate => 6

/-- Change the update agent. -/
def Dev.setPldm (d : Dev) (p : Pldm) : Dev := { d with scaler := { d.scaler with pldm := p } }

/-- ApplyComplete (R374): a component is applied, or its apply failed. -/
def Dev.pldmApplied (d : Dev) (ok : Bool) : Dev :=
  let p := d.scaler.pldm
  let p : Pldm := { p with state := .readyXfer, applied := if ok then addOnce p.applied p.component else p.applied }
  (d.setPldm p).pldmSay 0x18 (if ok then 0 else 1) (PldmState.code .readyXfer)

/-- FLASH_WRITE_DONE (R362, R374): the write and its read-back end. When they fail, `left` is what the copy holds. In
BOOT_HOLD copy B follows copy A. -/
def Dev.flashDone (d : Dev) (ok : Bool) (left : FlashCopy) : Dev :=
  match d.scaler.flash with
  | none => d
  | some j =>
    let d := d.setFlash j.toB (if ok then j.image else left)
    if ok ∧ j.both ∧ !j.toB then { d with scaler := { d.scaler with flash := some { j with toB := true } } }
    else
      let d : Dev := { d with scaler := { d.scaler with flash := none } }
      match j.owner with
      | some o => if ok then d.finish o stOk 0 [] else d.finish o stRefused rsWrongState []
      | none => d.pldmApplied ok

/-! ### Restart of cores (R378, R379) -/

/-- The fault source of a firmware processor. -/
def coreSrc (c : Nat) : Nat :=
  if c < 0x80 then 2 + (match coreIo c with
    | some die => die.num
    | none => 0)
  else if c < 0xC8 then 36 + (c - 0xC0) / 2 else c - 0xC8

/-- Count a restart (Table 12.13). -/
def Dev.countRestart (d : Dev) (c : Nat) : Dev :=
  d.bumpFld (if coreKind c = 1 then F.SCL_RESTARTS_RANGER else if coreKind c = 2 then F.SCL_RESTARTS_STREAM else F.SCL_RESTARTS_SCALER) 0 1

/-- A core goes down for its restart. -/
def Dev.restartCore (d : Dev) (c : Nat) : Dev :=
  (d.modCore c (fun k => { k with state := .restarting, pre := none })).countRestart c

/-- CORE_RESTART (R379). -/
def Dev.coreRestart (c : Cmd) (d : Dev) : Reply :=
  let n := c.w 0
  if n ≥ 256 ∨ !zeroFrom c 1 ∨ (coreKind n = 0 ∧ !isSeq n) then .refuse d rsBadField
  else if isSeq n then .refuse d rsNotPermitted
  else if coreKind n ≠ 3 ∧ (d.fwCore n).image.isNone then .refuse d rsWrongState
  else .ok ((d.modFw n (fun f => { f with crashes := [], stopped := false })).restartCore n) []

/-- WATCHDOG_EXPIRY (R378, R379): the core restarts, or after a third crash within 60 s stays stopped. -/
def Dev.watchdog (d : Dev) (c : Nat) : Dev :=
  let f := d.fwCore c
  if coreKind c = 0 ∨ f.stopped ∨ (d.core c).state = .off ∨ (d.core c).state = .restarting then d
  else
    let recent := f.crashes.filter (fun t => d.clk - t < sTicks 60)
    let stop := recent.length ≥ 2
    let d := d.modFw c (fun f => { f with crashes := d.clk :: recent, stopped := stop })
    if !stop then d.restartCore c
    else
      let d := d.modCore c (fun k => { k with state := .crashed, pre := none })
      let both := coreKind c = 3 ∧ (d.fwCore (scalerCore .west)).stopped ∧ (d.fwCore (scalerCore .east)).stopped
      d.fault (coreSrc c) (if both then .fatal else .contained) 6 c 0

/-- CORE_RESUME (R378): the image runs again from the context that the core's save area holds, or from its entry; the
live counters are not touched (R349). -/
def Dev.coreResume (d : Dev) (c : Nat) (saved : Option Core) : Dev :=
  if coreKind c = 0 ∨ (d.core c).state ≠ .restarting then d
  else match saved, (d.fwCore c).image with
    | some k, _ => d.runCore c k
    | none, some g => d.startCore c g
    | none, none => d.runCore c Core.init

/-! ### Command queues (R373, R383, R384) -/

/-- Registers of the command rings that a path reaches: of a manager function while its link is up and the Scalers serve
PCIe, of the page of an ACTIVE slice. -/
def Dev.viaIssuer (d : Dev) (via : Via) : Option Issuer :=
  match via with
  | .bar0 p => if p < 4 ∧ (d.scaler.boot = .hostWait ∨ d.scaler.boot = .running) then some (.pf0 p) else none
  | .page _ _ s => (d.pageOk via 4 4 false).map (fun _ => .page s)
  | .rom _ _ => none

/-- A write that a path does not reach: counted on a slice page (R257). -/
def Dev.viaLost (d : Dev) (via : Via) : Dev :=
  match via with
  | .page _ _ _ => d.bellLost via
  | _ => d

/-- Items counted without a number: discarded writes of the SCL block (DESIGN CHOICE, log 11). -/
def itSclDiscard : Nat := 4096 + 0x5D0

/-- Fetch the entry at a ring position (R373, R384): the read, and what it delivers; an entry outside the DMA windows of
the slice is a failed fetch. -/
def Dev.fetchEntry (d : Dev) (i : Issuer) (pos : Nat) (f : Fetch) : Dev :=
  let ix := pos % d.ringDepth i
  let r := d.cmdRing i
  let put := fun (d : Dev) (f : Fetch) => d.setCmdRing i { r with fetchPos := (pos + 1) % 65536, waiting := r.waiting ++ [⟨ix, f⟩] }
  match i with
  | .pf0 p => (d.readOwn p (.cmdRing i) (d.fld F.SCL_SQ_BASE_ADDR p + 64 * ix) 64 |> fun d => put d f)
  | .page s =>
    let sl := d.slice s
    let a := d.fld F.PG_SQ_BASE_ADDR s + 64 * ix
    if sl.dmaOk sl.home a 64 false then put (d.readSlice s sl.home (.cmdRing i) a 64) f else put d .failed
  | _ => d

/-- Fetch the entries posted; a ring with more than depth − 1 posted reads as empty. -/
def Dev.fetchRing (d : Dev) (i : Issuer) (fs : List Fetch) : Dev :=
  let r := d.cmdRing i
  let n := (d.ringTail i + 65536 - r.fetchPos) % 65536
  if !d.ringEn i ∨ n > d.ringDepth i - 1 then d
  else (List.range n).foldl (fun d k => d.fetchEntry i ((r.fetchPos + k) % 65536) (fs.getD k .failed)) d

/-- SQ_TAIL_WRITE: `fs` is what the fetches of the new entries deliver. -/
def Dev.sqTail (d : Dev) (via : Via) (val : W32) (fs : List Fetch) : Dev :=
  match d.viaIssuer via with
  | some (.pf0 p) => ((d.setFld F.SCL_SQ_TAIL_TAIL p (bits val.toNat 0 16)).fetchRing (.pf0 p) fs).pump (.pf0 p) 4096
  | some (.page s) => ((d.setFld F.PG_SQ_TAIL_TAIL s (bits val.toNat 0 16)).fetchRing (.page s) fs).pump (.page s) 4096
  | _ => d.viaLost via

/-- CQ_HEAD_WRITE: held completions and entries go on. -/
def Dev.cqHead (d : Dev) (via : Via) (val : W32) : Dev :=
  match d.viaIssuer via with
  | some (.pf0 p) => ((d.setFld F.SCL_CQ_HEAD_HEAD p (bits val.toNat 0 16)).releaseHeld (.pf0 p) 4096).pump (.pf0 p) 4096
  | some (.page s) => ((d.setFld F.PG_CQ_HEAD_HEAD s (bits val.toNat 0 16)).releaseHeld (.page s) 4096).pump (.page s) 4096
  | _ => d.viaLost via

/-- SQ_ENABLE_WRITE: SQ_CTRL written (R383). EN from 0 to 1 starts both rings at index 0; EN cleared discards what is
owed; LOG2 does not change while EN is 1. -/
def Dev.sqEnable (d : Dev) (via : Via) (val : W32) : Dev :=
  let go := fun (d : Dev) (i : Issuer) (n : Nat) (en log2 vec : Fld) =>
    let was := d.flag en n
    let now := val.getLsbD 0
    let l := bits val.toNat 1 4
    let d := d.setFld vec n (bits val.toNat 16 11)
    let d := if !was then d.setFld log2 n l else if l ≠ d.fld log2 n then d.count itSclDiscard else d
    let d := d.setFlag en n now
    if was != now then d.resetRing i else d
  match d.viaIssuer via with
  | some (.pf0 p) => go d (.pf0 p) p F.SCL_SQ_CTRL_EN F.SCL_SQ_CTRL_LOG2 F.SCL_SQ_CTRL_VECTOR
  | some (.page s) => go d (.page s) s F.PG_SQ_CTRL_EN F.PG_SQ_CTRL_LOG2 F.PG_SQ_CTRL_VECTOR
  | _ => d.viaLost via

/-- The bytes of a mailbox. -/
def Dev.mboxBytes (d : Dev) (p : Nat) : List Byte := ((List.range 16).map (fun i => le 4 (d.fld (F.SCL_MBOX_DATA i) p))).flatten

/-- MBOX_GO: the entry in the mailbox words goes to the lead (R383). -/
def Dev.mboxGo (d : Dev) (p : Nat) : Dev :=
  if (d.viaIssuer (.bar0 p)).isNone ∨ d.flag F.SCL_MBOX_CTRL_GO p then d
  else
    let b := d.mboxBytes p
    let d := d.setFlag F.SCL_MBOX_CTRL_GO p true
    let r := d.cmdRing (.mbox p)
    let f : Fetch := .entry (BitVec.ofNat 16 (fieldAt b 2 2)) (BitVec.ofNat 16 (fieldAt b 4 2)) (BitVec.ofNat 16 (fieldAt b 6 2))
    (d.setCmdRing (.mbox p) { r with waiting := [⟨0, f⟩] }).pump (.mbox p) 1

/-! ### The update agent (R374) -/

/-- A message to the update agent: the sideband serves from HOST_WAIT on, and in BOOT_HOLD (R365, R374). -/
def Dev.pldmRun (d : Dev) (f : Dev → Dev) : Dev := if d.scaler.boot.code ≥ 5 then f d else d

/-- PLDM RequestUpdate. -/
def Dev.pldmRequest (d : Dev) : Dev :=
  let p := d.scaler.pldm
  if p.state = .idle then (d.setPldm { Pldm.init with state := .learn }).pldmSay 0x10 0 1
  else d.pldmSay 0x10 0x81 (PldmState.code p.state)

/-- PLDM PassComponentTable: components 1 to 4, in BOOT_HOLD only 4. -/
def Dev.pldmTable (d : Dev) (comps : List Nat) : Dev :=
  let p := d.scaler.pldm
  let ok := fun n => n == 4 || (1 ≤ n && n ≤ 3 && d.scaler.boot != .hold)
  if p.state = .learn then
    (d.setPldm { p with state := .readyXfer, table := comps.filter ok }).pldmSay 0x13 (if comps.all ok then 0 else 1) 2
  else d.pldmSay 0x13 0x84 (PldmState.code p.state)

/-- PLDM UpdateComponent: the transfer starts, and the device requests the data. -/
def Dev.pldmUpdate (d : Dev) (comp : Nat) : Dev :=
  let p := d.scaler.pldm
  if p.state ≠ .readyXfer then d.pldmSay 0x14 0x84 (PldmState.code p.state)
  else if !p.table.contains comp then d.pldmSay 0x14 1 2
  else ((d.setPldm { p with state := .download, component := comp }).pldmSay 0x14 0 3).pldmSay 0x15 0 3

/-- The response to RequestFirmwareData brings the component (R374): it is staged and checked, VerifyComplete reports the
result, and a configuration image is written to the flash: in BOOT_HOLD to both copies, else to the copy not in use. -/
def Dev.pldmData (d : Dev) (img : FwImage) : Dev :=
  let p := d.scaler.pldm
  if p.state ≠ .download then d
  else
    let d := d.pldmSay 0x16 0 (PldmState.code .verify)
    if img.kind ≠ p.component ∨ (d.checkImage img).isSome ∨ (p.component = 4 ∧ (img.cfg.isNone ∨ d.scaler.flash.isSome)) then
      (d.setPldm { p with state := .readyXfer }).pldmSay 0x17 1 2
    else
      let d := (d.setPldm { p with state := .apply }).pldmSay 0x17 0 5
      if p.component = 4 then
        let hold := d.scaler.boot = .hold
        let toB : Bool := match d.scaler.inUse with
          | some b => !b
          | none => false
        let d := if hold then d else d.stageImage img
        { d with scaler := { d.scaler with flash := some ⟨img.cfg, if hold then false else toB, none, hold⟩ } }
      else (d.stageImage img).pldmApplied true

/-- PLDM ActivateFirmware (R374): a configuration image is booted by a cold reset; other components are activated as by
IMAGE_ACTIVATE (DEDUCED, log 43). -/
def Dev.pldmActivate (d : Dev) : Dev :=
  let p := d.scaler.pldm
  if p.state ≠ .readyXfer ∨ p.applied.isEmpty then d.pldmSay 0x1A 0x84 (PldmState.code p.state)
  else
    let d := (d.setPldm Pldm.init).pldmSay 0x1A 0 0
    if p.applied.contains 4 then d.cold 1
    else p.applied.foldl (fun d k => match tblGet d.scaler.staged k with
      | none => d
      | some g =>
        if d.scaler.activations.any (fun a => a.kind == k) then d
        else
          let a : Activation := ⟨k, g.body, none, [], true⟩
          if d.emergency then { d with scaler := { d.scaler with activations := d.scaler.activations ++ [a] } }
          else d.activationStart a) d

/-- PLDM GetStatus. -/
def Dev.pldmStatus (d : Dev) : Dev := d.pldmSay 0x1B 0 (PldmState.code d.scaler.pldm.state)

end Sys2Proof.Machine
end

