-- ==== Sys2Proof/Machine/Telemetry.lean ====
section
/-! DEFINITION. The telemetry stream (15_faults_telemetry R443, Tables 15.2 and 15.3). -/

namespace Sys2Proof.Machine

/-- The 64 B of a record (Table 15.2). -/
def TelRec.bytes (r : TelRec) (node : Nat) : List Byte :=
  le 2 0x0100 ++ le 1 r.type ++ le 1 (r.ringState + 8 * b2n r.lostBefore) ++ le 2 node ++ le 2 r.src ++ le 4 r.seq ++
  le 4 0 ++ le 8 r.stamp.toNat ++ le 8 0 ++ (r.body ++ zeros (32 - r.body.length)).take 32

/-- The source of a record. -/
def TelRec.key (r : TelRec) : Nat := r.type * 65536 + r.src

/-- The DEVSENSOR record: supply, meter, temperatures and PWR_STATE (Table 15.3, Table 14.11). -/
def Dev.devSensor (d : Dev) : Dev :=
  let running := d.pwr.move.any (fun m => !m.waiting)
  d.record 5 0x300 (le 2 (d.fld F.PWR_INPUT_VOLT 0) ++ le 2 (d.fld F.PWR_INPUT_CURRENT 0) ++
    le 2 (d.fld F.PWR_METER_POWER 0) ++ le 2 (d.fld F.PWR_METER_PEAK 0) ++
    ((List.range 6).map (fun i => le 1 (d.fld (F.PWR_TEMP_NOW i) 0))).flatten ++
    le 1 (d.pwr.state + 8 * (if running then (d.pwr.move.map (·.target)).getD 0 else 0) + 64 * b2n running +
      128 * b2n (d.pwr.move.any (·.waiting))))

/-- The order in which record types are dropped: SNAP, QSAMPLE, SENSOR, DEVSENSOR, FAULT. -/
def dropOrder : List Nat := [3, 2, 4, 5, 1]

/-- Drop one queued record of the first type in the order that has one. -/
def Dev.dropRecord (d : Dev) : Dev :=
  match dropOrder.find? (fun t => d.tel.queue.any (fun r => r.type = t)) with
  | some t =>
    let i := d.tel.queue.findIdx (fun r => r.type = t)
    let k := (d.tel.queue[i]?).map TelRec.key
    ({ d with tel := { d.tel with
      queue := d.tel.queue.eraseIdx i
      lost := match k with
        | some k => addOnce d.tel.lost k
        | none => d.tel.lost } }).count 0x7C0
  | none => d

/-- Mark the first record of each source of which one was dropped. -/
def markLost : List Nat → List TelRec → List TelRec × List Nat
  | lost, [] => ([], lost)
  | lost, r :: rs =>
    let hit := lost.contains r.key
    let t := markLost (if hit then lost.filter (fun k => k != r.key) else lost) rs
    ({ r with lostBefore := r.lostBefore || hit } :: t.1, t.2)

/-- The address of an entry of the stream (Table 15.7), word 0 first (DESIGN CHOICE, log 42). -/
def Dev.telAddr (d : Dev) (e : Nat) : Nat := (List.range 4).foldl (fun a i => a * 2 ^ 32 + d.fld (F.TLY_TEL_IP_V i) e) 0

/-- The way of a datagram to a collector; entry 4 holds the device's own addresses (Table 15.7). -/
def Dev.telNet (d : Dev) (coll : Nat) : UdpNet :=
  { dmac := d.fld F.TLY_TEL_MAC_V coll, smac := d.fld F.TLY_TEL_MAC_V 4, vlan := 0, tos := Config.telClass.toNat,
    hop := Config.hopLimit.toNat, v4 := d.telAddr coll / 2 ^ 32 == 0xFFFF, src := d.telAddr 4, dst := d.telAddr coll,
    sport := d.fld F.TLY_TEL_ROUTE_UDP 4, dport := d.fld F.TLY_TEL_ROUTE_UDP coll }

/-- A datagram enters the raw egress queue of the stream's port (R443). -/
def Dev.telSend (d : Dev) (coll seq : Nat) (payload : List Byte) : Dev :=
  let u := d.telNet coll
  d.rawEnqueue ⟨d.fld F.TLY_TEL_ROUTE_PORT 4,
    udpBytes u payload.length (udpCheck u payload) (Config.telFree coll seq) ++ payload, Config.telPrio.toNat, none⟩

/-- Send the records to one collector: header, records and the tag under the DEVICE slot. -/
def Dev.datagramTo (d : Dev) (coll slot : Nat) (recs : List TelRec) : Dev :=
  let enc := d.flag F.TLY_TEL_CTRL_SEAL 0
  let seq := tblGetD d.tel.dgramSeq coll 0
  let node := d.node
  let stamp := d.stamp
  let n := recs.length
  let hdr := fun (ctr : Nat) => le 2 0x0100 ++ le 2 (b2n enc) ++ le 2 node ++ le 2 n ++ le 4 seq ++ le 2 slot ++ le 2 0 ++
    le 6 ctr ++ le 2 0 ++ le 8 stamp.toNat
  let body := (recs.map (fun r => r.bytes node)).flatten
  let r := d.sealCtr d.scaler.lease.lead slot (fun v => if enc then hdr v else hdr v ++ body) (if enc then body else [])
  match r.1 with
  | some (v, ct, tag) =>
    ({ r.2 with tel := { r.2.tel with dgramSeq := tblPut r.2.tel.dgramSeq coll ((seq + 1) % 2 ^ 32) } }).telSend coll seq
      (hdr v ++ (if enc then ct else body) ++ tag)
  | none => d

/-- TELEMETRY_DATAGRAM: up to 20 queued records go to every collector in use. `drop` is the number of records
above the rate limit, and `sensor` says that a polling period ended. -/
def Dev.telemetry (d : Dev) (drop : Nat) (sensor : Bool) : Dev :=
  if !d.flag F.TLY_TEL_CTRL_EN 0 ∨ d.tel.stopped then d
  else
    let d := if sensor then d.devSensor else d
    let d := (List.range drop).foldl (fun d _ => d.dropRecord) d
    let slot := d.fld F.TLY_TEL_CTRL_SLOT 0
    let usable : Bool := match d.key slot with
      | some k => k.state == .loaded && k.owner == .device && useAllows k.use 1
      | none => false
    if !usable then
      ({ d with tel := { d.tel with stopped := true } }).fault d.scaler.lease.lead.num .contained 8 slot 0
    else if d.tel.queue.isEmpty then d
    else
      let m := markLost d.tel.lost (d.tel.queue.take 20)
      let d := { d with tel := { d.tel with queue := d.tel.queue.drop 20, lost := m.2 } }
      ((List.range 4).filter (fun k => d.flag F.TLY_TEL_SEL_VALID k)).foldl (fun d k => d.datagramTo k slot m.1) d

end Sys2Proof.Machine
end

