-- ==== Sys2Proof/Machine/HostRead.lean ====
section
/-! DEFINITION. What the registers show: fields whose value follows the state of a unit, fields of a selected item, the
error lines, the NVMe controller registers and the resource directory. -/

namespace Sys2Proof.Machine

/-- The die of a register page. -/
def dieAt (k : Nat) : Die := if k = 0 then .west else .east

/-! ### Error lines (R431) -/

/-- The error lines of the sources that are asserted: a unit, channel, link or core is out of service or stopped, a clamp
is active, or a lease conflict stands (DEDUCED, log 50). -/
def Dev.faultLine (d : Dev) (src : Nat) : Bool :=
  ((d.scaler.cores.filter (fun e => e.2.stopped)).any (fun e => coreSrc e.1 == src)) ||
  (src < 2 && d.scaler.lease.conflict && d.scaler.lease.lead.num == src) ||
  (24 ≤ src && src < 28 && (List.range 16).any (fun n => 24 + n % 8 / 2 == src && (d.unit n).state == 3)) ||
  (32 ≤ src && src < 36 && (List.range 4).any (fun i => d.fld (F.MEM_CH_STATE (4 * (src - 32) + i)) 0 ≥ 2)) ||
  (src == 40 && !d.links.down.isEmpty) ||
  (src == 45 && (d.flag F.PWR_STATUS_DIP 0 || d.flag F.PWR_STATUS_THERM_CLAMP 0 || d.flag F.PWR_STATUS_POWER_CLAMP 0))

/-- FLT_LINE. -/
def Dev.faultLines (d : Dev) : Nat := ((List.range 46).map (fun k => if d.faultLine k then 2 ^ k else 0)).sum

/-! ### Live fields, block by block: offset in the block and low bit of the field -/

/-- TIM (Tables 1.10, 1.11). The slew that remains is shown in whole ns, cut toward 0. -/
def Dev.liveTim (d : Dev) (p : Nat) : Nat → Nat → Option Nat
  | 0x04, 0 => some d.ring.state.code
  | 0x04, 2 => some (b2n d.ring.isSet)
  | 0x04, 3 => some (b2n (d.ring.slew != 0))
  | 0x04, 4 => some (b2n d.ring.step.isSome)
  | 0x10, 0 => some d.ns.toNat
  | 0x18, 0 => some (tblGetD d.host.latch (p * 2 ^ 40 + 0x40018) 0)
  | 0x20, 0 => some d.ring.addend.toNat
  | 0x38, 0 => some (BitVec.ofInt 64 (d.ring.slew.tdiv (2 ^ 32))).toNat
  | 0x40, 0 => some (max 1 (d.fld F.TIM_SLEW_RATE_PPM 0))
  | 0x50, 0 => some (tblGetD d.host.latch (p * 2 ^ 40 + 0x40050) 0)
  | _, _ => none

/-- The plan that MIL_PLAN_SEL shows to a manager function (R114). -/
def Dev.shownPlan (d : Dev) (p : Nat) : Option Plan :=
  match d.plan (d.fld F.MIL_PLAN_SEL_SLOT p) with
  | some q => if d.manages p q.slice then some q else none
  | none => none

/-- MIL (Tables 3.17 to 3.21). -/
def Dev.liveMil (d : Dev) (p off lo : Nat) : Option Nat :=
  let v := fun (f : Plan → Nat) => some (((d.shownPlan p).map f).getD 0)
  if off ≥ 0x80 ∧ off < 0xC0 then
    let n := (off - 0x80) / 4
    let u := d.unit n
    match lo with
    | 0 => some (if d.pwr.state ≥ 2 then 0 else if u.state = 1 ∧ !(d.unitLoad n).isEmpty then 2 else u.state)
    | 2 => some u.role
    | 4 => some u.lastSlot
    | _ => none
  else match off, lo with
    | 0x04, 16 => some (d.fld F.PWR_STATUS_DIP 0)
    | 0x04, 17 => some (b2n d.mill.admitBusy)
    | 0x0C, 0 => v (fun q => q.state.code)
    | 0x0C, 4 => v (fun q => q.slice)
    | 0x0C, 13 => v (fun q => b2n (q.spillBytes != 0))
    | 0x0C, 14 => v (fun q => b2n q.degraded)
    | 0x0C, 15 => v (fun q => b2n q.efStale)
    | 0x0C, 16 => v (fun q => q.cfg.planId.toNat)
    | 0x10, 0 => v (fun q => q.step.toNat)
    | 0x18, 0 => v (fun q => q.spillBytes)
    | 0x20, 0 => v (fun q => q.events.sat)
    | 0x28, 0 => v (fun q => q.events.inf)
    | 0x30, 0 => v (fun q => q.events.nan)
    | 0x38, 0 => v (fun q => q.events.nanGrp)
    | 0x40, 0 => v (fun q => q.events.nanLost)
    | 0x48, 0 => v (fun q => q.events.invalid)
    | _, _ => none

/-- MEM (Tables 5.9 to 5.12): the per-slice registers show a slice that the function manages. -/
def Dev.liveMem (d : Dev) (p off lo : Nat) : Option Nat :=
  let s := d.fld F.MEM_SLICE_SEL_SLICE p
  let mine := d.manages p s
  let e := (d.remaps (d.fld F.MEM_ROWREP_SEL_CHANNEL p))[d.fld F.MEM_ROWREP_SEL_ENTRY p]?
  if off ≥ 0x100 ∧ off < 0x140 ∧ lo = 0 then
    let v := d.fld (F.MEM_CH_STATE ((off - 0x100) / 4)) 0
    some (if d.pwr.state = 3 ∧ v = 1 then 0 else v)
  else if off ≥ 0x100 ∧ off < 0x140 ∧ lo = 9 then
    let c := (off - 0x100) / 4
    some (if d.clk - tblGetD d.mem.hourStart c 0 < sTicks 3600 then d.fld (F.MEM_CH_CE_HOUR c) 0 else 0)
  else match off, lo with
    | 0x0C, 0 => some (if d.pwr.state = 3 then 0 else d.fld F.MEM_STATUS_CH_UP 0)
    | 0x18, 0 => some ((e.map (·.row)).getD 0)
    | 0x18, 22 => some (b2n e.isSome)
    | 0x18, 23 => some (b2n (e.any (·.fromList)))
    | 0x44, 0 => some (if mine then (d.slice s).pages else 0)
    | 0x48, 0 => some (if mine then d.sliceHeldPages s else 0)
    | 0x60, 0 => some (if mine then d.spillUsed s else 0)
    | _, _ => none

/-- SKD (Table 6.14). -/
def Dev.liveSkd (d : Dev) (off lo : Nat) : Option Nat :=
  if off < 0x1000 then none
  else
    let die := dieAt (off / 4096 - 1)
    match off % 4096, lo with
    | 0, 0 => some (d.cachedOn die).length
    | 0, 17 => some (d.pinnedOn die)
    | 4, 0 => some (d.missCells die)
    | 4, 16 => some (d.chainsOn die)
    | 8, 0 => some (d.trkUsed die)
    | 8, 14 => some ((d.skid.qps.filter (fun e => e.2.die == die && bit (e.2.f cSbd) 15)).length)
    | _, _ => none

/-- BKR (Table 7.10). -/
def Dev.liveBkr (d : Dev) (p off lo : Nat) : Option Nat :=
  if off < 0x1000 then
    if off = 0x44 ∧ lo = 0 then some (entWord (d.bkrEnt (d.tblAddr p).1) (d.tblAddr p).2) else none
  else
    let die := dieAt (off / 4096 - 1)
    match off % 4096, lo with
    | 0, 0 => some (d.tblUsed die)
    | 4, 0 => some (d.path.frags.filter (fun e => e.die == die)).length
    | _, _ => none

/-- The queue that BOM_QSEL or FLU_QSEL shows to a manager function, as a queue key. -/
def Dev.bomSel (d : Dev) (p : Nat) : Nat := d.fld F.BOM_QSEL_DIE p * 131072 + d.fld F.BOM_QSEL_QUEUE p
def Dev.fluSel (d : Dev) (p : Nat) : Nat := d.fld F.FLU_QSEL_DIE p * 131072 + d.fld F.FLU_QSEL_QUEUE p

/-- The miss chain that a queue number of Table 7.7 names: chain k of a die is the k-th chain in use, by QPN. -/
def Dev.chainAt (d : Dev) (key : Nat) : List RxPkt :=
  let die := dieAt (key / 131072)
  let cs := d.skid.chains.filter (fun e => e.1 / 2 ^ 24 == die.num)
  ((cs[key % 131072 - 65559]?).map (·.2)).getD []

/-- BOM (Table 7.12). -/
def Dev.liveBom (d : Dev) (p off lo : Nat) : Option Nat :=
  if off < 0x1000 then
    let k := d.bomSel p
    let chain := k % 131072 ≥ 65559
    match off, lo with
    | 0x0C, 0 => some (if chain then chainCells (d.chainAt k) else (d.bq k).cells)
    | 0x0C, 18 => some (min 16383 (if chain then (d.chainAt k).length else (d.bq k).frames.length))
    | _, _ => none
  else
    let die := dieAt (off / 4096 - 1)
    match off % 4096, lo with
    | 0, 0 => some (d.boomFree die)
    | 4, 0 => some (min (tblGetD d.path.minFree die.num 131072) (d.boomFree die))
    | _, _ => none

/-- FLU (Table 7.14). -/
def Dev.liveFlu (d : Dev) (p off lo : Nat) : Option Nat :=
  let port := d.fld F.FLU_PORT_SEL_PORT p
  let q := d.bq (d.fluSel p)
  match off, lo with
  | 0x0C, 0 => some (d.boundTo port).length
  | 0x0C, 17 => some (b2n (!d.path.notSampling.contains port))
  | 0x4C, 0 => some ((q.hwm + 63) / 64)
  | 0x50, 0 => some ((q.bound.map (·.1)).getD 0)
  | 0x50, 5 => some ((q.bound.map (·.2.1)).getD 0)
  | 0x50, 8 => some (b2n q.bound.isSome)
  | 0x50, 9 => some (b2n q.wheel.isSome)
  | _, _ => none

/-- Read slots of a port in use and quarantined (R265, R267). -/
def Port.slotsOut (q : Port) : Nat := (q.slots.filter (fun e => match e.2 with
  | .out _ _ _ => true
  | .quarantined _ => false)).length
def Port.slotsQuar (q : Port) : Nat := q.slots.length - q.slotsOut

/-- EPX (Table 8.13). -/
def Dev.liveEpx (d : Dev) (p off lo : Nat) : Option Nat :=
  let sl := d.slice (d.fld F.EPX_SLICE_SEL_SLICE p)
  let w := tblGetD sl.windows (d.fld F.EPX_WIN_SEL_WINDOW p) ⟨false, 0, false, false, 0, 0⟩
  if off ≥ 0x10 ∧ off < 0x50 then
    let q := d.port ((off - 0x10) / 16)
    match (off - 0x10) % 16, lo with
    | 0, 0 => some (b2n q.up)
    | 0, 1 => some q.speed
    | 0, 4 => some q.width
    | 0, 9 => some (b2n q.flit)
    | 0, 11 => some (b2n q.pf0.bme)
    | 0, 12 => some (b2n q.tenant.bme)
    | 4, 0 => some q.slotsOut
    | 4, 13 => some q.slotsQuar
    | _, _ => none
  else match off, lo with
    | 0x104, 0 => some sl.state.code
    | 0x104, 3 => some sl.home
    | 0x104, 5 => some (if sl.kind = .tenant then 1 else 0)
    | 0x104, 6 => some sl.ports.toNat
    | 0x104, 10 => some (b2n sl.pasidEn)
    | 0x104, 11 => some (b2n sl.forced)
    | 0x108, 0 => some sl.pasid
    | 0x10C, 0 => some sl.qpQuota
    | 0x110, 0 => some sl.cellQuota
    | 0x114, 0 => some sl.share
    | 0x114, 7 => some sl.nvq
    | 0x118, 0 => some sl.vecBase
    | 0x118, 11 => some sl.vecCount
    | 0x124, 0 => some (b2n w.en)
    | 0x124, 1 => some w.port
    | 0x124, 3 => some (b2n w.read)
    | 0x124, 4 => some (b2n w.write)
    | 0x128, 0 => some w.base
    | 0x130, 0 => some w.size
    | _, _ => none

/-- The volume that NVE_VOL_SEL shows to a manager function. -/
def Dev.shownVol (d : Dev) (p : Nat) : Option Volume :=
  match d.vol (d.fld F.NVE_VOL_SEL_VOL p) with
  | some v => if d.manages p v.desc.slice then some v else none
  | none => none

/-- NVE (Table 9.6). -/
def Dev.liveNve (d : Dev) (p off lo : Nat) : Option Nat :=
  let v := fun (f : Volume → Nat) => some (((d.shownVol p).map f).getD 0)
  if off ≥ 0x1000 then
    let vs := d.nvm.vols.filter (fun e => e.2.desc.die == dieAt (off / 4096 - 1))
    match off % 4096, lo with
    | 0, 0 => some (min 65535 ((vs.map (fun e => (e.2.jobs.filter (fun j => j.step != .queued)).length)).sum))
    | 0, 16 => some (min 65535 ((vs.map (fun e => (e.2.qps.filter (fun n => (d.qp n).any (fun q => q.f cState == qsErr))).length)).sum))
    | _, _ => none
  else match off, lo with
    | 0x14, 0 => v (fun w => if w.fenced then 2 else 1)
    | 0x14, 2 => v (fun w => w.desc.slice)
    | 0x14, 11 => v (fun w => w.desc.nsid)
    | 0x14, 18 => v (fun w => w.desc.die.num)
    | 0x14, 19 => v (fun w => b2n w.wce)
    | 0x14, 20 => v (fun w => w.desc.volume % 4096)
    | 0x18, 0 => v (fun w => w.desc.units)
    | 0x1C, 0 => v (fun w => ((w.jobs.filter (fun j => j.done)).map (·.unit)).eraseDups.length)
    | 0x20, 0 => v (fun w => min 65535 w.tagFail)
    | 0x20, 16 => v (fun w => min 65535 w.retried)
    | 0x24, 0 => v (fun w => min 65535 w.freezes)
    | 0x24, 16 => v (fun w => min 65535 w.conflicts)
    | _, _ => none

/-- CRD (Table 10.8). -/
def Dev.liveCrd (d : Dev) (off lo : Nat) : Option Nat :=
  let c := d.cord
  match off, lo with
  | 0x00, 0 => some (b2n d.cordAvail)
  | 0x10, 0 => some c.phase.code
  | 0x10, 3 => some c.nextSlot
  | 0x10, 4 => some (b2n (c.slotGood 0))
  | 0x10, 5 => some (b2n (c.slotGood 1))
  | 0x18, 0 => some c.bestSeq
  | 0x20, 0 => some (c.bytesDone * chunkBytes)
  | 0x28, 0 => some (c.bytesTotal * chunkBytes)
  | 0x34, 0 => some c.regions.length
  | 0x34, 9 => some (((c.regions.map (·.bytes)).sum + 2 ^ 30 - 1) / 2 ^ 30)
  | _, _ => none

/-- A core is shown to a manager function: not a sequencer core of a slice that it does not manage. -/
def Dev.coreShown (d : Dev) (p c : Nat) : Bool :=
  !isSeq c || (match d.sliceOfCore c with
    | some s => d.manages p s
    | none => true)

/-- KRF (Table 11.15). -/
def Dev.liveKrf (d : Dev) (p off lo : Nat) : Option Nat :=
  let c := d.fld F.KRF_CORE_SEL_CORE p
  let k := d.core c
  let n := d.fld F.KRF_SYNC_SEL_COUNTER p
  let v := k.ctr n
  let show_ := fun (x : Nat) => some (if d.coreShown p c then x else 0)
  match off, lo with
  | 0x08, 0 => show_ k.state.code
  | 0x08, 3 => show_ (k.ecause.toNat % 32)
  | 0x08, 8 => show_ (min 65535 k.exc)
  | 0x10, 0 => show_ k.pc
  | 0x18, 0 => show_ v.count
  | 0x18, 16 => show_ (b2n v.satHi)
  | 0x18, 17 => show_ (b2n v.satLo)
  | 0x18, 18 => show_ ((v.waits.map (fun w => 2 ^ w.num)).sum)
  | _, _ => none

/-- SCL (Table 12.13). -/
def Dev.liveScl (d : Dev) (p off lo : Nat) : Option Nat :=
  match off, lo with
  | 0x04, 0 => some d.scaler.boot.code
  | 0x04, 3 => some d.scaler.lease.lead.num
  | 0x04, 4 => some (b2n (d.agreedVer (.pf0 p) 1).isSome)
  | 0x04, 5 => some (b2n (tblGet d.scaler.running 3).isSome)
  | 0x04, 6 => some (b2n d.emergency)
  | 0x08, 0 => some d.scaler.lease.epoch.toNat
  | _, _ => none

/-- The key slot that BRK_SLOT_SEL shows to a manager function (R411). -/
def Dev.shownKey (d : Dev) (p : Nat) : Option KeySlot :=
  match d.key (d.fld F.BRK_SLOT_SEL_SLOT p) with
  | some k => match d.keySlice k with
    | some s => if d.manages p s then some k else none
    | none => some k
  | none => none

/-- BRK (Table 13.11). -/
def Dev.liveBrk (d : Dev) (p off lo : Nat) : Option Nat :=
  let v := fun (f : KeySlot → Nat) => some (((d.shownKey p).map f).getD 0)
  let s := d.fld F.BRK_SLICE_SEL_SLICE p
  match off, lo with
  | 0x04, 16 => some (d.bark.sessions.filter (fun e => e.2.step == 9)).length
  | 0x0C, 16 => some (if d.manages p s then d.slotsHeld s else 0)
  | 0x14, 0 => v (fun k => k.state.code)
  | 0x14, 2 => v (fun k => k.use)
  | 0x14, 5 => v (fun k => if k.owner = .device then 1 else 0)
  | 0x14, 6 => v (fun k => b2n k.held)
  | 0x14, 7 => v (fun k => (d.keySlice k).getD 0)
  | 0x14, 16 => v (fun _ => min 65535 (d.keyRefs (d.fld F.BRK_SLOT_SEL_SLOT p)))
  | 0x18, 0 => v (fun k => k.next)
  | _, _ => none

/-- PWR (Table 14.11). -/
def Dev.livePwr (d : Dev) (off lo : Nat) : Option Nat :=
  let running := d.pwr.move.any (fun m => !m.waiting)
  match off, lo with
  | 0x00, 0 => some d.pwr.state
  | 0x00, 3 => some (if running then (d.pwr.move.map (·.target)).getD 0 else 0)
  | 0x00, 6 => some (b2n running)
  | 0x00, 7 => some (b2n (d.pwr.move.any (·.waiting)))
  | 0x0C, 6 => some (b2n d.emergency)
  | 0x18, 0 => some (min 255 (d.pwr.dips.filter (fun t => d.clk ≤ t + sTicks 600)).length)
  | _, _ => none

/-- FLT (Table 15.6). -/
def Dev.liveFlt (d : Dev) (p off lo : Nat) : Option Nat :=
  if off ≥ 0x40 ∧ off < 0x80 then some (((tblGetD d.flt.latched p [])[(off - 0x40) / 4]?.map (·.toNat)).getD 0)
  else match off, lo with
    | 0x18, 0 => some d.faultLines
    | 0x38, 0 => some d.flt.next
    | _, _ => none

/-- TLY (Table 15.7). -/
def Dev.liveTly (d : Dev) (p off lo : Nat) : Option Nat :=
  if off ≥ 0xC0 ∧ off < 0xE0 then some ((tblGetD d.tally.polLatch p []).getD ((off - 0xC0) / 8) 0)
  else match off, lo with
    | 0x04, 1 => some (b2n d.tally.snapBusy)
    | 0x04, 16 => some d.tally.snapSeq
    | 0x10, 0 => some (countIn (if d.flag F.TLY_SEL_BANK p then d.tally.bank else d.tally.counts) (d.fld F.TLY_SEL_EVENT p))
    | 0x18, 0 => some d.tally.snapStamp.toNat
    | _, _ => none

/-- The value of a field that follows the state of a unit, as the manager function of a port reads it; none for a field
that the register keeps itself. GEN_SUFFIX and GEN_SERIAL come from the device certificate once stage APPLY has read
it (R22) (DEDUCED, log 49). -/
def Dev.liveFld (d : Dev) (p : Nat) (f : Fld) : Option Nat :=
  let b := f.off / 0x10000
  if b = 0 then
    if (f.off = 0x0C ∨ f.off = 0x10) ∧ (d.scaler.boot = .hostWait ∨ d.scaler.boot = .running) then
      some (Config.imageField f.off f.lo) else none
  else if b = 1 then d.liveScl p (f.off % 0x10000) f.lo
  else if b = 2 then d.liveFlt p (f.off % 0x10000) f.lo
  else if b = 3 then d.livePwr (f.off % 0x10000) f.lo
  else if b = 4 then d.liveTim p (f.off % 0x10000) f.lo
  else if b = 5 then d.liveTly p (f.off % 0x10000) f.lo
  else if b = 9 then d.liveBrk p (f.off % 0x10000) f.lo
  else if b = 0x10 then d.liveEpx p (f.off % 0x10000) f.lo
  else if b = 0x20 then d.liveSkd (f.off % 0x10000) f.lo
  else if b = 0x30 then d.liveBkr p (f.off % 0x10000) f.lo
  else if b = 0x50 then d.liveBom p (f.off % 0x10000) f.lo
  else if b = 0x60 then d.liveFlu p (f.off % 0x10000) f.lo
  else if b = 0x80 then d.liveMil p (f.off % 0x10000) f.lo
  else if b = 0xC0 then d.liveMem p (f.off % 0x10000) f.lo
  else if b = 0xD0 then d.liveCrd (f.off % 0x10000) f.lo
  else if b = 0xE0 then d.liveNve p (f.off % 0x10000) f.lo
  else if b = 0x100 then d.liveKrf p (f.off % 0x10000) f.lo
  else none

/-! ### Where a field is kept -/

/-- The entry that TLY_TEL_SEL shows: 0 to 3 collectors, 4 and others the own addresses. -/
def Dev.telEntry (d : Dev) (p : Nat) : Nat := min 4 (d.fld F.TLY_TEL_SEL_ENTRY p)

/-- The instance of a field that the manager function of a port accesses; none where a selection shows it nothing: the
field then reads 0 and discards writes. -/
def Dev.instOf (d : Dev) (p : Nat) (f : Fld) : Option Nat :=
  let o := f.off
  if o = 0x50104 ∧ f.lo = 3 then some (d.telEntry p)
  else if 0x50108 ≤ o ∧ o ≤ 0x50120 then some (d.telEntry p)
  else if f.kept = .f ∨ o = 0x18 then some p
  else if 0xC00050 ≤ o ∧ o ≤ 0xC0005C then
    let s := d.fld F.MEM_SLICE_SEL_SLICE p
    if d.manages p s then some s else none
  else if 0x600010 ≤ o ∧ o < 0x600030 then some (d.fld F.FLU_PORT_SEL_PORT p)
  else if o = 0x600044 then some (d.fld F.FLU_SLICE_SEL_SLICE p)
  else if 0x600084 ≤ o ∧ o ≤ 0x600094 then some (d.fld F.FLU_POL_SEL_DIE p * 16384 + d.fld F.FLU_POL_SEL_POLICER p)
  else if o = 0x500008 then some (d.bomSel p)
  else if o = 0x9000C then
    let s := d.fld F.BRK_SLICE_SEL_SLICE p
    if d.manages p s then some s else none
  else if o = 0x500A4 then some (d.fld F.TLY_SMP_SEL_CORE p)
  else if o = 0x100000C ∨ o = 0x1000034 ∨ o = 0x1000038 then
    let c := d.fld F.KRF_CORE_SEL_CORE p
    if d.coreShown p c then some c else none
  else some 0

/-- A field as the manager function of a port reads it (R11). -/
def Dev.readFld (d : Dev) (p : Nat) (f : Fld) : Nat :=
  match f.acc, d.liveFld p f with
  | .wo, _ => 0
  | _, some v => v % 2 ^ f.w
  | _, none => match d.instOf p f with
    | some i => d.fld f i
    | none => 0

/-- A register of BAR0, or both words of a pair by the offset of its low word; reserved offsets and bits read 0 (R7,
R10). -/
def Dev.readReg (d : Dev) (p off : Nat) : Nat :=
  ((fieldsOf allRows off).map (fun f => d.readFld p f * 2 ^ f.lo)).sum

/-- A register of a slice page (Table 12.14). -/
def Dev.readPage (d : Dev) (s off : Nat) : Nat :=
  if off = 0x1C then b2n (d.agreedVer (.page s) 1).isSome + 2 * b2n ((d.slice s).state == .active)
  else ((fieldsOf rowsPg (0x10000000 + off)).map (fun f => d.fld f s * 2 ^ f.lo)).sum

/-- The NVMe controller registers of a slice page, as 4 B words (Table 9.1, R284). -/
def Dev.nvWord (d : Dev) (s port off : Nat) : Nat :=
  let c := d.ctrl (ctrlKey s port)
  match off with
  | 0x00 => nvCap % 2 ^ 32
  | 0x04 => nvCap / 2 ^ 32
  | 0x08 => nvVs
  | 0x14 => c.cc.toNat
  | 0x1C => c.csts
  | 0x24 => c.aqa.toNat
  | 0x28 => c.asq.toNat % 2 ^ 32
  | 0x2C => c.asq.toNat / 2 ^ 32
  | 0x30 => c.acq.toNat % 2 ^ 32
  | 0x34 => c.acq.toNat / 2 ^ 32
  | _ => 0

/-! ### The resource directory (R258, R259) -/

/-- Types of the entries: Table 8.6, and the list of event numbers. -/
def dirTypes : List Nat := [1, 2, 3, 4, 5, 6, 0x8001]

/-- Offsets of the entries' contents, one behind the other after the entries. -/
def dirOffsets : Nat → List (List Byte) → List Nat
  | _, [] => []
  | n, b :: bs => n :: dirOffsets (n + b.length) bs

/-- The device identity (R387, Table 13.1): the public keys of IDK and KAK, that of KAK signed by IDK, and the device
certificate of the configuration image in use. -/
def Dev.identityEntry (d : Dev) : List Byte :=
  let cert := Config.deviceCert ((d.scaler.accepted.map (·.digest)).getD 0)
  let pub := fun (f : Identity → Nat) => match d.bark.ident with
    | some i => publicKey (f i)
    | none => zeros 64
  le 2 0x0100 ++ le 2 (d.fld F.BRK_STATUS_ID_MATCH 0) ++ le 4 cert.length ++ pub (·.idk) ++ pub (·.kak) ++
    be 64 (d.signIdk (pub (·.kak))).toNat ++ zeros 56 ++ cert

/-- The bytes of the directory: header (Table 8.5), entries and their contents. -/
def Dev.directoryBytes (d : Dev) : List Byte :=
  let bodies := dirTypes.map (fun t => if t = 5 then d.identityEntry else Config.dirBody t d.scaler.dirGen)
  let at_ := 0x20 + 16 * dirTypes.length
  let entries := ((dirTypes.zip bodies).zip (dirOffsets at_ bodies)).map (fun e =>
    le 2 e.1.1 ++ le 2 0x0100 ++ le 4 e.2 ++ le 4 e.1.2.length ++ zeros 4)
  let rest := entries.flatten ++ bodies.flatten
  le 2 0x0100 ++ le 2 dirTypes.length ++ le 4 0x52445257 ++ le 4 (0x20 + rest.length) ++ le 4 d.scaler.dirGen ++
    le 4 (crc32c rest).toNat ++ zeros 12 ++ rest

end Sys2Proof.Machine
end

