-- ==== Sys2Proof/Machine/HostAccess.lean ====
section
/-! DEFINITION. Accesses of host software to registers: 64-bit pairs, access codes, lock bits, and the registers whose
writes act (00_scope R7 to R13, 08_host_endpoint R254 to R258). -/

namespace Sys2Proof.Machine

/-! ### Items counted without a number (DESIGN CHOICE, log 11) -/

/-- BAR0 writes of a wrong size or alignment (R254), and registers that discard writes in a state of their block. -/
def itHostBad : Nat := 4096 + 0x000
def itBsDiscard : Nat := 4096 + 0x20F
def itChainCfg : Nat := 4096 + 0x3BF

/-! ### Paths -/

/-- The number of a path in the tables of latches and staged words: a manager function, or the page of a slice (R8). -/
def pathKey : Via → Nat
  | .bar0 p => p
  | .page _ _ s => 16 + s
  | .rom p _ => 8 + p

/-- BAR0 of a port answers: the Scalers serve PCIe (Table 12.3) (DEDUCED, log 47). -/
def Dev.bar0Up (d : Dev) (p : Nat) : Bool := p < 4 && (d.scaler.boot == .hostWait || d.scaler.boot == .running)

/-- The page of a slice stands in the BAR2 of a function of a port (R255, R276). -/
def Dev.pageBound (d : Dev) (port : Nat) (kind : FnKind) (s : Nat) : Bool :=
  (d.slice s).state != .unbound && (d.slice s).kind == kind && d.pageOn s port && port < 4

/-- The place of a latch or staged word. -/
def hostKey (via : Via) (off : Nat) : Nat := pathKey via * 2 ^ 40 + off

/-- Latch the high word of a pair (R8). -/
def Dev.latch (d : Dev) (via : Via) (off v : Nat) : Dev :=
  { d with host := { d.host with latch := tblPut d.host.latch (hostKey via off) v } }

/-- The latched high word of a pair. -/
def Dev.latched (d : Dev) (via : Via) (off : Nat) : Nat := tblGetD d.host.latch (hostKey via off) 0

/-- Stage the low word of a pair (R9). -/
def Dev.stage (d : Dev) (via : Via) (off v : Nat) : Dev :=
  { d with host := { d.host with staged := tblPut d.host.staged (hostKey via off) v } }

/-- Use up the staged low word of a pair. -/
def Dev.unstage (d : Dev) (via : Via) (off : Nat) : Dev :=
  { d with host := { d.host with staged := tblDel d.host.staged (hostKey via off) } }

/-- A register is the low word of a pair. -/
def isPair (off : Nat) : Bool := (fieldsOf allRows off).any (·.pair)

/-- A page register is the low word of a pair. -/
def isPagePair (off : Nat) : Bool := off == 0 || off == 0x10

/-! ### Reads -/

/-- What a read does to a field of code RC (R11): it clears it, or reloads it with the value its Meaning names. -/
def Dev.clearRc (d : Dev) (p : Nat) (f : Fld) : Dev :=
  if f.acc ≠ .rc then d
  else if f.off = 0x501004 ∨ f.off = 0x502004 then
    let die := dieAt ((f.off - 0x501004) / 4096)
    { d with path := { d.path with minFree := tblPut d.path.minFree die.num (d.boomFree die) } }
  else if f.off = 0x60004C then d.modBq (d.fluSel p) (fun q => { q with hwm := q.depth })
  else if f.off = 0xE00020 ∨ f.off = 0xE00024 then
    match d.shownVol p with
    | none => d
    | some _ => d.modVol (d.fld F.NVE_VOL_SEL_VOL p) (fun v =>
        if f.off = 0xE00020 then (if f.lo = 0 then { v with tagFail := 0 } else { v with retried := 0 })
        else (if f.lo = 0 then { v with freezes := 0 } else { v with conflicts := 0 }))
  else match d.instOf p f with
    | some i => d.setFld f i 0
    | none => d

/-- What a read of a register of BAR0 does beside giving its value: RC fields, TIM_NOW_FRAC, TIM_PPS_CAP (R47). -/
def Dev.readEffect (d : Dev) (p off : Nat) : Dev :=
  let d := (fieldsOf allRows off).foldl (fun d f => d.clearRc p f) d
  if off = 0x40010 then d.latch (.bar0 p) 0x40018 d.frac.toNat
  else if off = 0x40048 then
    (d.latch (.bar0 p) 0x40050 (d.fld F.TIM_PPS_CAP_FRAC_FRAC 0)).setFlag F.TIM_STATUS_PPS_CAP_VALID 0 false
  else d

/-- A 4 B read of BAR0: the low word of a pair latches the high word; the high word is the latched one (R8). -/
def Dev.readBar0 (d : Dev) (p off : Nat) : Dev :=
  if off = 0x300044 then d.tblRead p
  else if off ≥ 4 ∧ isPair (off - 4) then d.emit (.regData (d.latched (.bar0 p) (off - 4)))
  else
    let v := d.readReg p off
    let d := if isPair off then d.latch (.bar0 p) off (v / 2 ^ 32) else d
    (d.emit (.regData (v % 2 ^ 32))).readEffect p off

/-- A 4 B read of a slice page; reserved offsets read 0. -/
def Dev.readSlicePage (d : Dev) (via : Via) (port s off : Nat) : Dev :=
  if off ≥ 0x8000 then d.emit (.regData (d.nvWord s port (off - 0x8000)))
  else if off ≥ 4 ∧ isPagePair (off - 4) then d.emit (.regData (d.latched via (off - 4)))
  else
    let v := d.readPage s off
    let d := if isPagePair off then d.latch via off (v / 2 ^ 32) else d
    d.emit (.regData (v % 2 ^ 32))

/-- A bad access is an Unsupported Request of its function (Table 8.9), and counted (DEDUCED, log 47). -/
def Dev.badAccess (d : Dev) (p : Nat) (kind : FnKind) : Dev := (d.count itHostBad).aerLog p kind .unsupportedRequest

/-- A read of `size` bytes (R254, R258): other sizes and alignments than 4 B, and 8 B of a pair, complete with Unsupported
Request; the directory is read at any alignment. -/
def Dev.hostRead (d : Dev) (via : Via) (off size : Nat) : Dev :=
  match via with
  | .rom _ _ => d.emit (.regData (fieldAt d.directoryBytes off (min size 8)))
  | .bar0 p =>
    if !d.bar0Up p then d
    else if size = 4 ∧ off % 4 = 0 then d.readBar0 p off
    else if size = 8 ∧ off % 8 = 0 ∧ isPair off then (d.emit (.regData (d.readReg p off))).readEffect p off
    else (d.badAccess p .pf0).emit .regUr
  | .page port kind s =>
    if !d.pageBound port kind s then d.emit (.regData 0)
    else if size = 4 ∧ off % 4 = 0 then d.readSlicePage via port s off
    else if size = 8 ∧ off % 8 = 0 ∧ off ≥ 0x8000 then
      d.emit (.regData (d.nvWord s port (off - 0x8000) + 2 ^ 32 * d.nvWord s port (off - 0x8000 + 4)))
    else if size = 8 ∧ off % 8 = 0 ∧ isPagePair off then d.emit (.regData (d.readPage s off))
    else (d.badAccess port kind).emit .regUr

/-! ### Writes of fields -/

/-- The lock bit of the block of a register (R13). -/
def lockOf (off : Nat) : Option Fld :=
  let b := off / 0x10000
  if b = 3 then some F.PWR_CTRL_LOCK
  else if b = 0x10 then some F.EPX_TAGCFG_LOCK
  else if b = 0x20 then some F.SKD_CTRL_LOCK
  else if b = 0x30 then some F.BKR_CTRL_LOCK
  else if b = 0x60 then some F.FLU_SHAPE_LOCK
  else if b = 0xC0 then some F.MEM_CTRL_LOCK
  else if b = 0xD0 then some F.CRD_CTRL_LOCK
  else if b = 0xE0 then some F.NVE_CTRL_LOCK
  else none

/-- The RWL fields of a register are locked. -/
def Dev.locked (d : Dev) (off : Nat) : Bool :=
  match lockOf off with
  | some f => d.flag f 0
  | none => false

/-- Low bits of a field that read 0 whatever is written. -/
def fieldAlign (off : Nat) : Nat :=
  if off = 0x200008 ∨ off = 0x10010 ∨ off = 0x10020 ∨ off = 0x10000000 ∨ off = 0x10000010 then 4096
  else if off = 0x1000020 then 64
  else 1

/-- Clear the bits of a W1C field that a write has at 1. A fault bit whose line is asserted sets again (R431). -/
def Dev.clearBits (d : Dev) (f : Fld) (old v : Nat) : Nat :=
  let v := if f.off = 0x20008 ∨ f.off = 0x20010 then v ^^^ (v &&& d.faultLines) else v
  old ^^^ (old &&& v)

/-- Write a field by its access code (R11, R13). -/
def Dev.writeFld (d : Dev) (p : Nat) (locked : Bool) (f : Fld) (v : Nat) : Dev :=
  match d.instOf p f with
  | none => d
  | some i =>
    let old := d.fld f i
    match f.acc with
    | .rw => d.setFld f i (v / fieldAlign f.off * fieldAlign f.off)
    | .rwl => if locked then d else d.setFld f i (v / fieldAlign f.off * fieldAlign f.off)
    | .w1c => d.setFld f i (d.clearBits f old v)
    | .w1s => d.setFld f i (old ||| v)
    | _ => d

/-- A write to a register with locked fields is counted (R13). -/
def Dev.countLocked (d : Dev) (off : Nat) : Dev :=
  if d.locked off && (fieldsOf allRows off).any (fun f => f.acc == .rwl) then d.count 0x001 else d

/-- Write the fields of a register, or of both words of a pair. -/
def Dev.writeFields (d : Dev) (p off v : Nat) : Dev :=
  let fs := fieldsOf allRows off
  let locked := d.locked off
  let d := d.countLocked off
  fs.foldl (fun d f => d.writeFld p locked f (bits v f.lo f.w)) d

/-- Registers that discard every write in a state of their block: the item counted (R219, R331, R383, R249). -/
def Dev.writeHeld (d : Dev) (p off : Nat) : Option Nat :=
  if (off = 0x200008 ∨ off = 0x200010) ∧ d.flag F.SKD_CTRL_BS_EN 0 then some itBsDiscard
  else if (off = 0x10010 ∨ off = 0x10020) ∧ d.flag F.SCL_SQ_CTRL_EN p then some itSclDiscard
  else if 0x10040 ≤ off ∧ off < 0x10080 ∧ d.flag F.SCL_MBOX_CTRL_GO p then some itSclDiscard
  else if off = 0xD00014 ∧ d.cord.phase ≠ .idle then some itCrdDiscard
  else if off = 0x500008 ∧ 65559 ≤ d.bomSel p % 131072 ∧ d.bomSel p % 131072 < 67607 then some itChainCfg
  else none

/-- What follows a write of a register without a row of its own: a change of the time source, the flush of a queue, a
reserve of read slots that lets requests go on (R265), the telemetry stream set up anew. -/
def Dev.writeAfter (d : Dev) (p off oldSrc : Nat) : Dev :=
  if off = 0x40000 then d.sourceChange oldSrc
  else if off = 0x500008 ∧ d.flag F.BOM_QCFG_FLUSH (d.bomSel p) then
    (d.boomFlush (dieAt (d.bomSel p / 131072)) (d.bomSel p % 131072)).settleMoves
  else if off = 0x100004 then [0, 1, 2, 3].foldl Dev.serveWaiting d
  else if off = 0x50100 then { d with tel := { d.tel with stopped := false } }
  else d

/-- KRF_CORE_CTRL written: DEBUG of a sequencer core; clearing it resumes the core (R343). -/
def Dev.coreCtrl (d : Dev) (p v : Nat) : Dev :=
  let c := d.fld F.KRF_CORE_SEL_CORE p
  if !isSeq c ∨ !d.coreShown p c then d
  else if bit v 0 then d.setFlag F.KRF_CORE_CTRL_DEBUG c true
  else d.debugResume c

/-- A 4 B write of a 32-bit register of BAR0. Registers that have a command of their own act as it does; data that such a
command takes from memory is then absent (DESIGN CHOICE, log 48). -/
def Dev.writeReg (d : Dev) (p off : Nat) (v : W32) : Dev :=
  let n := v.toNat
  if (fieldsOf allRows off).isEmpty then d.count 0x000
  else match d.writeHeld p off with
    | some k => (d.countLocked off).count k
    | none =>
      if off = 0x10018 then d.sqEnable (.bar0 p) v
      else if off = 0x1001C then d.sqTail (.bar0 p) v []
      else if off = 0x10028 then d.cqHead (.bar0 p) v
      else if off = 0x10080 then (if bit n 0 then d.mboxGo p else d)
      else if off = 0x2002C then d.pinCtrl (bit n 0)
      else if off = 0x2003C then d.logIdx p v
      else if off = 0x50004 then (if bit n 0 then d.snapshot else d)
      else if off = 0x500B0 then d.polSel p v
      else if off = 0x9000C then d.sliceSlotsWrite p v
      else if 0x300010 ≤ off ∧ off < 0x300020 then d.seedWrite ((off - 0x300010) / 4) v
      else if off = 0x300044 then d.tblWrite p v
      else if off = 0x600084 then d.polCommit p v
      else if off = 0x800050 then d.evtClr p v
      else if off = 0xC00010 then d.memSpareWrite v
      else if off = 0xC00058 ∨ off = 0xC0005C then
        d.spillWrite p ((off - 0xC00054) / 4) (BitVec.ofNat 64 n) (d.spillUsed (d.fld F.MEM_SLICE_SEL_SLICE p))
      else if off = 0xD0000C then d.crdVolWrite v [] []
      else if off = 0x100000C then d.coreCtrl p n
      else if off = 0x1000028 then d.stateDump p v
      else (d.writeFields p off n).writeAfter p off (d.fld F.TIM_CTRL_SRC 0)

/-- Both words of a pair committed in one instant. -/
def Dev.writePair (d : Dev) (p off : Nat) (v : W64) : Dev :=
  match d.writeHeld p off with
  | some k => (d.countLocked off).count k
  | none =>
    if off = 0x40020 then d.timWrite (fun d => d.putAddend v)
    else if off = 0x40028 then d.timSet v
    else if off = 0x40030 then d.timWrite (fun d => d.putStep v)
    else if off = 0x40038 then d.timWrite (fun d => d.putSlew v)
    else if off = 0x20020 then d.fltForce p v
    else if off = 0xC00050 then d.spillWrite p 0 v (d.spillUsed (d.fld F.MEM_SLICE_SEL_SLICE p))
    else d.writeFields p off v.toNat

/-- The low word that a high-word write without a staged one commits (R9): what the RW and RWL fields hold, and 0 for W1C,
W1S and WO fields. -/
def Dev.keptLow (d : Dev) (p off : Nat) : Nat :=
  ((fieldsOf allRows off).map (fun f =>
    if f.acc = .rw ∨ f.acc = .rwl then d.readFld p f * 2 ^ f.lo else 0)).sum % 2 ^ 32

/-- Stage the low word of a pair, or commit a high word (R9). -/
def Dev.writeLow (d : Dev) (p off : Nat) (v : W32) : Dev := d.stage (.bar0 p) off v.toNat
def Dev.writeHigh (d : Dev) (p off : Nat) (v : W32) : Dev :=
  let lo := match tblGet d.host.staged (hostKey (.bar0 p) off) with
    | some n => n
    | none => d.keptLow p off
  (d.unstage (.bar0 p) off).writePair p off (BitVec.ofNat 64 (lo % 2 ^ 32 + v.toNat * 2 ^ 32))

/-- A 4 B write of BAR0. -/
def Dev.writeBar0 (d : Dev) (p off : Nat) (v : W32) : Dev :=
  if isPair off then d.writeLow p off v
  else if off ≥ 4 ∧ isPair (off - 4) then d.writeHigh p (off - 4) v
  else d.writeReg p off v

/-! ### Slice pages -/

/-- A base of the command rings of a page; it does not change while EN is 1 (R383, R384). -/
def Dev.pageBase (d : Dev) (s off : Nat) (v : W64) : Dev :=
  let f := if off = 0 then F.PG_SQ_BASE_ADDR else F.PG_CQ_BASE_ADDR
  if d.flag F.PG_SQ_CTRL_EN s then d.count itSclDiscard else d.setFld f s (v.toNat / 4096 * 4096)

/-- The high word of a page's pair. -/
def Dev.pageHigh (d : Dev) (via : Via) (s off : Nat) (v : W32) : Dev :=
  let f := if off = 0 then F.PG_SQ_BASE_ADDR else F.PG_CQ_BASE_ADDR
  let lo := match tblGet d.host.staged (hostKey via off) with
    | some n => n
    | none => d.fld f s % 2 ^ 32
  (d.unstage via off).pageBase s off (BitVec.ofNat 64 (lo % 2 ^ 32 + v.toNat * 2 ^ 32))

/-- CC of a controller written: EN and SHN (R287). -/
def Dev.nvCc (d : Dev) (s port : Nat) (v : W32) : Dev :=
  if !v.getLsbD 0 then d.ccDisable s port v
  else if bits v.toNat 14 2 ≠ 0 then d.ccShutdown s port v
  else d.ccEnable s port v

/-- A word of the NVMe controller registers written; AQA, ASQ and ACQ change while the controller is disabled. -/
def Dev.nvWordWrite (d : Dev) (s port off : Nat) (v : W32) : Dev :=
  let k := ctrlKey s port
  if off = 0x14 then d.nvCc s port v
  else if (d.ctrl k).rdy then d
  else match off with
    | 0x24 => d.modCtrl k (fun c => { c with aqa := v })
    | 0x28 => d.modCtrl k (fun c => { c with asq := BitVec.ofNat 64 (c.asq.toNat / 2 ^ 32 * 2 ^ 32 + v.toNat) })
    | 0x2C => d.modCtrl k (fun c => { c with asq := BitVec.ofNat 64 (c.asq.toNat % 2 ^ 32 + v.toNat * 2 ^ 32) })
    | 0x30 => d.modCtrl k (fun c => { c with acq := BitVec.ofNat 64 (c.acq.toNat / 2 ^ 32 * 2 ^ 32 + v.toNat) })
    | 0x34 => d.modCtrl k (fun c => { c with acq := BitVec.ofNat 64 (c.acq.toNat % 2 ^ 32 + v.toNat * 2 ^ 32) })
    | _ => d

/-- A 4 B write of a slice page; doorbells and signals of a wrong size are lost (R257). -/
def Dev.writePage (d : Dev) (via : Via) (port s off : Nat) (v : W32) : Dev :=
  if off ≥ 0x8000 then d.nvWordWrite s port (off - 0x8000) v
  else if off = 0x08 then d.sqEnable via v
  else if off = 0x0C then d.sqTail via v []
  else if off = 0x18 then d.cqHead via v
  else if isPagePair off then d.stage via off v.toNat
  else if off ≥ 4 ∧ isPagePair (off - 4) then d.pageHigh via s (off - 4) v
  else if off = 0x1C then d
  else d.bellLost via

/-! ### The commands -/

/-- REG_WRITE: a write of `size` bytes through a path (R254, R255, R257, R269): refused by size or alignment, or
poisoned, it is discarded and counted. -/
def Dev.regWrite (d : Dev) (via : Via) (off size : Nat) (val : W64) (poisoned : Bool) : Dev :=
  match via with
  | .rom _ _ => d
  | .bar0 p =>
    if !d.bar0Up p then d
    else if poisoned then d.poisonedTlp p .pf0
    else if size = 4 ∧ off % 4 = 0 then d.writeBar0 p off (val.truncate 32)
    else if size = 8 ∧ off % 8 = 0 ∧ isPair off then (d.unstage via off).writePair p off val
    else d.badAccess p .pf0
  | .page port kind s =>
    if !d.pageBound port kind s then (d.bellLost via).notePoison via poisoned
    else if poisoned then d.poisonedTlp port kind
    else if size = 4 ∧ off % 4 = 0 then d.writePage via port s off (val.truncate 32)
    else if size = 8 ∧ off % 8 = 0 ∧ isPagePair off then (d.unstage via off).pageBase s off val
    else if size = 8 ∧ off % 8 = 0 ∧ off ≥ 0x8000 then
      (d.nvWordWrite s port (off - 0x8000) (val.truncate 32)).nvWordWrite s port (off - 0x8000 + 4) ((val >>> 32).truncate 32)
    else d.bellLost via

/-- LOW_WORD_WRITE: `off` is the offset of the low word. -/
def Dev.lowWordWrite (d : Dev) (via : Via) (off : Nat) (val : W32) : Dev := d.regWrite via off 4 (val.zeroExtend 64) false

/-- HIGH_WORD_WRITE: `off` is the offset of the high word. -/
def Dev.highWordWrite (d : Dev) (via : Via) (off : Nat) (val : W32) : Dev := d.regWrite via off 4 (val.zeroExtend 64) false

/-- ACCESS_8B: a read or a write of both words of a pair (R254). -/
def Dev.access8 (d : Dev) (via : Via) (off : Nat) (write : Option W64) : Dev :=
  match write with
  | some v => d.regWrite via off 8 v false
  | none => d.hostRead via off 8

/-- LOCK_SET: a write of a register that holds a lock bit (R13) (DESIGN CHOICE, log 48). -/
def Dev.lockSet (d : Dev) (via : Via) (off : Nat) (val : W32) : Dev := d.regWrite via off 4 (val.zeroExtend 64) false

/-- The TIM pairs written whole by a manager function (R36, R37). -/
def Dev.timPair (d : Dev) (port off : Nat) (val : W64) : Dev :=
  if !d.bar0Up port then d else (d.unstage (.bar0 port) off).writePair port off val

/-- TIM_NOW_READ and TIM_PPS_CAP_READ: the low word read by a manager function (R38, R47). -/
def Dev.timRead (d : Dev) (port off : Nat) : Dev := if !d.bar0Up port then d else d.readBar0 port off

end Sys2Proof.Machine
end

