-- ==== Sys2Proof/Machine/ExecCollective.lean ====
section
/-! DEFINITION. The meanings of the commands of the steps of plans: intake, exchanges, updates, failures. -/

namespace Sys2Proof.Machine

/-- STEP_ARM (R111). -/
def execStepArm (slot : Nat) (s : State) : Result :=
  s.onDev (fun d => d.stepArm slot)

/-- PLAN_SIGNAL_WRITE (R117). -/
def execPlanSignalWrite (via : Via) (slot size : Nat) (val : W32) (poisoned : Bool) (s : State) : Result :=
  s.onDev (fun d => d.planSignal via slot size val poisoned)

/-- INTAKE_START (R117). -/
def execIntakeStart (slot k : Nat) (s : State) : Result :=
  s.onDev (fun d => d.intakeStart slot k)

/-- INTAKE_END (R124). -/
def execIntakeEnd (slot k : Nat) (parts : List PartRead) (s : State) : Result :=
  s.onDev (fun d => d.intakeEnd slot k parts)

/-- RESIDUAL_FETCH_DONE (R89). -/
def execResidualFetchDone (slot k first count : Nat) (s : State) : Result :=
  s.onDev (fun d => d.residFetch slot k first count)

/-- RESIDUAL_WRITEBACK_DONE (R89). -/
def execResidualWritebackDone (slot k first : Nat) (s : State) : Result :=
  s.onDev (fun d => d.residWriteback slot k first)

/-- REDUCE_DATA_RECEIVE (R130). -/
def execReduceDataReceive (m : CollMsg) (s : State) : Result :=
  s.onDev (fun d => d.collReceive 1 m)

/-- SCALAR_PRE_START (R138). -/
def execScalarPreStart (slot : Nat) (s : State) : Result :=
  s.onDev (fun d => d.scalarPre slot)

/-- SCALAR_RECEIVE (R138). -/
def execScalarReceive (m : CollMsg) (post : Bool) (vals : List (Nat × Scalars)) (s : State) : Result :=
  s.onDev (fun d => d.scalarReceive m post vals)

/-- UPDATE_START (R140). -/
def execUpdateStart (slot group : Nat) (s : State) : Result :=
  s.onDev (fun d => d.updateStart slot group)

/-- UPDATE_END (R116). -/
def execUpdateEnd (slot group : Nat) (s : State) : Result :=
  s.onDev (fun d => d.updateEnd slot group)

/-- SCALAR_POST_START (R138). -/
def execScalarPostStart (slot : Nat) (s : State) : Result :=
  s.onDev (fun d => d.scalarPost slot)

/-- GATHER_START (R131). -/
def execGatherStart (slot k : Nat) (s : State) : Result :=
  s.onDev (fun d => d.gatherStart slot k)

/-- GATHER_DATA_RECEIVE (R131). -/
def execGatherDataReceive (m : CollMsg) (s : State) : Result :=
  s.onDev (fun d => d.collReceive 2 m)

/-- READY_RECORD_WRITE (R132). -/
def execReadyRecordWrite (slot k acc : Nat) (s : State) : Result :=
  s.onDev (fun d => d.readyRecord slot k acc)

/-- STEP_END (R116). -/
def execStepEnd (slot : Nat) (s : State) : Result :=
  s.onDev (fun d => (d.stepEnd slot).settleNames)

/-- START_RECEIVE (R159). -/
def execStartReceive (m : CollMsg) (vals : List StartVal) (s : State) : Result :=
  s.onDev (fun d => d.startReceive m vals)

/-- START_WAIT_TIMEOUT (R159). -/
def execStartWaitTimeout (slot : Nat) (s : State) : Result :=
  s.onDev (fun d => d.startTimeout slot)

/-- PEER_TIMEOUT (R155). -/
def execPeerTimeout (slot level peer : Nat) (s : State) : Result :=
  s.onDev (fun d => d.peerTimeout slot level peer)

/-- ABORT_RECEIVE (R157). -/
def execAbortReceive (m : AbortMsg) (s : State) : Result :=
  s.onDev (fun d => d.abortReceive m)

end Sys2Proof.Machine
end

