-- ==== Sys2Proof/Machine/ExecCores.lean ====
section
/-! DEFINITION. The meanings of the commands of the Kerf-36 cores: one instruction each, and their events. -/

namespace Sys2Proof.Machine

/-- ALU_S (R335). -/
def execAluS (core : Nat) (w : BitVec 13) (s : State) : Result :=
  s.onDev (fun d => d.kAluS core w)

/-- ADDI_S (R335). -/
def execAddiS (core : Nat) (w : BitVec 13) (s : State) : Result :=
  s.onDev (fun d => d.kAddiS core w)

/-- LI_S (R335). -/
def execLiS (core : Nat) (w : BitVec 13) (s : State) : Result :=
  s.onDev (fun d => d.kLiS core w)

/-- SHI_S (R335). -/
def execShiS (core : Nat) (w : BitVec 13) (s : State) : Result :=
  s.onDev (fun d => d.kShiS core w)

/-- LW_S (R337). -/
def execLwS (core : Nat) (w : BitVec 13) (s : State) : Result :=
  s.onDev (fun d => d.kLwS core w)

/-- SW_S (R337). -/
def execSwS (core : Nat) (w : BitVec 13) (s : State) : Result :=
  s.onDev (fun d => d.kSwS core w)

/-- BEZ_S (R335). -/
def execBezS (core : Nat) (w : BitVec 13) (s : State) : Result :=
  s.onDev (fun d => d.kBranch core 1 (sRd w) true (sext 8 (sImm w)))

/-- BNZ_S (R335). -/
def execBnzS (core : Nat) (w : BitVec 13) (s : State) : Result :=
  s.onDev (fun d => d.kBranch core 1 (sRd w) false (sext 8 (sImm w)))

/-- J_S (R335). -/
def execJS (core : Nat) (w : BitVec 13) (s : State) : Result :=
  s.onDev (fun d => d.kJumpS core w)

/-- SIG_S (R345). -/
def execSigS (core : Nat) (w : BitVec 13) (s : State) : Result :=
  s.onDev (fun d => d.kSig core 1 (bits w.toNat 7 6) (bits w.toNat 0 7 = 0))

/-- WAITC_S (R345). -/
def execWaitcS (core : Nat) (w : BitVec 13) (s : State) : Result :=
  s.onDev (fun d => d.kWait core 1 (bits w.toNat 7 6) (bits w.toNat 0 7 = 0) false 1)

/-- JR_S (R335). -/
def execJrS (core : Nat) (w : BitVec 13) (s : State) : Result :=
  s.onDev (fun d => d.kJrS core w)

/-- NOP (R335). -/
def execNop (core : Nat) (w : Byte) (s : State) : Result :=
  s.onDev (fun d => d.kNop core w)

/-- FENCE (R335). -/
def execFence (core : Nat) (w : Byte) (s : State) : Result :=
  s.onDev (fun d => d.kFence core w)

/-- ERET (R341). -/
def execEret (core : Nat) (w : Byte) (s : State) : Result :=
  s.onDev (fun d => d.kEret core w)

/-- HALT (R352). -/
def execHalt (core : Nat) (w : Byte) (s : State) : Result :=
  s.onDev (fun d => d.kHalt core w)

/-- BRK (R343). -/
def execBrk (core : Nat) (w : Byte) (s : State) : Result :=
  s.onDev (fun d => d.kBrk core w)

/-- SYS (R341). -/
def execSys (core : Nat) (w : Byte) (s : State) : Result :=
  s.onDev (fun d => d.kSys core w)

/-- WFI (R335). -/
def execWfi (core : Nat) (w : Byte) (s : State) : Result :=
  s.onDev (fun d => d.kWfi core w)

/-- REP (R339). -/
def execRep (core : Nat) (w : BitVec 13) (s : State) : Result :=
  s.onDev (fun d => d.kRep core w)

/-- REPX (R339). -/
def execRepx (core : Nat) (w : BitVec 13) (s : State) : Result :=
  s.onDev (fun d => d.kRepx core w)

/-- ALU (R335). -/
def execAlu (core : Nat) (w : BitVec 29) (s : State) : Result :=
  s.onDev (fun d => d.kAlu core w)

/-- ADDI (R335). -/
def execAddi (core : Nat) (w : BitVec 29) (s : State) : Result :=
  s.onDev (fun d => d.kImm core w (fun a => a + lSext w))

/-- ANDI (R335). -/
def execAndi (core : Nat) (w : BitVec 29) (s : State) : Result :=
  s.onDev (fun d => d.kImm core w (fun a => a &&& lZext w))

/-- ORI (R335). -/
def execOri (core : Nat) (w : BitVec 29) (s : State) : Result :=
  s.onDev (fun d => d.kImm core w (fun a => a ||| lZext w))

/-- XORI (R335). -/
def execXori (core : Nat) (w : BitVec 29) (s : State) : Result :=
  s.onDev (fun d => d.kImm core w (fun a => a ^^^ lZext w))

/-- LUI (R335). -/
def execLui (core : Nat) (w : BitVec 29) (s : State) : Result :=
  s.onDev (fun d => d.kLui core w)

/-- SEQI (R335). -/
def execSeqi (core : Nat) (w : BitVec 29) (s : State) : Result :=
  s.onDev (fun d => d.kImm core w (fun a => flag32 (a == lSext w)))

/-- SLTI (R335). -/
def execSlti (core : Nat) (w : BitVec 29) (s : State) : Result :=
  s.onDev (fun d => d.kImm core w (fun a => flag32 (a.slt (lSext w))))

/-- SLTIU (R335). -/
def execSltiu (core : Nat) (w : BitVec 29) (s : State) : Result :=
  s.onDev (fun d => d.kImm core w (fun a => flag32 (a.ult (lSext w))))

/-- SHI (R335). -/
def execShi (core : Nat) (w : BitVec 29) (s : State) : Result :=
  s.onDev (fun d => d.kShi core w)

/-- LW (R337). -/
def execLw (core : Nat) (w : BitVec 29) (s : State) : Result :=
  s.onDev (fun d => d.kLoadM core w (.int 4))

/-- SW (R337). -/
def execSw (core : Nat) (w : BitVec 29) (s : State) : Result :=
  s.onDev (fun d => d.kStoreM core w (.int 4))

/-- LK (R337). -/
def execLk (core : Nat) (w : BitVec 29) (s : State) : Result :=
  s.onDev (fun d => d.kLoadM core w .k36)

/-- SK (R337). -/
def execSk (core : Nat) (w : BitVec 29) (s : State) : Result :=
  s.onDev (fun d => d.kStoreM core w .k36)

/-- LBU (R337). -/
def execLbu (core : Nat) (w : BitVec 29) (s : State) : Result :=
  s.onDev (fun d => d.kNarrow core w false 1)

/-- LHU (R337). -/
def execLhu (core : Nat) (w : BitVec 29) (s : State) : Result :=
  s.onDev (fun d => d.kNarrow core w false 2)

/-- SB (R337). -/
def execSb (core : Nat) (w : BitVec 29) (s : State) : Result :=
  s.onDev (fun d => d.kNarrow core w true 1)

/-- SH (R337). -/
def execSh (core : Nat) (w : BitVec 29) (s : State) : Result :=
  s.onDev (fun d => d.kNarrow core w true 2)

/-- BEZ (R335). -/
def execBez (core : Nat) (w : BitVec 29) (s : State) : Result :=
  s.onDev (fun d => d.kBranch core 2 (lRd w) true (lOffB w))

/-- BNZ (R335). -/
def execBnz (core : Nat) (w : BitVec 29) (s : State) : Result :=
  s.onDev (fun d => d.kBranch core 2 (lRd w) false (lOffB w))

/-- JAL (R335). -/
def execJal (core : Nat) (w : BitVec 29) (s : State) : Result :=
  s.onDev (fun d => d.kJal core w)

/-- JALR (R335). -/
def execJalr (core : Nat) (w : BitVec 29) (s : State) : Result :=
  s.onDev (fun d => d.kJalr core w)

/-- KOP (R336). -/
def execKop (core : Nat) (w : BitVec 29) (s : State) : Result :=
  s.onDev (fun d => d.kKop core w)

/-- CVT (R342). -/
def execCvt (core : Nat) (w : BitVec 29) (s : State) : Result :=
  s.onDev (fun d => d.kCvt core w)

/-- CSR (R335). -/
def execCsr (core : Nat) (w : BitVec 29) (s : State) : Result :=
  s.onDev (fun d => d.kCsr core w)

/-- CRC (R350). -/
def execCrc (core : Nat) (w : BitVec 29) (s : State) : Result :=
  s.onDev (fun d => d.kCrc core w)

/-- ISSUE (R351). -/
def execIssue (core : Nat) (w : BitVec 29) (s : State) : Result :=
  s.onDev (fun d => d.kIssue core w)

/-- SYNC_SIG (R345). -/
def execSyncSig (core : Nat) (w : BitVec 29) (s : State) : Result :=
  s.onDev (fun d => d.kSig core 2 (lCtr w) true)

/-- SYNC_SIGR (R345). -/
def execSyncSigr (core : Nat) (w : BitVec 29) (s : State) : Result :=
  s.onDev (fun d => d.kSigr core w)

/-- SYNC_WAITC (R345). -/
def execSyncWaitc (core : Nat) (w : BitVec 29) (s : State) : Result :=
  s.onDev (fun d => d.kWait core 2 (lCtr w) true false 1)

/-- SYNC_WAITO (R345). -/
def execSyncWaito (core : Nat) (w : BitVec 29) (s : State) : Result :=
  s.onDev (fun d => d.kWaito core w)

/-- SYNC_TRYC (R345). -/
def execSyncTryc (core : Nat) (w : BitVec 29) (s : State) : Result :=
  s.onDev (fun d => d.kTryc core w)

/-- SYNC_RDC (R345). -/
def execSyncRdc (core : Nat) (w : BitVec 29) (s : State) : Result :=
  s.onDev (fun d => d.kRdc core w)

/-- SYNC_ADJC (R345). -/
def execSyncAdjc (core : Nat) (w : BitVec 29) (s : State) : Result :=
  s.onDev (fun d => d.kAdjc core w)

/-- SYNC_CLRC (R345). -/
def execSyncClrc (core : Nat) (w : BitVec 29) (s : State) : Result :=
  s.onDev (fun d => d.kClrc core w)

/-- SYNC_WAIT_RELEASE (R346). -/
def execSyncWaitRelease (core ctr : Nat) (s : State) : Result :=
  s.onDev (fun d => d.syncRelease core ctr)

/-- ISSUE_OP_COMPLETE (R348). -/
def execIssueOpComplete (core target : Nat) (s : State) : Result :=
  s.onDev (fun d => d.issueComplete core target)

/-- INTERRUPT_TAKE (R341). -/
def execInterruptTake (core : Nat) (s : State) : Result :=
  s.onDev (fun d => d.interrupt core)

/-- SAMPLING_INTERRUPT (R344). -/
def execSamplingInterrupt (core : Nat) (s : State) : Result :=
  s.onDev (fun d => d.sampling core)

/-- DEBUG_RESUME (R343). -/
def execDebugResume (core : Nat) (s : State) : Result :=
  s.onDev (fun d => d.debugResume core)

/-- STATE_DUMP (R354). -/
def execStateDump (port : Nat) (val : W32) (s : State) : Result :=
  s.onDev (fun d => d.stateDump port val)

/-- DEADLOCK_FIRE (R355). -/
def execDeadlockFire (s : State) : Result :=
  s.onDev (fun d => d.deadlock)

end Sys2Proof.Machine
end

