-- ==== Sys2Proof/Machine/ExecEmbed.lean ====
section
/-! DEFINITION. The meanings of the commands of the embedding service. -/

namespace Sys2Proof.Machine

/-- EMB_DOORBELL_WRITE (R147). -/
def execEmbDoorbellWrite (via : Via) (slot acc size : Nat) (val : W32) (poisoned : Bool) (s : State) : Result :=
  s.onDev (fun d => d.embDoorbell via slot acc size val poisoned)

/-- EMB_LOOKUP (R149). -/
def execEmbLookup (slot acc : Nat) (e : EmbDesc) (s : State) : Result :=
  s.onDev (fun d => d.embRun 1 slot acc e)

/-- EMB_UPDATE (R151). -/
def execEmbUpdate (slot acc : Nat) (e : EmbDesc) (s : State) : Result :=
  s.onDev (fun d => d.embRun 2 slot acc e)

/-- EMB_LOAD (R153). -/
def execEmbLoad (slot acc : Nat) (e : EmbDesc) (s : State) : Result :=
  s.onDev (fun d => d.embRun 3 slot acc e)

/-- EMB_READ (R153). -/
def execEmbRead (slot acc : Nat) (e : EmbDesc) (s : State) : Result :=
  s.onDev (fun d => d.embRun 4 slot acc e)

/-- EMB_REQ_RECEIVE (R149). -/
def execEmbReqReceive (m : CollMsg) (q : EmbPart) (s : State) : Result :=
  s.onDev (fun d => d.embReqReceive m q)

/-- EMB_RESP_RECEIVE (R149). -/
def execEmbRespReceive (m : CollMsg) (q : EmbPart) (s : State) : Result :=
  s.onDev (fun d => d.embRespReceive m q)

/-- EMB_UPD_RECEIVE (R151). -/
def execEmbUpdReceive (m : CollMsg) (q : EmbPart) (s : State) : Result :=
  s.onDev (fun d => d.embUpdReceive m q)

/-- EMB_COMPLETION (R147). -/
def execEmbCompletion (slot acc : Nat) (tag : BitVec 16) (s : State) : Result :=
  s.onDev (fun d => d.embComplete slot acc tag)

end Sys2Proof.Machine
end

