-- ==== Sys2Proof/Machine/ExecEndpoint.lean ====
section
/-! DEFINITION. The meanings of the commands of the PCIe endpoint and the slices. -/

namespace Sys2Proof.Machine

/-- HOT_RESET (R275). -/
def execHotReset (p : Nat) (pin : Bool) (s : State) : Result :=
  s.onDev (fun d => (d.hotReset p pin).cordCheck.powerKick)

/-- LINK_DOWN (R272). -/
def execLinkDown (p : Nat) (s : State) : Result :=
  s.onDev (fun d => (d.linkDown p).cordCheck.powerKick)

/-- FLR (R274). -/
def execFlr (p : Nat) (kind : FnKind) (s : State) : Result :=
  s.onDev (fun d => d.flr p kind)

/-- BME_CLEAR (R273). -/
def execBmeClear (p : Nat) (kind : FnKind) (s : State) : Result :=
  s.onDev (fun d => d.bmeClear p kind)

/-- BME_SET (R273). -/
def execBmeSet (p : Nat) (kind : FnKind) (s : State) : Result :=
  s.onDev (fun d => (d.bmeSet p kind).nvResume p kind)

/-- D3HOT_ENTRY (R252). -/
def execD3hotEntry (p : Nat) (kind : FnKind) (s : State) : Result :=
  s.onDev (fun d => d.d3Entry p kind)

/-- D3HOT_EXIT (R252). -/
def execD3hotExit (p : Nat) (kind : FnKind) (s : State) : Result :=
  s.onDev (fun d => (d.d3Exit p kind).nvResume p kind)

/-- PCIE_COMPLETION_RECEIVE (R268). -/
def execPcieCompletionReceive (p : Nat) (kind : FnKind) (tag : Nat) (st : CplStatus) (bytes : Nat) (poisoned : Bool) (s : State) : Result :=
  s.onDev (fun d => (d.pcieCompletion p kind tag st bytes poisoned).settleFences)

/-- COMPLETION_TIMEOUT (R267). -/
def execCompletionTimeout (p slot : Nat) (s : State) : Result :=
  s.onDev (fun d => (d.completionTimeout p slot).settleFences)

/-- QUARANTINE_END (R267). -/
def execQuarantineEnd (p slot : Nat) (s : State) : Result :=
  s.onDev (fun d => d.quarantineEnd p slot)

/-- ATS_INVALIDATION (R262). -/
def execAtsInvalidation (p : Nat) (kind : FnKind) (pasid : Option Nat) (page : Nat) (s : State) : Result :=
  s.onDev (fun d => d.atsInvalidate p kind pasid page)

/-- MALFORMED_TLP (R272). -/
def execMalformedTlp (p : Nat) (kind : FnKind) (e : TlpError) (s : State) : Result :=
  s.onDev (fun d => d.malformedTlp p kind e)

/-- SLICE_BIND (R277). -/
def execSliceBind (c : Cmd) (s : State) : Result :=
  s.onDev (fun d => d.command c 0x0201 [.m] (fun _ d => Dev.sliceBind c d))

/-- SLICE_QUOTA (R280). -/
def execSliceQuota (c : Cmd) (s : State) : Result :=
  s.onDev (fun d => d.command c 0x0202 [.m] (fun _ d => Dev.sliceQuota c d))

/-- SLICE_WINDOW (R279). -/
def execSliceWindow (c : Cmd) (s : State) : Result :=
  s.onDev (fun d => d.command c 0x0203 [.m] (fun _ d => Dev.sliceWindow c d))

/-- SLICE_QUIESCE (R282). -/
def execSliceQuiesce (c : Cmd) (s : State) : Result :=
  s.onDev (fun d => d.command c 0x0204 [.m] (fun o d => Dev.sliceQuiesce c o d))

/-- SLICE_QUIESCED (R282). -/
def execSliceQuiesced (slice : Nat) (s : State) : Result :=
  s.onDev (fun d => d.sliceQuiesced slice)

/-- QUIESCE_DEADLINE (R282). -/
def execQuiesceDeadline (slice : Nat) (s : State) : Result :=
  s.onDev (fun d => d.quiesceDeadline slice)

/-- SLICE_RESUME (R279). -/
def execSliceResume (c : Cmd) (s : State) : Result :=
  s.onDev (fun d => d.command c 0x0205 [.m] (fun _ d => Dev.sliceResume c d))

/-- SLICE_RESET (R278). -/
def execSliceReset (c : Cmd) (s : State) : Result :=
  s.onDev (fun d => d.command c 0x0206 [.m] (fun _ d => Dev.sliceReset c d))

/-- SLICE_UNBIND (R279). -/
def execSliceUnbind (c : Cmd) (s : State) : Result :=
  s.onDev (fun d => d.command c 0x0207 [.m] (fun _ d => Dev.sliceUnbind c d))

/-- PCIE_LINK_UP (R276). -/
def execPcieLinkUp (p speed width : Nat) (flit : Bool) (s : State) : Result :=
  s.onDev (fun d => ((d.pcieLinkUp p speed width flit).nvResume p .pf0).nvResume p .tenant)

/-- CONFIGURATION_WRITE (R265). -/
def execConfigurationWrite (p : Nat) (kind : FnKind) (w : CfgWrite) (s : State) : Result :=
  s.onDev (fun d => d.configWrite p kind w)

end Sys2Proof.Machine
end

