-- ==== Sys2Proof/Machine/ExecFault.lean ====
section
/-! DEFINITION. The meanings of the commands of faults, telemetry, clocks and lanes. -/

namespace Sys2Proof.Machine

/-- FAULT_EVENT (R431). -/
def execFaultEvent (src : Nat) (cls : FClass) (code unit count addr : Nat) (s : State) : Result :=
  s.onDev (fun d => (d.faultEvent src cls code unit count addr).cordCheck)

/-- FAULT_N_PULSE_END (R433). -/
def execFaultNPulseEnd (s : State) : Result :=
  s.onDev (fun d => d.pulseEnd)

/-- FLT_FORCE_WRITE (R432). -/
def execFltForceWrite (port : Nat) (mask : W64) (s : State) : Result :=
  s.onDev (fun d => (d.fltForce port mask).cordCheck)

/-- FLT_LOG_IDX_WRITE (R436). -/
def execFltLogIdxWrite (port : Nat) (pos : W32) (s : State) : Result :=
  s.onDev (fun d => d.logIdx port pos)

/-- TLY_SNAP_WRITE (R439). -/
def execTlySnapWrite (s : State) : Result :=
  s.onDev (fun d => d.snapshot)

/-- SNAPSHOT_DONE (R439). -/
def execSnapshotDone (s : State) : Result :=
  s.onDev (fun d => d.snapDone)

/-- TLY_POL_SEL_WRITE (R441). -/
def execTlyPolSelWrite (port : Nat) (val : W32) (s : State) : Result :=
  s.onDev (fun d => d.polSel port val)

/-- MCTP_DISCOVERY (R442). -/
def execMctpDiscovery (port : Nat) (answers : List (Nat × List Nat)) (s : State) : Result :=
  s.onDev (fun d => d.discovery port answers)

/-- SENSOR_POLL (R442). -/
def execSensorPoll (port ix : Nat) (s : State) : Result :=
  s.onDev (fun d => d.sensorPoll port ix)

/-- SENSOR_RESPONSE (R442). -/
def execSensorResponse (port ix id opState present dataSize unitMod baseUnit : Nat) (reading : W64) (s : State) : Result :=
  s.onDev (fun d => d.sensorResponse port ix id opState present dataSize unitMod baseUnit reading)

/-- SENSOR_POLL_TIMEOUT (R442). -/
def execSensorPollTimeout (port ix : Nat) (s : State) : Result :=
  s.onDev (fun d => d.pollTimeout port ix)

/-- PDR_CHANGE_EVENT (R442). -/
def execPdrChangeEvent (port ix : Nat) (sensors : List Nat) (s : State) : Result :=
  s.onDev (fun d => d.pdrChange port ix sensors)

/-- TELEMETRY_DATAGRAM (R443). -/
def execTelemetryDatagram (drop : Nat) (devSensor : Bool) (s : State) : Result :=
  s.onDev (fun d => d.telemetry drop devSensor)

/-- XCLK_A_LOSS (R452). -/
def execXclkALoss (s : State) : Result :=
  s.onDev (fun d => d.xclkALoss.cordCheck)

/-- XCLK_B_LOSS (R452). -/
def execXclkBLoss (s : State) : Result :=
  s.onDev (fun d => d.xclkBLoss.cordCheck.powerKick)

/-- LANE_MACRO_FAIL (R458). -/
def execLaneMacroFail (die : Die) (m : Nat) (s : State) : Result :=
  s.onDev (fun d => d.macroFail die m)

end Sys2Proof.Machine
end

