-- ==== Sys2Proof/Machine/ExecFirmware.lean ====
section
/-! DEFINITION. The meanings of the commands of firmware: command queues, lease, boot, images, sideband update. -/

namespace Sys2Proof.Machine

/-- NEGOTIATE (R376). -/
def execNegotiate (c : Cmd) (s : State) : Result :=
  s.onDev (fun d => d.command c 0x0001 [.m, .s, .b] (fun _ d => Dev.negotiate c d))

/-- IDENTIFY (R377). -/
def execIdentify (c : Cmd) (s : State) : Result :=
  s.onDev (fun d => d.command c 0x0002 [.m, .s, .b] (fun _ d => Dev.identify c d))

/-- POWER_STATE (R413). -/
def execPowerState (c : Cmd) (quick : Bool) (s : State) : Result :=
  s.onDev (fun d => (d.command c 0x0601 [.m, .b] (fun o d => Dev.powerState c quick o d)).powerOff)

/-- POWER_CAP (R421). -/
def execPowerCap (c : Cmd) (s : State) : Result :=
  s.onDev (fun d => d.command c 0x0602 [.m, .b] (fun _ d => Dev.powerCap c d))

/-- IMAGE_LOAD (R364). -/
def execImageLoad (c : Cmd) (img : Option FwImage) (s : State) : Result :=
  s.onDev (fun d => d.command c 0x0701 [.m, .b] (fun _ d => Dev.imageLoad c img d))

/-- IMAGE_ACTIVATE (R380). -/
def execImageActivate (c : Cmd) (s : State) : Result :=
  s.onDev (fun d => d.command c 0x0702 [.m, .b] (fun o d => Dev.imageActivate c o d))

/-- FLASH_COMMIT (R362). -/
def execFlashCommit (c : Cmd) (s : State) : Result :=
  s.onDev (fun d => d.command c 0x0703 [.m, .b] (fun o d => Dev.flashCommit c o d))

/-- CORE_RESTART (R379). -/
def execCoreRestart (c : Cmd) (s : State) : Result :=
  s.onDev (fun d => d.command c 0x0704 [.m] (fun _ d => Dev.coreRestart c d))

/-- SQ_TAIL_WRITE (R373). -/
def execSqTailWrite (via : Via) (val : W32) (fetches : List Fetch) (s : State) : Result :=
  s.onDev (fun d => d.sqTail via val fetches)

/-- CQ_HEAD_WRITE (R373). -/
def execCqHeadWrite (via : Via) (val : W32) (s : State) : Result :=
  s.onDev (fun d => d.cqHead via val)

/-- SQ_ENABLE_WRITE (R383). -/
def execSqEnableWrite (via : Via) (val : W32) (s : State) : Result :=
  s.onDev (fun d => d.sqEnable via val)

/-- MBOX_GO (R383). -/
def execMboxGo (port : Nat) (s : State) : Result :=
  s.onDev (fun d => d.mboxGo port)

/-- LEASE_RENEW (R368). -/
def execLeaseRenew (die : Die) (acks : List Die) (s : State) : Result :=
  s.onDev (fun d => d.leaseRenew die acks)

/-- LEASE_LOSS (R368). -/
def execLeaseLoss (die : Die) (s : State) : Result :=
  s.onDev (fun d => d.leaseLoss die)

/-- LEASE_CLAIM (R369). -/
def execLeaseClaim (die : Die) (seen : Bool) (s : State) : Result :=
  s.onDev (fun d => d.leaseClaim die seen)

/-- LEASE_CONFLICT_TIMEOUT (R370). -/
def execLeaseConflictTimeout (s : State) : Result :=
  s.onDev (fun d => d.leaseConflict.cordCheck)

/-- SRAM_TEST_STAGE (R176). -/
def execSramTestStage (res : List (Nat × Nat)) (s : State) : Result :=
  s.onDev (fun d => (d.sramTest res).cordCheck)

/-- IMAGE_READ_STAGE (R361). -/
def execImageReadStage (flash : Option (Option CfgImage × Option CfgImage)) (s : State) : Result :=
  s.onDev (fun d => d.imageRead flash)

/-- VERIFY_STAGE (R360). -/
def execVerifyStage (s : State) : Result :=
  s.onDev (fun d => d.verifyStage)

/-- APPLY_STAGE (R365). -/
def execApplyStage (full : List (Nat × Nat)) (badMacros : List Nat) (idMatch : Bool) (s : State) : Result :=
  s.onDev (fun d => d.applyStage full badMacros idMatch)

/-- WATCHDOG_EXPIRY (R378). -/
def execWatchdogExpiry (core : Nat) (s : State) : Result :=
  s.onDev (fun d => (d.watchdog core).cordCheck)

/-- CORE_RESUME (R378). -/
def execCoreResume (core : Nat) (saved : Option Core) (s : State) : Result :=
  s.onDev (fun d => d.coreResume core saved)

/-- HANDOFF_SAVE_POINT (R380). -/
def execHandoffSavePoint (core : Nat) (blockOk : Bool) (s : State) : Result :=
  s.onDev (fun d => d.handoff core blockOk)

/-- ACTIVATION_ABANDON (R381). -/
def execActivationAbandon (kind : Nat) (s : State) : Result :=
  s.onDev (fun d => d.activationAbandon kind)

/-- PLDM_REQUEST_UPDATE (R374). -/
def execPldmRequestUpdate (s : State) : Result :=
  s.onDev (fun d => d.pldmRun (fun d => d.pldmRequest))

/-- PLDM_PASS_COMPONENT_TABLE (R374). -/
def execPldmPassComponentTable (comps : List Nat) (s : State) : Result :=
  s.onDev (fun d => d.pldmRun (fun d => d.pldmTable comps))

/-- PLDM_UPDATE_COMPONENT (R374). -/
def execPldmUpdateComponent (component : Nat) (s : State) : Result :=
  s.onDev (fun d => d.pldmRun (fun d => d.pldmUpdate component))

/-- PLDM_FIRMWARE_DATA (R374). -/
def execPldmFirmwareData (img : FwImage) (s : State) : Result :=
  s.onDev (fun d => d.pldmRun (fun d => d.pldmData img))

/-- PLDM_ACTIVATE_FIRMWARE (R374). -/
def execPldmActivateFirmware (s : State) : Result :=
  s.onDev (fun d => d.pldmRun (fun d => d.pldmActivate))

/-- PLDM_GET_STATUS (R374). -/
def execPldmGetStatus (s : State) : Result :=
  s.onDev (fun d => d.pldmRun (fun d => d.pldmStatus))

/-- FLASH_WRITE_DONE (R362). -/
def execFlashWriteDone (ok : Bool) (left : Option CfgImage) (s : State) : Result :=
  s.onDev (fun d => d.flashDone ok left)

end Sys2Proof.Machine
end

