-- ==== Sys2Proof/Machine/ExecHost.lean ====
section
/-! DEFINITION. The meanings of the commands of register accesses of host software. -/

namespace Sys2Proof.Machine

/-- REG_WRITE (R11). -/
def execRegWrite (via : Via) (off : Nat) (size : Nat) (val : W64) (poisoned : Bool) (s : State) : Result :=
  s.onDev (fun d => d.regWrite via off size val poisoned)

/-- LOW_WORD_WRITE (R9). -/
def execLowWordWrite (via : Via) (off : Nat) (val : W32) (s : State) : Result :=
  s.onDev (fun d => d.lowWordWrite via off val)

/-- HIGH_WORD_WRITE (R9). -/
def execHighWordWrite (via : Via) (off : Nat) (val : W32) (s : State) : Result :=
  s.onDev (fun d => d.highWordWrite via off val)

/-- LOW_WORD_READ (R8). -/
def execLowWordRead (via : Via) (off : Nat) (s : State) : Result :=
  s.onDev (fun d => d.hostRead via off 4)

/-- READ_CLEAR (R11). -/
def execReadClear (via : Via) (off size : Nat) (s : State) : Result :=
  s.onDev (fun d => d.hostRead via off size)

/-- ACCESS_8B (R254). -/
def execAccess8b (via : Via) (off : Nat) (write : Option W64) (s : State) : Result :=
  s.onDev (fun d => d.access8 via off write)

/-- LOCK_SET (R13). -/
def execLockSet (via : Via) (off : Nat) (val : W32) (s : State) : Result :=
  s.onDev (fun d => d.lockSet via off val)

end Sys2Proof.Machine
end

