-- ==== Sys2Proof/Machine/ExecLinks.lean ====
section
/-! DEFINITION. The meanings of the commands of the die-to-die links. -/

namespace Sys2Proof.Machine

/-- UCIE_LANE_REPAIR (R26). -/
def execUcieLaneRepair (link : Nat) (s : State) : Result :=
  s.onDev (fun d => d.laneRepair link)

/-- UCIE_LINK_RETRAIN (R26). -/
def execUcieLinkRetrain (link : Nat) (ok : Bool) (s : State) : Result :=
  s.onDev (fun d => (d.linkRetrain link ok).cordCheck)

/-- UCIE_LINK_FAIL (R26). -/
def execUcieLinkFail (link : Nat) (s : State) : Result :=
  s.onDev (fun d => (d.linkFail link).cordCheck)

/-- REROUTE_RELEASE (R27). -/
def execRerouteRelease (link : Nat) (s : State) : Result :=
  s.onDev (fun d => d.rerouteRelease link)

end Sys2Proof.Machine
end

