-- ==== Sys2Proof/Machine/ExecMem.lean ====
section
/-! DEFINITION. The meanings of the commands of the memories: errors, sparing, zeroing, spill. -/

namespace Sys2Proof.Machine

/-- ECC_CORRECTED (R169). -/
def execEccCorrected (u : MemUnit) (row addr : Nat) (s : State) : Result :=
  s.onDev (fun d => (d.eccCorrected u row addr false).cordCheck)

/-- ECC_UNCORRECTED (R169). -/
def execEccUncorrected (u : MemUnit) (row addr : Nat) (s : State) : Result :=
  s.onDev (fun d => (d.eccUncorrected u row addr false).cordCheck)

/-- SCRUB_READ (R170). -/
def execScrubRead (u : MemUnit) (row addr : Nat) (r : ScrubResult) (passEnd : Bool) (s : State) : Result :=
  s.onDev (fun d => (d.scrubRead u row addr r passEnd).cordCheck)

/-- ROW_COPY_DONE (R171). -/
def execRowCopyDone (ch row : Nat) (s : State) : Result :=
  s.onDev (fun d => d.rowCopyDone ch row)

/-- MEM_SPARE_START_WRITE (R173). -/
def execMemSpareStartWrite (val : W32) (s : State) : Result :=
  s.onDev (fun d => d.memSpareWrite val)

/-- SPARE_CHUNK_COPY (R174). -/
def execSpareChunkCopy (s : State) : Result :=
  s.onDev (fun d => d.spareChunkCopy)

/-- PAGE_ZEROED (R167). -/
def execPageZeroed (s : State) : Result :=
  s.onDev (fun d => d.pageZeroed)

/-- The work of a command that waited for the zeroing. -/
def Dev.runHeld (d : Dev) (w : ZeroWait) : Reply :=
  match w.work with
  | .plan img sigOk => Dev.planAdmit w.cmd img sigOk w.own d
  | .region => Dev.mrReg w.cmd d
  | .attach desc x => Dev.volAttach w.cmd desc x d

/-- The commands that waited for the zeroing run in their order, each with its completion (R104, R167). -/
def Dev.runWaiting (d : Dev) : Dev :=
  d.mill.waiting.foldl (fun d w =>
    let r := d.runHeld w
    r.dev.finish w.own r.status r.reason r.result) { d with mill := { d.mill with waiting := [], admitBusy := false } }

/-- POOL_ZERO_DONE (R167). -/
def execPoolZeroDone (s : State) : Result :=
  s.onDev (fun d => if d.flag F.MEM_STATUS_ZERO_BUSY 0 then d.poolZeroDone.runWaiting else d)

/-- SPILL_WINDOW_WRITE (R178). -/
def execSpillWindowWrite (port reg : Nat) (val : W64) (s : State) : Result :=
  s.onDev (fun d => d.spillWrite port reg val (d.spillUsed (d.fld F.MEM_SLICE_SEL_SLICE port)))

/-- SPILL_BLOCK_READ_DONE (R179). -/
def execSpillBlockReadDone (slot block : Nat) (bytes : List Byte) (lost : List Bool) (s : State) : Result :=
  s.onDev (fun d => d.spillRead slot block bytes lost)

end Sys2Proof.Machine
end

