-- ==== Sys2Proof/Machine/ExecPath.lean ====
section
/-! DEFINITION. The meanings of the commands of the packet path and the Ethernet ports. -/

namespace Sys2Proof.Machine

/-- FRAME_RECEIVE (R222). -/
def execFrameReceive (port : Nat) (f : Frame) (s : State) : Result :=
  s.onDev (fun d => d.frameReceive port f)

/-- FRAG_ENTRY_TIMEOUT (R230). -/
def execFragEntryTimeout (die : Die) (ix : Nat) (s : State) : Result :=
  s.onDev (fun d => d.fragTimeout die ix)

/-- FRAME_TRANSMIT (R243). -/
def execFrameTransmit (port : Nat) (e : BoomEcc) (s : State) : Result :=
  s.onDev (fun d => (d.frameTransmit port e).settleMoves)

/-- CALENDAR_SLOT (R242). -/
def execCalendarSlot (die : Die) (s : State) : Result :=
  s.onDev (fun d => d.calendarSlot die)

/-- BOM_QUEUE_FLUSH (R238). -/
def execBomQueueFlush (die : Die) (q : Nat) (s : State) : Result :=
  s.onDev (fun d => (d.boomFlush die q).settleMoves)

/-- CELL_SWEEP (R239). -/
def execCellSweep (die : Die) (s : State) : Result :=
  s.onDev (fun d => d.cellSweep die)

/-- BKR_TBL_DATA_WRITE (R226). -/
def execBkrTblDataWrite (port : Nat) (val : W32) (s : State) : Result :=
  s.onDev (fun d => d.tblWrite port val)

/-- BKR_TBL_DATA_READ (R226). -/
def execBkrTblDataRead (port : Nat) (s : State) : Result :=
  s.onDev (fun d => d.tblRead port)

/-- BKR_HASH_SEED_WRITE (R228). -/
def execBkrHashSeedWrite (k : Nat) (val : W32) (s : State) : Result :=
  s.onDev (fun d => d.seedWrite k val)

/-- FLU_POL_CFG_WRITE (R246). -/
def execFluPolCfgWrite (port : Nat) (val : W32) (s : State) : Result :=
  s.onDev (fun d => d.polCommit port val)

/-- QUEUE_SAMPLE_PERIOD (R247). -/
def execQueueSamplePeriod (port : Nat) (s : State) : Result :=
  s.onDev (fun d => d.queueSample port)

/-- ETH_LINK_UP (R416). -/
def execEthLinkUp (port : Nat) (s : State) : Result :=
  s.onDev (fun d => d.ethUp port)

end Sys2Proof.Machine
end

