-- ==== Sys2Proof/Machine/ExecPlans.lean ====
section
/-! DEFINITION. The meanings of the commands of plans: admission, start, stop and retirement. -/

namespace Sys2Proof.Machine

/-- PLAN_ADMIT (R105). -/
def execPlanAdmit (c : Cmd) (img : Option (List Byte)) (sigOk : Bool) (s : State) : Result :=
  s.onDev (fun d => d.command c 0x0101 [.m] (fun o d => d.afterZero o c (.plan img sigOk) (Dev.planAdmit c img sigOk o)))

/-- PLAN_START (R159). -/
def execPlanStart (c : Cmd) (init : List (List W32)) (s : State) : Result :=
  s.onDev (fun d => d.afterStart c (d.command c 0x0102 [.m] (fun o d => Dev.planStart c init o d)))

/-- PLAN_STOP (R111). -/
def execPlanStop (c : Cmd) (s : State) : Result :=
  s.onDev (fun d => d.command c 0x0103 [.m] (fun o d => Dev.planStop c o d))

/-- PLAN_RETIRE (R110). -/
def execPlanRetire (c : Cmd) (s : State) : Result :=
  s.onDev (fun d => d.command c 0x0104 [.m] (fun o d => Dev.planRetire c o d))

/-- PLAN_EF_RESET (R92). -/
def execPlanEfReset (c : Cmd) (s : State) : Result :=
  s.onDev (fun d => d.command c 0x0105 [.m] (fun _ d => Dev.planEfReset c d))

/-- PLAN_HYPER (R137). -/
def execPlanHyper (c : Cmd) (s : State) : Result :=
  s.onDev (fun d => d.command c 0x0106 [.m] (fun _ d => Dev.planHyper c d))

/-- PLAN_STATUS (R158). -/
def execPlanStatus (c : Cmd) (s : State) : Result :=
  s.onDev (fun d => d.command c 0x0107 [.m] (fun o d => Dev.planStatus c o d))

/-- MIL_EVT_CLR_WRITE (R115). -/
def execMilEvtClrWrite (port : Nat) (val : W32) (s : State) : Result :=
  s.onDev (fun d => d.evtClr port val)

/-- UNIT_OUT_OF_SERVICE (R113). -/
def execUnitOutOfService (n : Nat) (s : State) : Result :=
  s.onDev (fun d => d.unitOut n)

end Sys2Proof.Machine
end

