-- ==== Sys2Proof/Machine/ExecPowerReset.lean ====
section
/-! DEFINITION. The meanings of the commands of power states, clamps, trips and resets. -/

namespace Sys2Proof.Machine

/-- POWER_TRANSITION_DONE (R414). -/
def execPowerTransitionDone (s : State) : Result :=
  s.onDev (fun d => d.moveDone)

/-- W2_STOP_TIMEOUT (R414). -/
def execW2StopTimeout (s : State) : Result :=
  s.onDev (fun d => d.w2Timeout)

/-- SUPPLY_DIP_START (R418). -/
def execSupplyDipStart (s : State) : Result :=
  s.onDev (fun d => d.dipStart)

/-- SUPPLY_DIP_END (R418). -/
def execSupplyDipEnd (s : State) : Result :=
  s.onDev (fun d => d.dipEnd)

/-- DIP_CLAMP_RELEASE (R418). -/
def execDipClampRelease (s : State) : Result :=
  s.onDev (fun d => d.dipRelease.emergencyEnd)

/-- THERMAL_CLAMP_SET (R419). -/
def execThermalClampSet (s : State) : Result :=
  s.onDev (fun d => d.clampSet F.PWR_STATUS_THERM_CLAMP)

/-- THERMAL_CLAMP_RELEASE (R419). -/
def execThermalClampRelease (s : State) : Result :=
  s.onDev (fun d => (d.clampRelease F.PWR_STATUS_THERM_CLAMP).emergencyEnd)

/-- POWER_CLAMP_SET (R419). -/
def execPowerClampSet (s : State) : Result :=
  s.onDev (fun d => d.clampSet F.PWR_STATUS_POWER_CLAMP)

/-- POWER_CLAMP_RELEASE (R419). -/
def execPowerClampRelease (s : State) : Result :=
  s.onDev (fun d => (d.clampRelease F.PWR_STATUS_POWER_CLAMP).emergencyEnd)

/-- UV_RESET_TRIP (R420). -/
def execUvResetTrip (s : State) : Result :=
  s.onDev (fun d => d.tripOff 1)

/-- OV_TRIP (R420). -/
def execOvTrip (s : State) : Result :=
  s.onDev (fun d => d.tripOff 2)

/-- THERMAL_TRIP (R420). -/
def execThermalTrip (s : State) : Result :=
  s.onDev (fun d => d.tripOff 3)

/-- TRIP_RESTART (R420). -/
def execTripRestart (s : State) : Result :=
  s.onDev (fun d => d.tripRestart)

/-- RANGER_LOOP (R421). -/
def execRangerLoop (volt cur power : Nat) (temps : List Nat) (mclk : List (Nat × Nat)) (overCap : Bool) (s : State) : Result :=
  s.onDev (fun d => (d.rangerLoop volt cur power temps mclk overCap).emergencyEnd)

/-- POWER_ON (R426). -/
def execPowerOn (s : State) : Result :=
  s.onDev (fun d => d.powerOn)

/-- COLD_RESET (R454). -/
def execColdReset (low xclkA xclkB restart : Bool) (s : State) : Result :=
  s.onDev (fun d => d.coldReset low xclkA xclkB restart)

/-- WARM_RESET (R454). -/
def execWarmReset (low : Bool) (s : State) : Result :=
  s.onDev (fun d => d.warmReset low)

end Sys2Proof.Machine
end

