-- ==== Sys2Proof/Machine/Cipher.lean ====
section
/-! DEFINITION. Cipher requests (13_bark_security R404 to R406, Tables 13.4 and 13.6). -/

namespace Sys2Proof.Machine

/-- Bytes that the die's engine reads at a fabric address, and whether any of them is poisoned; none where Table
5.2 maps nothing. What stands behind PCIe or in the structures of the I/O-die SRAM is free (DESIGN CHOICE, log 4). -/
def Dev.engineRead (d : Dev) (die : Die) (addr len : Nat) : Option ((List Byte × Bool) × Dev) :=
  if len = 0 then some (([], false), d)
  else match d.decode (some die) addr with
  | .unmapped => none
  | .pcie port a =>
    let f := d.freshBytes len
    some ((f.1, false), f.2.readOwn port .buffer a len)
  | .ioSram _ _ =>
    let f := d.freshBytes len
    some ((f.1, d.mem.poisoned addr len), f.2)
  | t => if d.targetStopped t then none else some ((d.mem.read addr len, d.mem.poisoned addr len), d)

/-- Bytes that the die's engine writes at a fabric address (DEDUCED, log 44). -/
def Dev.engineWrite (d : Dev) (die : Die) (addr : Nat) (bs : List Byte) (poison : Bool) : Option Dev :=
  if bs.isEmpty then some d
  else match d.decode (some die) addr with
  | .unmapped => none
  | .pcie port a => some (d.dma ⟨port, .pf0, none, none, a, bs, if poison then (granulesOf a bs.length).map (fun _ => true) else [], false⟩)
  | t => if d.targetStopped t then none else some (d.memWrite addr bs poison)

/-- The fields of a request that Table 13.6 bounds. -/
def cipherOk (op : Nat) (r : CipherReq) : Bool :=
  r.version == 0x0100 && r.slot < 4096 && r.doneCtr < 48 && r.aadLen ≤ 8192 &&
  (if op = 3 ∨ op = 4 then r.len == 4096 && r.aadLen == 0 else r.len ≤ 65536)

/-- A request ends: its result, and the signal of DONE_EN (R405). -/
def Dev.cipherEnd (d : Dev) (die : Die) (op : Nat) (r : CipherReq) (status ctr : Nat) : Dev :=
  let d := d.emit (.cipher die op status ctr)
  if r.doneEn ∧ (d.core r.doneCore).state ≠ .off then d.signalFrom (.io die) r.doneCore r.doneCtr else d

/-- A request whose two pipelines disagreed twice (R406): CIPHER_FAULT and a contained fault; the eighth on one die
within 1 s is fatal. -/
def Dev.cipherFault (d : Dev) (die : Die) (op : Nat) (r : CipherReq) (ctr : Nat) : Dev :=
  let recent := (d.bark.cipherFaults.filter (fun e => d.clk < e.2 + sTicks 1)) ++ [(die.num, d.clk)]
  let d := { d with bark := { d.bark with cipherFaults := recent } }
  let cls : FClass := if (recent.filter (fun e => e.1 = die.num)).length ≥ 8 then .fatal else .contained
  (d.faultOpen (12 + die.num) cls r.slot 0).cipherEnd die op r stCipherFault ctr

/-- What an operation makes of additional data, payload and tag under a slot: the counter value, the output, and the
slot afterwards; or the status that refuses it. -/
def cipherRun (op : Nat) (k : KeySlot) (die : Die) (r : CipherReq) (aad body tag : List Byte) :
    Nat ⊕ (Nat × List Byte × KeySlot) :=
  match op with
  | 2 => match gcmOpen k.bytes r.iv aad body tag with
    | some pt => .inr (0, pt, k)
    | none => .inl stAuthFail
  | 3 => .inr (0, xts true k.bytes r.tweak.toNat body, k)
  | 4 => .inr (0, xts false k.bytes r.tweak.toNat body, k)
  | _ => match k.take die with
    | none => .inl stExhausted
    | some (v, k') =>
      let s := gcmSeal k.bytes (nonce k.salt v) (if op = 5 then aad ++ body else aad) (if op = 5 then [] else body)
      .inr (v, s.1 ++ s.2, k')

/-- A cipher request: 1 SEAL, 2 OPEN, 3 XTS_ENC, 4 XTS_DEC, 5 GMAC (DESIGN CHOICE, log 44). -/
def Dev.cipher (d : Dev) (op : Nat) (die : Die) (r : CipherReq) : Dev :=
  match d.key r.slot with
  | none => d.cipherEnd die op r stRefused 0
  | some k =>
    if !cipherOk op r ∨ !useAllows k.use op ∨ (k.state ≠ .loaded ∧ k.state ≠ .locked) then d.cipherEnd die op r stRefused 0
    else match d.engineRead die r.src (r.aadLen + r.len + (if op = 2 then 16 else 0)) with
    | none => (d.count itUnmapped).cipherEnd die op r stDmaFault 0
    | some x =>
      let bs := x.1.1
      let d := if r.mismatch = 0 then x.2 else x.2.bumpFld (F.BRK_DIE_ERR_MISMATCH die.num) 0 1
      match cipherRun op k die r (bs.take r.aadLen) ((bs.drop r.aadLen).take r.len) (bs.drop (r.aadLen + r.len)) with
      | .inl st =>
        if r.mismatch ≥ 2 ∧ st = stAuthFail then d.cipherFault die op r 0
        else (if st = stAuthFail then d.bumpFld (F.BRK_DIE_ERR_AUTH_FAIL die.num) 0 1 else d).cipherEnd die op r st 0
      | .inr (v, out, k') =>
        let d := if op = 1 then (d.putKey r.slot k').rekey r.slot else d.putKey r.slot k'
        if r.mismatch ≥ 2 then d.cipherFault die op r v
        else match d.engineWrite die r.dst out x.1.2 with
        | some d => d.cipherEnd die op r stOk v
        | none => (d.count itUnmapped).cipherEnd die op r stDmaFault v

end Sys2Proof.Machine
end

