-- ==== Sys2Proof/Machine/ExecSecurity.lean ====
section
/-! DEFINITION. The meanings of the commands of Bark: keys, sessions, cipher requests. -/

namespace Sys2Proof.Machine

/-- KEY_SLOT_ALLOC (R408). -/
def execKeySlotAlloc (c : Cmd) (s : State) : Result :=
  s.onDev (fun d => d.command c 0x0801 [.m, .s] (fun _ d => Dev.keyAlloc c d))

/-- KEY_SLOT_LOAD (R397). -/
def execKeySlotLoad (c : Cmd) (blob : Option KeyBlob) (s : State) : Result :=
  s.onDev (fun d => d.command c 0x0802 [.m, .s] (fun _ d => Dev.keyLoad c blob d))

/-- KEY_SLOT_ERASE (R408). -/
def execKeySlotErase (c : Cmd) (s : State) : Result :=
  s.onDev (fun d => d.command c 0x0803 [.m, .s] (fun _ d => Dev.keyErase c d))

/-- KEY_SLOT_QUERY (R408). -/
def execKeySlotQuery (c : Cmd) (s : State) : Result :=
  s.onDev (fun d => d.command c 0x0804 [.m, .s] (fun _ d => Dev.keyQuery c d))

/-- SESSION_OPEN (R399). -/
def execSessionOpen (c : Cmd) (s : State) : Result :=
  s.onDev (fun d => d.command c 0x0805 [.m, .s] (fun o d => Dev.sessionOpen c o d))

/-- SESSION_CLOSE (R408). -/
def execSessionClose (c : Cmd) (s : State) : Result :=
  s.onDev (fun d => d.command c 0x0806 [.m, .s] (fun _ d => Dev.sessionClose c d))

/-- SPDM_GET_VERSION (R390). -/
def execSpdmGetVersion (via : SpdmVia) (s : State) : Result :=
  s.onDev (fun d => d.viaRun via (fun d => d.spdmVersion via))

/-- SPDM_GET_CAPABILITIES (R390). -/
def execSpdmGetCapabilities (via : SpdmVia) (version : Nat) (s : State) : Result :=
  s.onDev (fun d => d.viaRun via (fun d => d.spdmCapabilities via version))

/-- SPDM_NEGOTIATE_ALGORITHMS (R390). -/
def execSpdmNegotiateAlgorithms (via : SpdmVia) (supported : Bool) (s : State) : Result :=
  s.onDev (fun d => d.viaRun via (fun d => d.spdmAlgorithms via supported))

/-- SPDM_GET_DIGESTS (R390). -/
def execSpdmGetDigests (via : SpdmVia) (s : State) : Result :=
  s.onDev (fun d => d.viaRun via (fun d => d.spdmDigests via))

/-- SPDM_GET_CERTIFICATE (R390). -/
def execSpdmGetCertificate (via : SpdmVia) (slot offset len : Nat) (s : State) : Result :=
  s.onDev (fun d => d.viaRun via (fun d => d.spdmCertificate via slot offset len))

/-- SPDM_CHALLENGE (R390). -/
def execSpdmChallenge (via : SpdmVia) (slot : Nat) (nonce : BitVec 256) (s : State) : Result :=
  s.onDev (fun d => d.viaRun via (fun d => d.spdmChallenge via slot nonce))

/-- SPDM_GET_MEASUREMENTS (R391). -/
def execSpdmGetMeasurements (via : SpdmVia) (index : Nat) (signed : Bool) (nonce : BitVec 256) (s : State) : Result :=
  s.onDev (fun d => d.viaRun via (fun d => d.spdmMeasurements via index signed nonce))

/-- SPDM_KEY_EXCHANGE (R399). -/
def execSpdmKeyExchange (via : SpdmVia) (s : State) : Result :=
  s.onDev (fun d => d.viaRun via (fun d => d.spdmKeyExchange via))

/-- SPDM_FINISH (R400). -/
def execSpdmFinish (via : SpdmVia) (chk : PeerCheck) (s : State) : Result :=
  s.onDev (fun d => d.viaRun via (fun d => d.afterShake ((viaPeer via).bind d.pendingOf) (d.spdmFinish via chk)))

/-- SPDM_END_SESSION (R410). -/
def execSpdmEndSession (via : SpdmVia) (id : Nat) (s : State) : Result :=
  s.onDev (fun d => d.viaRun via (fun d => d.spdmEnd via id))

/-- SPDM_HEARTBEAT (R390). -/
def execSpdmHeartbeat (via : SpdmVia) (id : Nat) (s : State) : Result :=
  s.onDev (fun d => d.viaRun via (fun d => d.spdmHeartbeat via id))

/-- SPDM_VENDOR_DEFINED (R399). -/
def execSpdmVendorDefined (via : SpdmVia) (vendor : Nat) (slice : Option Nat) (planDigest : BitVec 256) (versions : List (BitVec 16)) (qpn : Nat) (s : State) : Result :=
  s.onDev (fun d => d.viaRun via (fun d => d.spdmVendor via vendor slice planDigest versions qpn))

/-- SPDM_RESPONSE_RECEIVE (R399). -/
def execSpdmResponseReceive (id : Nat) (resp : SpdmResp) (s : State) : Result :=
  s.onDev (fun d => d.afterShake (some id) (d.spdmResponse id resp))

/-- SESSION_HANDSHAKE_TIMEOUT (R408). -/
def execSessionHandshakeTimeout (id : Nat) (s : State) : Result :=
  s.onDev (fun d => d.afterShake (some id) (d.sessionTimeout id))

/-- CIPHER_SEAL (R405). -/
def execCipherSeal (die : Die) (r : CipherReq) (s : State) : Result :=
  s.onDev (fun d => (d.cipher 1 die r).cordCheck)

/-- CIPHER_OPEN (R405). -/
def execCipherOpen (die : Die) (r : CipherReq) (s : State) : Result :=
  s.onDev (fun d => (d.cipher 2 die r).cordCheck)

/-- CIPHER_XTS_ENC (R405). -/
def execCipherXtsEnc (die : Die) (r : CipherReq) (s : State) : Result :=
  s.onDev (fun d => (d.cipher 3 die r).cordCheck)

/-- CIPHER_XTS_DEC (R405). -/
def execCipherXtsDec (die : Die) (r : CipherReq) (s : State) : Result :=
  s.onDev (fun d => (d.cipher 4 die r).cordCheck)

/-- CIPHER_GMAC (R405). -/
def execCipherGmac (die : Die) (r : CipherReq) (s : State) : Result :=
  s.onDev (fun d => (d.cipher 5 die r).cordCheck)

/-- OLD_SESSION_EXPIRY (R402). -/
def execOldSessionExpiry (id : Nat) (s : State) : Result :=
  s.onDev (fun d => d.oldExpiry id)

/-- RESEAL_DONE (R395). -/
def execResealDone (n : Nat) (s : State) : Result :=
  s.onDev (fun d => d.resealDone n)

/-- ENTROPY_FAIL (R407). -/
def execEntropyFail (die : Die) (s : State) : Result :=
  s.onDev (fun d => d.entropyFail die)

/-- BRK_SLICE_SLOTS_WRITE (R411). -/
def execBrkSliceSlotsWrite (port : Nat) (val : W32) (s : State) : Result :=
  s.onDev (fun d => d.sliceSlotsWrite port val)

end Sys2Proof.Machine
end

