-- ==== Sys2Proof/Machine/ExecSkid.lean ====
section
/-! DEFINITION. The meanings of the commands of the transport: queue pairs, doorbells, packets, timers. -/

namespace Sys2Proof.Machine

/-- QP_CREATE (R190). -/
def execQpCreate (c : Cmd) (tpl : Option (List Byte)) (s : State) : Result :=
  s.onDev (fun d => d.command c 0x0301 [.m, .s] (fun _ d => Dev.qpCreate c tpl d))

/-- QP_MODIFY (R184). -/
def execQpModify (c : Cmd) (tpl : Option (List Byte)) (fetched : Option CtxFetch) (s : State) : Result :=
  s.onDev (fun d => d.command c 0x0302 [.m, .s] (fun _ d => Dev.qpModify c tpl fetched d))

/-- QP_QUERY (R281). -/
def execQpQuery (c : Cmd) (s : State) : Result :=
  s.onDev (fun d => d.command c 0x0303 [.m, .s] (fun o d => Dev.qpQuery c o d))

/-- QP_DESTROY (R193). -/
def execQpDestroy (c : Cmd) (fetched : Option CtxFetch) (s : State) : Result :=
  s.onDev (fun d => d.command c 0x0304 [.m, .s] (fun _ d => Dev.qpDestroy c fetched d))

/-- CQ_CREATE (R208). -/
def execCqCreate (c : Cmd) (s : State) : Result :=
  s.onDev (fun d => d.command c 0x0305 [.m, .s] (fun _ d => Dev.cqCreate c d))

/-- CQ_DESTROY (R377). -/
def execCqDestroy (c : Cmd) (s : State) : Result :=
  s.onDev (fun d => d.command c 0x0306 [.m, .s] (fun _ d => Dev.cqDestroy c d))

/-- MR_REG (R187). -/
def execMrReg (c : Cmd) (s : State) : Result :=
  s.onDev (fun d => d.command c 0x0307 [.m, .s] (fun o d => d.afterZero o c .region (Dev.mrReg c)))

/-- MR_DEREG (R377). -/
def execMrDereg (c : Cmd) (s : State) : Result :=
  s.onDev (fun d => d.command c 0x0308 [.m, .s] (fun _ d => Dev.mrDereg c d))

/-- AH_CREATE (R377). -/
def execAhCreate (c : Cmd) (ah : Option (List Byte)) (s : State) : Result :=
  s.onDev (fun d => d.command c 0x0309 [.m, .s] (fun _ d => Dev.ahCreate c ah d))

/-- AH_DESTROY (R377). -/
def execAhDestroy (c : Cmd) (s : State) : Result :=
  s.onDev (fun d => d.command c 0x030A [.m, .s] (fun _ d => Dev.ahDestroy c d))

/-- QP_DOORBELL_WRITE (R256). -/
def execQpDoorbellWrite (via : Via) (size : Nat) (val : W64) (poisoned : Bool) (rqes : List Rqe) (s : State) : Result :=
  s.onDev (fun d => d.qpBell via size val poisoned rqes)

/-- CQ_DOORBELL_WRITE (R256). -/
def execCqDoorbellWrite (via : Via) (size : Nat) (val : W64) (poisoned : Bool) (s : State) : Result :=
  s.onDev (fun d => d.cqBell via size val poisoned)

/-- WQE_SEND (R205). -/
def execWqeSend (qpn : Nat) (w : Wqe) (src : SrcData) (s : State) : Result :=
  s.onDev (fun d => d.wqe qpn 0x00 w src)

/-- WQE_SEND_IMM (R205). -/
def execWqeSendImm (qpn : Nat) (w : Wqe) (src : SrcData) (s : State) : Result :=
  s.onDev (fun d => d.wqe qpn 0x01 w src)

/-- WQE_WRITE (R205). -/
def execWqeWrite (qpn : Nat) (w : Wqe) (src : SrcData) (s : State) : Result :=
  s.onDev (fun d => d.wqe qpn 0x08 w src)

/-- WQE_WRITE_IMM (R205). -/
def execWqeWriteImm (qpn : Nat) (w : Wqe) (src : SrcData) (s : State) : Result :=
  s.onDev (fun d => d.wqe qpn 0x09 w src)

/-- WQE_READ (R205). -/
def execWqeRead (qpn : Nat) (w : Wqe) (src : SrcData) (s : State) : Result :=
  s.onDev (fun d => d.wqe qpn 0x10 w src)

/-- WQE_CMP_SWAP (R205). -/
def execWqeCmpSwap (qpn : Nat) (w : Wqe) (src : SrcData) (s : State) : Result :=
  s.onDev (fun d => d.wqe qpn 0x18 w src)

/-- WQE_FETCH_ADD (R205). -/
def execWqeFetchAdd (qpn : Nat) (w : Wqe) (src : SrcData) (s : State) : Result :=
  s.onDev (fun d => d.wqe qpn 0x19 w src)

/-- WQE_ATOMIC_WRITE (R205). -/
def execWqeAtomicWrite (qpn : Nat) (w : Wqe) (src : SrcData) (s : State) : Result :=
  s.onDev (fun d => d.wqe qpn 0x1A w src)

/-- WQE_FLUSH (R206). -/
def execWqeFlush (qpn : Nat) (w : Wqe) (src : SrcData) (s : State) : Result :=
  s.onDev (fun d => d.wqe qpn 0x20 w src)

/-- WQE_WAIT (R210). -/
def execWqeWait (qpn : Nat) (w : Wqe) (src : SrcData) (s : State) : Result :=
  s.onDev (fun d => d.wqe qpn 0x30 w src)

/-- WQE_NOP (R205). -/
def execWqeNop (qpn : Nat) (w : Wqe) (src : SrcData) (s : State) : Result :=
  s.onDev (fun d => d.wqe qpn 0x31 w src)

/-- WQE_COMPLETE (R205). -/
def execWqeComplete (qpn : Nat) (s : State) : Result :=
  s.onDev (fun d => d.wqeComplete qpn)

/-- RX_DATA_PACKET (R200). -/
def execRxDataPacket (p : DataPkt) (s : State) : Result :=
  s.onDev (fun d => d.rx (.data p))

/-- RX_READ_REQUEST (R206). -/
def execRxReadRequest (p : ReqPkt) (s : State) : Result :=
  s.onDev (fun d => d.rx (.read p))

/-- RX_ATOMIC_REQUEST (R206). -/
def execRxAtomicRequest (op : AtomicOp) (p : ReqPkt) (s : State) : Result :=
  s.onDev (fun d => d.rx (.atomic op p))

/-- RX_FLUSH_REQUEST (R206). -/
def execRxFlushRequest (p : ReqPkt) (persist : Bool) (s : State) : Result :=
  s.onDev (fun d => d.rx (.flush p persist))

/-- RX_SACK (R202). -/
def execRxSack (h : PktHdr) (aeth : W32) (ranges : List (Nat × Nat)) (s : State) : Result :=
  s.onDev (fun d => d.rx (.sack { h with aeth := aeth } ranges))

/-- RX_NAK (R182). -/
def execRxNak (h : PktHdr) (aeth : W32) (s : State) : Result :=
  s.onDev (fun d => d.rx (.nak { h with aeth := aeth }))

/-- RX_READ_RESPONSE (R200). -/
def execRxReadResponse (h : PktHdr) (payload : List Byte) (poison : List Bool) (s : State) : Result :=
  s.onDev (fun d => d.rx (.readResp h payload poison))

/-- RX_ATOMIC_RESPONSE (R205). -/
def execRxAtomicResponse (h : PktHdr) (orig : W64) (s : State) : Result :=
  s.onDev (fun d => d.rx (.atomicResp h orig))

/-- RX_CNP (R217). -/
def execRxCnp (h : PktHdr) (s : State) : Result :=
  s.onDev (fun d => d.rx (.cnp h))

/-- RX_RC_REPORT (R215). -/
def execRxRcReport (h : PktHdr) (aeth : W32) (s : State) : Result :=
  s.onDev (fun d => d.rx (.report { h with aeth := aeth }))

/-- ACK_DELAY_EXPIRY (R201). -/
def execAckDelayExpiry (qpn : Nat) (s : State) : Result :=
  s.onDev (fun d => d.ackDelay qpn)

/-- REORDER_WIN_EXPIRY (R202). -/
def execReorderWinExpiry (qpn : Nat) (s : State) : Result :=
  s.onDev (fun d => d.reorderExpiry qpn)

/-- RETRANSMIT_TIMEOUT (R203). -/
def execRetransmitTimeout (qpn : Nat) (s : State) : Result :=
  s.onDev (fun d => d.retransmitTimeout qpn)

/-- PATH_PROBE (R203). -/
def execPathProbe (qpn path : Nat) (s : State) : Result :=
  s.onDev (fun d => d.pathProbe qpn path)

/-- PATH_HOLD_EXPIRY (R217). -/
def execPathHoldExpiry (qpn path : Nat) (s : State) : Result :=
  s.onDev (fun d => d.pathHoldExpiry qpn path)

/-- PRESSURE_DECAY (R217). -/
def execPressureDecay (qpn : Nat) (s : State) : Result :=
  s.onDev (fun d => d.pressureDecay qpn)

/-- RECOVERY_EVENT (R217). -/
def execRecoveryEvent (qpn : Nat) (s : State) : Result :=
  s.onDev (fun d => d.recovery qpn)

/-- CONTEXT_FETCH_DONE (R192). -/
def execContextFetchDone (qpn : Nat) (r : CtxFetch) (s : State) : Result :=
  s.onDev (fun d => d.fetchDone qpn r)

/-- CONTEXT_WRITEBACK_DONE (R193). -/
def execContextWritebackDone (qpn : Nat) (s : State) : Result :=
  s.onDev (fun d => d.writebackDone qpn)

/-- ABSENT_QPN_EXPIRY (R193). -/
def execAbsentQpnExpiry (qpn : Nat) (s : State) : Result :=
  s.onDev (fun d => d.absentExpiry qpn)

/-- RNR_TIMER_EXPIRY (R182). -/
def execRnrTimerExpiry (qpn : Nat) (s : State) : Result :=
  s.onDev (fun d => d.rnrExpiry qpn)

end Sys2Proof.Machine
end

