-- ==== Sys2Proof/Machine/ExecStorage.lean ====
section
/-! DEFINITION. The meanings of the commands of the NVMe front ends and their volumes. -/

namespace Sys2Proof.Machine

/-- CC_ENABLE (R287). -/
def execCcEnable (slice port : Nat) (cc : W32) (s : State) : Result :=
  s.onDev (fun d => (d.ccEnable slice port cc).cordCheck)

/-- CC_DISABLE (R287). -/
def execCcDisable (slice port : Nat) (cc : W32) (s : State) : Result :=
  s.onDev (fun d => (d.ccDisable slice port cc).cordCheck)

/-- CC_SHUTDOWN (R287). -/
def execCcShutdown (slice port : Nat) (cc : W32) (s : State) : Result :=
  s.onDev (fun d => (d.ccShutdown slice port cc).cordCheck)

/-- NVME_SQ_DOORBELL (R284). -/
def execNvmeSqDoorbell (slice port sq tail : Nat) (s : State) : Result :=
  s.onDev (fun d => d.nvSqDoorbell slice port sq tail)

/-- NVME_CQ_DOORBELL (R284). -/
def execNvmeCqDoorbell (slice port cq head : Nat) (s : State) : Result :=
  s.onDev (fun d => d.nvCqDoorbell slice port cq head)

/-- CREATE_IO_SQ (R286). -/
def execCreateIoSq (slice port : Nat) (a : NvmeAdmin) (s : State) : Result :=
  s.onDev (fun d => d.admin slice port a (fun k d => Dev.createSq d k a))

/-- CREATE_IO_CQ (R286). -/
def execCreateIoCq (slice port : Nat) (a : NvmeAdmin) (s : State) : Result :=
  s.onDev (fun d => d.admin slice port a (fun k d => Dev.createCq d k a))

/-- DELETE_IO_SQ (R307). -/
def execDeleteIoSq (slice port : Nat) (a : NvmeAdmin) (s : State) : Result :=
  s.onDev (fun d => d.admin slice port a (fun k d => Dev.deleteSq d k a))

/-- DELETE_IO_CQ (R285). -/
def execDeleteIoCq (slice port : Nat) (a : NvmeAdmin) (s : State) : Result :=
  s.onDev (fun d => d.admin slice port a (fun k d => Dev.deleteCq d k a))

/-- GET_LOG_PAGE (R306). -/
def execGetLogPage (slice port : Nat) (a : NvmeAdmin) (s : State) : Result :=
  s.onDev (fun d => d.admin slice port a (fun k d => Dev.getLog d k a))

/-- NVME_IDENTIFY (R285). -/
def execNvmeIdentify (slice port : Nat) (a : NvmeAdmin) (s : State) : Result :=
  s.onDev (fun d => d.admin slice port a (fun k d => Dev.nvIdentify d k a))

/-- NVME_ABORT (R308). -/
def execNvmeAbort (slice port : Nat) (a : NvmeAdmin) (s : State) : Result :=
  s.onDev (fun d => d.admin slice port a (fun k d => Dev.nvAbort d k a))

/-- SET_FEATURES (R285). -/
def execSetFeatures (slice port : Nat) (a : NvmeAdmin) (s : State) : Result :=
  s.onDev (fun d => d.admin slice port a (fun k d => Dev.setFeature d k a))

/-- GET_FEATURES (R285). -/
def execGetFeatures (slice port : Nat) (a : NvmeAdmin) (s : State) : Result :=
  s.onDev (fun d => d.admin slice port a (fun k d => Dev.getFeature d k a))

/-- ASYNC_EVENT_REQUEST (R304). -/
def execAsyncEventRequest (slice port : Nat) (a : NvmeAdmin) (s : State) : Result :=
  s.onDev (fun d => d.admin slice port a (fun k d => Dev.asyncRequest d k a))

/-- QUEUE_RESTART (R307). -/
def execQueueRestart (slice port : Nat) (a : NvmeAdmin) (cids : List (BitVec 16)) (s : State) : Result :=
  s.onDev (fun d => d.admin slice port a (fun k d => Dev.queueRestart d k a cids))

/-- NVME_WRITE (R301). -/
def execNvmeWrite (slice port sq : Nat) (io : NvmeIo) (s : State) : Result :=
  s.onDev (fun d => (d.nvWrite slice port sq io).cordCheck)

/-- NVME_READ (R298). -/
def execNvmeRead (slice port sq : Nat) (io : NvmeIo) (s : State) : Result :=
  s.onDev (fun d => (d.nvRead slice port sq io).cordCheck)

/-- NVME_FLUSH (R302). -/
def execNvmeFlush (slice port sq : Nat) (io : NvmeIo) (s : State) : Result :=
  s.onDev (fun d => (d.nvFlush slice port sq io).cordCheck)

/-- WRITE_ZEROES (R303). -/
def execWriteZeroes (slice port sq : Nat) (io : NvmeIo) (s : State) : Result :=
  s.onDev (fun d => (d.nvZeroes slice port sq io).cordCheck)

/-- DATASET_MANAGEMENT (R303). -/
def execDatasetManagement (slice port sq : Nat) (io : NvmeIo) (ranges : List (Nat × Nat)) (s : State) : Result :=
  s.onDev (fun d => (d.nvDeallocate slice port sq io ranges).cordCheck)

/-- UNIT_DESTAGE_START (R296). -/
def execUnitDestageStart (vol unit : Nat) (s : State) : Result :=
  s.onDev (fun d => (d.destage vol unit).cordCheck)

/-- OLD_BLOCKS_READ_DONE (R296). -/
def execOldBlocksReadDone (vol unit : Nat) (x : ExtentData) (s : State) : Result :=
  s.onDev (fun d => (d.oldBlocks vol unit x).cordCheck)

/-- EXTENT_WRITE_DONE (R296). -/
def execExtentWriteDone (vol unit : Nat) (s : State) : Result :=
  s.onDev (fun d => (d.extentWritten vol unit).cordCheck)

/-- TARGET_FLUSH_DONE (R296). -/
def execTargetFlushDone (vol unit : Nat) (s : State) : Result :=
  s.onDev (fun d => (d.targetFlushed vol unit).cordCheck)

/-- MAP_CAS_DONE (R299). -/
def execMapCasDone (vol unit : Nat) (found : W64) (s : State) : Result :=
  s.onDev (fun d => (d.mapSwapped vol unit found).cordCheck)

/-- MAP_PERSIST_DONE (R296). -/
def execMapPersistDone (vol unit : Nat) (s : State) : Result :=
  s.onDev (fun d => (d.mapPersisted vol unit).cordCheck)

/-- TARGET_OP_TIMEOUT (R305). -/
def execTargetOpTimeout (vol unit : Nat) (read : Option (Nat × Nat × BitVec 16)) (s : State) : Result :=
  s.onDev (fun d => (d.targetTimeout vol unit read).cordCheck)

/-- VOL_ATTACH (R295). -/
def execVolAttach (c : Cmd) (desc : Option VolDesc) (x : AttachData) (s : State) : Result :=
  s.onDev (fun d => d.command c 0x0401 [.m] (fun o d => d.afterZero o c (.attach desc x) (Dev.volAttach c desc x)))

/-- VOL_DETACH (R294). -/
def execVolDetach (c : Cmd) (s : State) : Result :=
  s.onDev (fun d => d.command c 0x0402 [.m] (fun o d => Dev.volDetach c o d))

/-- TARGET_READ_DONE (R292). -/
def execTargetReadDone (slice port sq : Nat) (cid : BitVec 16) (unit : Nat) (x : ExtentData) (s : State) : Result :=
  s.onDev (fun d => (d.targetRead slice port sq cid unit x).cordCheck)

end Sys2Proof.Machine
end

