-- ==== Sys2Proof/Machine/ExecTime.lean ====
section
/-! DEFINITION. The meanings of the commands of Ring time, its servo and PPS. -/

namespace Sys2Proof.Machine

/-- RING_TICK (R35). -/
def execRingTick (s : State) : Result :=
  s.onDev (fun d => d.ringTick)

/-- TIM_ADDEND_WRITE (R37). -/
def execTimAddendWrite (port : Nat) (val : W64) (s : State) : Result :=
  s.onDev (fun d => d.timPair port 0x40020 val)

/-- TIM_SET_WRITE (R36). -/
def execTimSetWrite (port : Nat) (val : W64) (s : State) : Result :=
  s.onDev (fun d => d.timPair port 0x40028 val)

/-- TIM_STEP_WRITE (R36). -/
def execTimStepWrite (port : Nat) (val : W64) (s : State) : Result :=
  s.onDev (fun d => d.timPair port 0x40030 val)

/-- TIM_SLEW_WRITE (R36). -/
def execTimSlewWrite (port : Nat) (val : W64) (s : State) : Result :=
  s.onDev (fun d => d.timPair port 0x40038 val)

/-- TIM_NOW_READ (R38). -/
def execTimNowRead (port : Nat) (s : State) : Result :=
  s.onDev (fun d => d.timRead port 0x40010)

/-- TIM_PPS_CAP_READ (R47). -/
def execTimPpsCapRead (port : Nat) (s : State) : Result :=
  s.onDev (fun d => d.timRead port 0x40048)

/-- REPLICA_REALIGN (R39); the requests and frames that waited for stamps of the die are served (R40). -/
def execReplicaRealign (replica : Nat) (meas : RealignMeas) (s : State) : Result :=
  s.onDev (fun d => (d.realign replica meas.drift meas.fwd meas.rtt).payStamps.stampFrames)

/-- PTP_MESSAGE_RECEIVE (R41). -/
def execPtpMessageReceive (rx : PtpRx) (todo : PtpTodo) (s : State) : Result :=
  s.onDev (fun d => d.ptpReceive rx.die rx.ecc rx.offsetNs todo.acts todo.tx)

/-- SOURCE_LOSS_HOLDOVER (R42). -/
def execSourceLossHoldover (intervals : Nat) (s : State) : Result :=
  s.onDev (fun d => d.sourceLoss intervals)

/-- PPS_IN_EDGE (R43). -/
def execPpsInEdge (level : Bool) (acts : List ServoAct) (s : State) : Result :=
  s.onDev (fun d => d.ppsEdge level acts)

/-- PPS_OUT_RISE (R44). -/
def execPpsOutRise (s : State) : Result :=
  s.onDev (fun d => d.ppsRise)

/-- PPS_OUT_FALL (R44). -/
def execPpsOutFall (s : State) : Result :=
  s.onDev (fun d => d.ppsFall)

/-- PTP_CONFIG (R41). -/
def execPtpConfig (c : Cmd) (s : State) : Result :=
  s.onDev (fun d => d.command c 0x0603 [.m] (fun _ d => Dev.ptpConfig c d))

/-- TIME_SECOND (R43). -/
def execTimeSecond (c : Cmd) (s : State) : Result :=
  s.onDev (fun d => d.command c 0x0604 [.m, .b] (fun _ d => Dev.timeSecond c d))

end Sys2Proof.Machine
end

