-- ==== Sys2Proof/Machine/Dispatch.lean ====
section
/-! DEFINITION. The meaning of every command: one arm per constructor, each one call of its own meaning. -/

namespace Sys2Proof.Machine

/-- The effect of a command on everything but the queue. -/
def exec (i : Instr) (s : State) : Host.Outcome State Fault Refusal :=
  match i with
  | .regWrite via off size val poisoned => Sys2Proof.Machine.execRegWrite via off size val poisoned s
  | .lowWordWrite via off val => Sys2Proof.Machine.execLowWordWrite via off val s
  | .highWordWrite via off val => Sys2Proof.Machine.execHighWordWrite via off val s
  | .lowWordRead via off => Sys2Proof.Machine.execLowWordRead via off s
  | .readClear via off size => Sys2Proof.Machine.execReadClear via off size s
  | .access8b via off write => Sys2Proof.Machine.execAccess8b via off write s
  | .lockSet via off val => Sys2Proof.Machine.execLockSet via off val s
  | .ringTick => Sys2Proof.Machine.execRingTick s
  | .timAddendWrite port val => Sys2Proof.Machine.execTimAddendWrite port val s
  | .timSetWrite port val => Sys2Proof.Machine.execTimSetWrite port val s
  | .timStepWrite port val => Sys2Proof.Machine.execTimStepWrite port val s
  | .timSlewWrite port val => Sys2Proof.Machine.execTimSlewWrite port val s
  | .timNowRead port => Sys2Proof.Machine.execTimNowRead port s
  | .timPpsCapRead port => Sys2Proof.Machine.execTimPpsCapRead port s
  | .replicaRealign replica meas => Sys2Proof.Machine.execReplicaRealign replica meas s
  | .ptpMessageReceive rx todo => Sys2Proof.Machine.execPtpMessageReceive rx todo s
  | .sourceLossHoldover intervals => Sys2Proof.Machine.execSourceLossHoldover intervals s
  | .ppsInEdge level acts => Sys2Proof.Machine.execPpsInEdge level acts s
  | .ppsOutRise => Sys2Proof.Machine.execPpsOutRise s
  | .ppsOutFall => Sys2Proof.Machine.execPpsOutFall s
  | .ptpConfig c => Sys2Proof.Machine.execPtpConfig c s
  | .timeSecond c => Sys2Proof.Machine.execTimeSecond c s
  | .ucieLaneRepair link => Sys2Proof.Machine.execUcieLaneRepair link s
  | .ucieLinkRetrain link ok => Sys2Proof.Machine.execUcieLinkRetrain link ok s
  | .ucieLinkFail link => Sys2Proof.Machine.execUcieLinkFail link s
  | .rerouteRelease link => Sys2Proof.Machine.execRerouteRelease link s
  | .planAdmit c img sigOk => Sys2Proof.Machine.execPlanAdmit c img sigOk s
  | .planStart c init => Sys2Proof.Machine.execPlanStart c init s
  | .planStop c => Sys2Proof.Machine.execPlanStop c s
  | .planRetire c => Sys2Proof.Machine.execPlanRetire c s
  | .planEfReset c => Sys2Proof.Machine.execPlanEfReset c s
  | .planHyper c => Sys2Proof.Machine.execPlanHyper c s
  | .planStatus c => Sys2Proof.Machine.execPlanStatus c s
  | .milEvtClrWrite port val => Sys2Proof.Machine.execMilEvtClrWrite port val s
  | .unitOutOfService n => Sys2Proof.Machine.execUnitOutOfService n s
  | .stepArm slot => Sys2Proof.Machine.execStepArm slot s
  | .planSignalWrite via slot size val poisoned => Sys2Proof.Machine.execPlanSignalWrite via slot size val poisoned s
  | .intakeStart slot k => Sys2Proof.Machine.execIntakeStart slot k s
  | .intakeEnd slot k parts => Sys2Proof.Machine.execIntakeEnd slot k parts s
  | .residualFetchDone slot k first count => Sys2Proof.Machine.execResidualFetchDone slot k first count s
  | .residualWritebackDone slot k first => Sys2Proof.Machine.execResidualWritebackDone slot k first s
  | .reduceDataReceive m => Sys2Proof.Machine.execReduceDataReceive m s
  | .scalarPreStart slot => Sys2Proof.Machine.execScalarPreStart slot s
  | .scalarReceive m post vals => Sys2Proof.Machine.execScalarReceive m post vals s
  | .updateStart slot group => Sys2Proof.Machine.execUpdateStart slot group s
  | .updateEnd slot group => Sys2Proof.Machine.execUpdateEnd slot group s
  | .scalarPostStart slot => Sys2Proof.Machine.execScalarPostStart slot s
  | .gatherStart slot k => Sys2Proof.Machine.execGatherStart slot k s
  | .gatherDataReceive m => Sys2Proof.Machine.execGatherDataReceive m s
  | .readyRecordWrite slot k acc => Sys2Proof.Machine.execReadyRecordWrite slot k acc s
  | .stepEnd slot => Sys2Proof.Machine.execStepEnd slot s
  | .startReceive m vals => Sys2Proof.Machine.execStartReceive m vals s
  | .startWaitTimeout slot => Sys2Proof.Machine.execStartWaitTimeout slot s
  | .peerTimeout slot level peer => Sys2Proof.Machine.execPeerTimeout slot level peer s
  | .abortReceive m => Sys2Proof.Machine.execAbortReceive m s
  | .embDoorbellWrite via slot acc size val poisoned => Sys2Proof.Machine.execEmbDoorbellWrite via slot acc size val poisoned s
  | .embLookup slot acc e => Sys2Proof.Machine.execEmbLookup slot acc e s
  | .embUpdate slot acc e => Sys2Proof.Machine.execEmbUpdate slot acc e s
  | .embLoad slot acc e => Sys2Proof.Machine.execEmbLoad slot acc e s
  | .embRead slot acc e => Sys2Proof.Machine.execEmbRead slot acc e s
  | .embReqReceive m q => Sys2Proof.Machine.execEmbReqReceive m q s
  | .embRespReceive m q => Sys2Proof.Machine.execEmbRespReceive m q s
  | .embUpdReceive m q => Sys2Proof.Machine.execEmbUpdReceive m q s
  | .embCompletion slot acc tag => Sys2Proof.Machine.execEmbCompletion slot acc tag s
  | .eccCorrected u row addr => Sys2Proof.Machine.execEccCorrected u row addr s
  | .eccUncorrected u row addr => Sys2Proof.Machine.execEccUncorrected u row addr s
  | .scrubRead u row addr r passEnd => Sys2Proof.Machine.execScrubRead u row addr r passEnd s
  | .rowCopyDone ch row => Sys2Proof.Machine.execRowCopyDone ch row s
  | .memSpareStartWrite val => Sys2Proof.Machine.execMemSpareStartWrite val s
  | .spareChunkCopy => Sys2Proof.Machine.execSpareChunkCopy s
  | .pageZeroed => Sys2Proof.Machine.execPageZeroed s
  | .poolZeroDone => Sys2Proof.Machine.execPoolZeroDone s
  | .spillWindowWrite port reg val => Sys2Proof.Machine.execSpillWindowWrite port reg val s
  | .spillBlockReadDone slot block bytes lost => Sys2Proof.Machine.execSpillBlockReadDone slot block bytes lost s
  | .qpCreate c tpl => Sys2Proof.Machine.execQpCreate c tpl s
  | .qpModify c tpl fetched => Sys2Proof.Machine.execQpModify c tpl fetched s
  | .qpQuery c => Sys2Proof.Machine.execQpQuery c s
  | .qpDestroy c fetched => Sys2Proof.Machine.execQpDestroy c fetched s
  | .cqCreate c => Sys2Proof.Machine.execCqCreate c s
  | .cqDestroy c => Sys2Proof.Machine.execCqDestroy c s
  | .mrReg c => Sys2Proof.Machine.execMrReg c s
  | .mrDereg c => Sys2Proof.Machine.execMrDereg c s
  | .ahCreate c ah => Sys2Proof.Machine.execAhCreate c ah s
  | .ahDestroy c => Sys2Proof.Machine.execAhDestroy c s
  | .qpDoorbellWrite via size val poisoned rqes => Sys2Proof.Machine.execQpDoorbellWrite via size val poisoned rqes s
  | .cqDoorbellWrite via size val poisoned => Sys2Proof.Machine.execCqDoorbellWrite via size val poisoned s
  | .wqeSend qpn w src => Sys2Proof.Machine.execWqeSend qpn w src s
  | .wqeSendImm qpn w src => Sys2Proof.Machine.execWqeSendImm qpn w src s
  | .wqeWrite qpn w src => Sys2Proof.Machine.execWqeWrite qpn w src s
  | .wqeWriteImm qpn w src => Sys2Proof.Machine.execWqeWriteImm qpn w src s
  | .wqeRead qpn w src => Sys2Proof.Machine.execWqeRead qpn w src s
  | .wqeCmpSwap qpn w src => Sys2Proof.Machine.execWqeCmpSwap qpn w src s
  | .wqeFetchAdd qpn w src => Sys2Proof.Machine.execWqeFetchAdd qpn w src s
  | .wqeAtomicWrite qpn w src => Sys2Proof.Machine.execWqeAtomicWrite qpn w src s
  | .wqeFlush qpn w src => Sys2Proof.Machine.execWqeFlush qpn w src s
  | .wqeWait qpn w src => Sys2Proof.Machine.execWqeWait qpn w src s
  | .wqeNop qpn w src => Sys2Proof.Machine.execWqeNop qpn w src s
  | .wqeComplete qpn => Sys2Proof.Machine.execWqeComplete qpn s
  | .rxDataPacket p => Sys2Proof.Machine.execRxDataPacket p s
  | .rxReadRequest p => Sys2Proof.Machine.execRxReadRequest p s
  | .rxAtomicRequest op p => Sys2Proof.Machine.execRxAtomicRequest op p s
  | .rxFlushRequest p persist => Sys2Proof.Machine.execRxFlushRequest p persist s
  | .rxSack h aeth ranges => Sys2Proof.Machine.execRxSack h aeth ranges s
  | .rxNak h aeth => Sys2Proof.Machine.execRxNak h aeth s
  | .rxReadResponse h payload poison => Sys2Proof.Machine.execRxReadResponse h payload poison s
  | .rxAtomicResponse h orig => Sys2Proof.Machine.execRxAtomicResponse h orig s
  | .rxCnp h => Sys2Proof.Machine.execRxCnp h s
  | .rxRcReport h aeth => Sys2Proof.Machine.execRxRcReport h aeth s
  | .ackDelayExpiry qpn => Sys2Proof.Machine.execAckDelayExpiry qpn s
  | .reorderWinExpiry qpn => Sys2Proof.Machine.execReorderWinExpiry qpn s
  | .retransmitTimeout qpn => Sys2Proof.Machine.execRetransmitTimeout qpn s
  | .pathProbe qpn path => Sys2Proof.Machine.execPathProbe qpn path s
  | .pathHoldExpiry qpn path => Sys2Proof.Machine.execPathHoldExpiry qpn path s
  | .pressureDecay qpn => Sys2Proof.Machine.execPressureDecay qpn s
  | .recoveryEvent qpn => Sys2Proof.Machine.execRecoveryEvent qpn s
  | .contextFetchDone qpn r => Sys2Proof.Machine.execContextFetchDone qpn r s
  | .contextWritebackDone qpn => Sys2Proof.Machine.execContextWritebackDone qpn s
  | .absentQpnExpiry qpn => Sys2Proof.Machine.execAbsentQpnExpiry qpn s
  | .frameReceive port f => Sys2Proof.Machine.execFrameReceive port f s
  | .fragEntryTimeout die ix => Sys2Proof.Machine.execFragEntryTimeout die ix s
  | .frameTransmit port e => Sys2Proof.Machine.execFrameTransmit port e s
  | .calendarSlot die => Sys2Proof.Machine.execCalendarSlot die s
  | .bomQueueFlush die q => Sys2Proof.Machine.execBomQueueFlush die q s
  | .cellSweep die => Sys2Proof.Machine.execCellSweep die s
  | .bkrTblDataWrite port val => Sys2Proof.Machine.execBkrTblDataWrite port val s
  | .bkrTblDataRead port => Sys2Proof.Machine.execBkrTblDataRead port s
  | .bkrHashSeedWrite k val => Sys2Proof.Machine.execBkrHashSeedWrite k val s
  | .fluPolCfgWrite port val => Sys2Proof.Machine.execFluPolCfgWrite port val s
  | .queueSamplePeriod port => Sys2Proof.Machine.execQueueSamplePeriod port s
  | .hotReset p pin => Sys2Proof.Machine.execHotReset p pin s
  | .linkDown p => Sys2Proof.Machine.execLinkDown p s
  | .flr p kind => Sys2Proof.Machine.execFlr p kind s
  | .bmeClear p kind => Sys2Proof.Machine.execBmeClear p kind s
  | .bmeSet p kind => Sys2Proof.Machine.execBmeSet p kind s
  | .d3hotEntry p kind => Sys2Proof.Machine.execD3hotEntry p kind s
  | .d3hotExit p kind => Sys2Proof.Machine.execD3hotExit p kind s
  | .pcieCompletionReceive p kind tag st bytes poisoned => Sys2Proof.Machine.execPcieCompletionReceive p kind tag st bytes poisoned s
  | .completionTimeout p slot => Sys2Proof.Machine.execCompletionTimeout p slot s
  | .quarantineEnd p slot => Sys2Proof.Machine.execQuarantineEnd p slot s
  | .atsInvalidation p kind pasid page => Sys2Proof.Machine.execAtsInvalidation p kind pasid page s
  | .malformedTlp p kind e => Sys2Proof.Machine.execMalformedTlp p kind e s
  | .sliceBind c => Sys2Proof.Machine.execSliceBind c s
  | .sliceQuota c => Sys2Proof.Machine.execSliceQuota c s
  | .sliceWindow c => Sys2Proof.Machine.execSliceWindow c s
  | .sliceQuiesce c => Sys2Proof.Machine.execSliceQuiesce c s
  | .sliceQuiesced slice => Sys2Proof.Machine.execSliceQuiesced slice s
  | .quiesceDeadline slice => Sys2Proof.Machine.execQuiesceDeadline slice s
  | .sliceResume c => Sys2Proof.Machine.execSliceResume c s
  | .sliceReset c => Sys2Proof.Machine.execSliceReset c s
  | .sliceUnbind c => Sys2Proof.Machine.execSliceUnbind c s
  | .ccEnable slice port cc => Sys2Proof.Machine.execCcEnable slice port cc s
  | .ccDisable slice port cc => Sys2Proof.Machine.execCcDisable slice port cc s
  | .ccShutdown slice port cc => Sys2Proof.Machine.execCcShutdown slice port cc s
  | .nvmeSqDoorbell slice port sq tail => Sys2Proof.Machine.execNvmeSqDoorbell slice port sq tail s
  | .nvmeCqDoorbell slice port cq head => Sys2Proof.Machine.execNvmeCqDoorbell slice port cq head s
  | .createIoSq slice port a => Sys2Proof.Machine.execCreateIoSq slice port a s
  | .createIoCq slice port a => Sys2Proof.Machine.execCreateIoCq slice port a s
  | .deleteIoSq slice port a => Sys2Proof.Machine.execDeleteIoSq slice port a s
  | .deleteIoCq slice port a => Sys2Proof.Machine.execDeleteIoCq slice port a s
  | .getLogPage slice port a => Sys2Proof.Machine.execGetLogPage slice port a s
  | .nvmeIdentify slice port a => Sys2Proof.Machine.execNvmeIdentify slice port a s
  | .nvmeAbort slice port a => Sys2Proof.Machine.execNvmeAbort slice port a s
  | .setFeatures slice port a => Sys2Proof.Machine.execSetFeatures slice port a s
  | .getFeatures slice port a => Sys2Proof.Machine.execGetFeatures slice port a s
  | .asyncEventRequest slice port a => Sys2Proof.Machine.execAsyncEventRequest slice port a s
  | .queueRestart slice port a cids => Sys2Proof.Machine.execQueueRestart slice port a cids s
  | .nvmeWrite slice port sq io => Sys2Proof.Machine.execNvmeWrite slice port sq io s
  | .nvmeRead slice port sq io => Sys2Proof.Machine.execNvmeRead slice port sq io s
  | .nvmeFlush slice port sq io => Sys2Proof.Machine.execNvmeFlush slice port sq io s
  | .writeZeroes slice port sq io => Sys2Proof.Machine.execWriteZeroes slice port sq io s
  | .datasetManagement slice port sq io ranges => Sys2Proof.Machine.execDatasetManagement slice port sq io ranges s
  | .unitDestageStart vol unit => Sys2Proof.Machine.execUnitDestageStart vol unit s
  | .oldBlocksReadDone vol unit x => Sys2Proof.Machine.execOldBlocksReadDone vol unit x s
  | .extentWriteDone vol unit => Sys2Proof.Machine.execExtentWriteDone vol unit s
  | .targetFlushDone vol unit => Sys2Proof.Machine.execTargetFlushDone vol unit s
  | .mapCasDone vol unit found => Sys2Proof.Machine.execMapCasDone vol unit found s
  | .mapPersistDone vol unit => Sys2Proof.Machine.execMapPersistDone vol unit s
  | .targetOpTimeout vol unit read => Sys2Proof.Machine.execTargetOpTimeout vol unit read s
  | .volAttach c desc x => Sys2Proof.Machine.execVolAttach c desc x s
  | .volDetach c => Sys2Proof.Machine.execVolDetach c s
  | .ckptRegions c tbl => Sys2Proof.Machine.execCkptRegions c tbl s
  | .ckptStart c list => Sys2Proof.Machine.execCkptStart c list s
  | .ckptRelease c => Sys2Proof.Machine.execCkptRelease c s
  | .ckptAbort c => Sys2Proof.Machine.execCkptAbort c s
  | .ckptRestore c tbl rec0 rec1 => Sys2Proof.Machine.execCkptRestore c tbl rec0 rec1 s
  | .failureWarning w => Sys2Proof.Machine.execFailureWarning w s
  | .quietTimeEnd still => Sys2Proof.Machine.execQuietTimeEnd still s
  | .quiescePoint => Sys2Proof.Machine.execQuiescePoint s
  | .quiesceWaitExpiry => Sys2Proof.Machine.execQuiesceWaitExpiry s
  | .regionCopyDone poisoned => Sys2Proof.Machine.execRegionCopyDone poisoned s
  | .holdEnd => Sys2Proof.Machine.execHoldEnd s
  | .drainChunkWritten => Sys2Proof.Machine.execDrainChunkWritten s
  | .cbwStallLimit => Sys2Proof.Machine.execCbwStallLimit s
  | .drainFlushDone => Sys2Proof.Machine.execDrainFlushDone s
  | .commitFlushDone => Sys2Proof.Machine.execCommitFlushDone s
  | .restoreChunkRead ct ctr tag dest sv => Sys2Proof.Machine.execRestoreChunkRead ct ctr tag dest sv s
  | .crdVolWrite val rec0 rec1 => Sys2Proof.Machine.execCrdVolWrite val rec0 rec1 s
  | .aluS core w => Sys2Proof.Machine.execAluS core w s
  | .addiS core w => Sys2Proof.Machine.execAddiS core w s
  | .liS core w => Sys2Proof.Machine.execLiS core w s
  | .shiS core w => Sys2Proof.Machine.execShiS core w s
  | .lwS core w => Sys2Proof.Machine.execLwS core w s
  | .swS core w => Sys2Proof.Machine.execSwS core w s
  | .bezS core w => Sys2Proof.Machine.execBezS core w s
  | .bnzS core w => Sys2Proof.Machine.execBnzS core w s
  | .jS core w => Sys2Proof.Machine.execJS core w s
  | .sigS core w => Sys2Proof.Machine.execSigS core w s
  | .waitcS core w => Sys2Proof.Machine.execWaitcS core w s
  | .jrS core w => Sys2Proof.Machine.execJrS core w s
  | .nop core w => Sys2Proof.Machine.execNop core w s
  | .fence core w => Sys2Proof.Machine.execFence core w s
  | .eret core w => Sys2Proof.Machine.execEret core w s
  | .halt core w => Sys2Proof.Machine.execHalt core w s
  | .brk core w => Sys2Proof.Machine.execBrk core w s
  | .sys core w => Sys2Proof.Machine.execSys core w s
  | .wfi core w => Sys2Proof.Machine.execWfi core w s
  | .rep core w => Sys2Proof.Machine.execRep core w s
  | .repx core w => Sys2Proof.Machine.execRepx core w s
  | .alu core w => Sys2Proof.Machine.execAlu core w s
  | .addi core w => Sys2Proof.Machine.execAddi core w s
  | .andi core w => Sys2Proof.Machine.execAndi core w s
  | .ori core w => Sys2Proof.Machine.execOri core w s
  | .xori core w => Sys2Proof.Machine.execXori core w s
  | .lui core w => Sys2Proof.Machine.execLui core w s
  | .seqi core w => Sys2Proof.Machine.execSeqi core w s
  | .slti core w => Sys2Proof.Machine.execSlti core w s
  | .sltiu core w => Sys2Proof.Machine.execSltiu core w s
  | .shi core w => Sys2Proof.Machine.execShi core w s
  | .lw core w => Sys2Proof.Machine.execLw core w s
  | .sw core w => Sys2Proof.Machine.execSw core w s
  | .lk core w => Sys2Proof.Machine.execLk core w s
  | .sk core w => Sys2Proof.Machine.execSk core w s
  | .lbu core w => Sys2Proof.Machine.execLbu core w s
  | .lhu core w => Sys2Proof.Machine.execLhu core w s
  | .sb core w => Sys2Proof.Machine.execSb core w s
  | .sh core w => Sys2Proof.Machine.execSh core w s
  | .bez core w => Sys2Proof.Machine.execBez core w s
  | .bnz core w => Sys2Proof.Machine.execBnz core w s
  | .jal core w => Sys2Proof.Machine.execJal core w s
  | .jalr core w => Sys2Proof.Machine.execJalr core w s
  | .kop core w => Sys2Proof.Machine.execKop core w s
  | .cvt core w => Sys2Proof.Machine.execCvt core w s
  | .csr core w => Sys2Proof.Machine.execCsr core w s
  | .crc core w => Sys2Proof.Machine.execCrc core w s
  | .issue core w => Sys2Proof.Machine.execIssue core w s
  | .syncSig core w => Sys2Proof.Machine.execSyncSig core w s
  | .syncSigr core w => Sys2Proof.Machine.execSyncSigr core w s
  | .syncWaitc core w => Sys2Proof.Machine.execSyncWaitc core w s
  | .syncWaito core w => Sys2Proof.Machine.execSyncWaito core w s
  | .syncTryc core w => Sys2Proof.Machine.execSyncTryc core w s
  | .syncRdc core w => Sys2Proof.Machine.execSyncRdc core w s
  | .syncAdjc core w => Sys2Proof.Machine.execSyncAdjc core w s
  | .syncClrc core w => Sys2Proof.Machine.execSyncClrc core w s
  | .syncWaitRelease core ctr => Sys2Proof.Machine.execSyncWaitRelease core ctr s
  | .issueOpComplete core target => Sys2Proof.Machine.execIssueOpComplete core target s
  | .interruptTake core => Sys2Proof.Machine.execInterruptTake core s
  | .samplingInterrupt core => Sys2Proof.Machine.execSamplingInterrupt core s
  | .debugResume core => Sys2Proof.Machine.execDebugResume core s
  | .stateDump port val => Sys2Proof.Machine.execStateDump port val s
  | .deadlockFire => Sys2Proof.Machine.execDeadlockFire s
  | .negotiate c => Sys2Proof.Machine.execNegotiate c s
  | .identify c => Sys2Proof.Machine.execIdentify c s
  | .powerState c quick => Sys2Proof.Machine.execPowerState c quick s
  | .powerCap c => Sys2Proof.Machine.execPowerCap c s
  | .imageLoad c img => Sys2Proof.Machine.execImageLoad c img s
  | .imageActivate c => Sys2Proof.Machine.execImageActivate c s
  | .flashCommit c => Sys2Proof.Machine.execFlashCommit c s
  | .coreRestart c => Sys2Proof.Machine.execCoreRestart c s
  | .keySlotAlloc c => Sys2Proof.Machine.execKeySlotAlloc c s
  | .keySlotLoad c blob => Sys2Proof.Machine.execKeySlotLoad c blob s
  | .keySlotErase c => Sys2Proof.Machine.execKeySlotErase c s
  | .keySlotQuery c => Sys2Proof.Machine.execKeySlotQuery c s
  | .sessionOpen c => Sys2Proof.Machine.execSessionOpen c s
  | .sessionClose c => Sys2Proof.Machine.execSessionClose c s
  | .sqTailWrite via val fetches => Sys2Proof.Machine.execSqTailWrite via val fetches s
  | .cqHeadWrite via val => Sys2Proof.Machine.execCqHeadWrite via val s
  | .sqEnableWrite via val => Sys2Proof.Machine.execSqEnableWrite via val s
  | .mboxGo port => Sys2Proof.Machine.execMboxGo port s
  | .leaseRenew die acks => Sys2Proof.Machine.execLeaseRenew die acks s
  | .leaseLoss die => Sys2Proof.Machine.execLeaseLoss die s
  | .leaseClaim die seen => Sys2Proof.Machine.execLeaseClaim die seen s
  | .leaseConflictTimeout => Sys2Proof.Machine.execLeaseConflictTimeout s
  | .sramTestStage res => Sys2Proof.Machine.execSramTestStage res s
  | .imageReadStage flash => Sys2Proof.Machine.execImageReadStage flash s
  | .verifyStage => Sys2Proof.Machine.execVerifyStage s
  | .applyStage full badMacros idMatch => Sys2Proof.Machine.execApplyStage full badMacros idMatch s
  | .watchdogExpiry core => Sys2Proof.Machine.execWatchdogExpiry core s
  | .coreResume core saved => Sys2Proof.Machine.execCoreResume core saved s
  | .handoffSavePoint core blockOk => Sys2Proof.Machine.execHandoffSavePoint core blockOk s
  | .activationAbandon kind => Sys2Proof.Machine.execActivationAbandon kind s
  | .pldmRequestUpdate => Sys2Proof.Machine.execPldmRequestUpdate s
  | .pldmPassComponentTable comps => Sys2Proof.Machine.execPldmPassComponentTable comps s
  | .pldmUpdateComponent component => Sys2Proof.Machine.execPldmUpdateComponent component s
  | .pldmFirmwareData img => Sys2Proof.Machine.execPldmFirmwareData img s
  | .pldmActivateFirmware => Sys2Proof.Machine.execPldmActivateFirmware s
  | .pldmGetStatus => Sys2Proof.Machine.execPldmGetStatus s
  | .spdmGetVersion via => Sys2Proof.Machine.execSpdmGetVersion via s
  | .spdmGetCapabilities via version => Sys2Proof.Machine.execSpdmGetCapabilities via version s
  | .spdmNegotiateAlgorithms via supported => Sys2Proof.Machine.execSpdmNegotiateAlgorithms via supported s
  | .spdmGetDigests via => Sys2Proof.Machine.execSpdmGetDigests via s
  | .spdmGetCertificate via slot offset len => Sys2Proof.Machine.execSpdmGetCertificate via slot offset len s
  | .spdmChallenge via slot nonce => Sys2Proof.Machine.execSpdmChallenge via slot nonce s
  | .spdmGetMeasurements via index signed nonce => Sys2Proof.Machine.execSpdmGetMeasurements via index signed nonce s
  | .spdmKeyExchange via => Sys2Proof.Machine.execSpdmKeyExchange via s
  | .spdmFinish via chk => Sys2Proof.Machine.execSpdmFinish via chk s
  | .spdmEndSession via id => Sys2Proof.Machine.execSpdmEndSession via id s
  | .spdmHeartbeat via id => Sys2Proof.Machine.execSpdmHeartbeat via id s
  | .spdmVendorDefined via vendor slice planDigest versions qpn => Sys2Proof.Machine.execSpdmVendorDefined via vendor slice planDigest versions qpn s
  | .spdmResponseReceive id resp => Sys2Proof.Machine.execSpdmResponseReceive id resp s
  | .sessionHandshakeTimeout id => Sys2Proof.Machine.execSessionHandshakeTimeout id s
  | .cipherSeal die r => Sys2Proof.Machine.execCipherSeal die r s
  | .cipherOpen die r => Sys2Proof.Machine.execCipherOpen die r s
  | .cipherXtsEnc die r => Sys2Proof.Machine.execCipherXtsEnc die r s
  | .cipherXtsDec die r => Sys2Proof.Machine.execCipherXtsDec die r s
  | .cipherGmac die r => Sys2Proof.Machine.execCipherGmac die r s
  | .oldSessionExpiry id => Sys2Proof.Machine.execOldSessionExpiry id s
  | .resealDone n => Sys2Proof.Machine.execResealDone n s
  | .entropyFail die => Sys2Proof.Machine.execEntropyFail die s
  | .brkSliceSlotsWrite port val => Sys2Proof.Machine.execBrkSliceSlotsWrite port val s
  | .powerTransitionDone => Sys2Proof.Machine.execPowerTransitionDone s
  | .w2StopTimeout => Sys2Proof.Machine.execW2StopTimeout s
  | .supplyDipStart => Sys2Proof.Machine.execSupplyDipStart s
  | .supplyDipEnd => Sys2Proof.Machine.execSupplyDipEnd s
  | .dipClampRelease => Sys2Proof.Machine.execDipClampRelease s
  | .thermalClampSet => Sys2Proof.Machine.execThermalClampSet s
  | .thermalClampRelease => Sys2Proof.Machine.execThermalClampRelease s
  | .powerClampSet => Sys2Proof.Machine.execPowerClampSet s
  | .powerClampRelease => Sys2Proof.Machine.execPowerClampRelease s
  | .uvResetTrip => Sys2Proof.Machine.execUvResetTrip s
  | .ovTrip => Sys2Proof.Machine.execOvTrip s
  | .thermalTrip => Sys2Proof.Machine.execThermalTrip s
  | .tripRestart => Sys2Proof.Machine.execTripRestart s
  | .rangerLoop volt cur power temps mclk overCap => Sys2Proof.Machine.execRangerLoop volt cur power temps mclk overCap s
  | .powerOn => Sys2Proof.Machine.execPowerOn s
  | .coldReset low xclkA xclkB restart => Sys2Proof.Machine.execColdReset low xclkA xclkB restart s
  | .warmReset low => Sys2Proof.Machine.execWarmReset low s
  | .faultEvent src cls code unit count addr => Sys2Proof.Machine.execFaultEvent src cls code unit count addr s
  | .faultNPulseEnd => Sys2Proof.Machine.execFaultNPulseEnd s
  | .fltForceWrite port mask => Sys2Proof.Machine.execFltForceWrite port mask s
  | .fltLogIdxWrite port pos => Sys2Proof.Machine.execFltLogIdxWrite port pos s
  | .tlySnapWrite => Sys2Proof.Machine.execTlySnapWrite s
  | .snapshotDone => Sys2Proof.Machine.execSnapshotDone s
  | .tlyPolSelWrite port val => Sys2Proof.Machine.execTlyPolSelWrite port val s
  | .mctpDiscovery port answers => Sys2Proof.Machine.execMctpDiscovery port answers s
  | .sensorPoll port ix => Sys2Proof.Machine.execSensorPoll port ix s
  | .sensorResponse port ix id opState present dataSize unitMod baseUnit reading => Sys2Proof.Machine.execSensorResponse port ix id opState present dataSize unitMod baseUnit reading s
  | .sensorPollTimeout port ix => Sys2Proof.Machine.execSensorPollTimeout port ix s
  | .pdrChangeEvent port ix sensors => Sys2Proof.Machine.execPdrChangeEvent port ix sensors s
  | .telemetryDatagram drop devSensor => Sys2Proof.Machine.execTelemetryDatagram drop devSensor s
  | .xclkALoss => Sys2Proof.Machine.execXclkALoss s
  | .xclkBLoss => Sys2Proof.Machine.execXclkBLoss s
  | .laneMacroFail die m => Sys2Proof.Machine.execLaneMacroFail die m s
  | .pcieLinkUp p speed width flit => Sys2Proof.Machine.execPcieLinkUp p speed width flit s
  | .ethLinkUp port => Sys2Proof.Machine.execEthLinkUp port s
  | .rnrTimerExpiry qpn => Sys2Proof.Machine.execRnrTimerExpiry qpn s
  | .targetReadDone slice port sq cid unit x => Sys2Proof.Machine.execTargetReadDone slice port sq cid unit x s
  | .configurationWrite p kind w => Sys2Proof.Machine.execConfigurationWrite p kind w s
  | .flashWriteDone ok left => Sys2Proof.Machine.execFlashWriteDone ok left s

end Sys2Proof.Machine
end

