-- ==== Sys2Proof/Safety.lean ====
section
/-! DEFINITION. The words that the claims use: what a safe run is, which commands are served, which registers are plain, and
which parts of the device an effect may touch. -/

namespace Sys2Proof

open Machine

/-- The outcome is a next state. -/
def isNext : Host.Outcome State Fault Refusal → Bool
  | .next _ => true
  | .fault _ => false
  | .refused _ => false

/-- A run of `k` steps from `s` reaches `t`. -/
def Reaches (s : State) : Nat → State → Prop
  | 0, t => t = s
  | k + 1, t => ∃ u, Reaches s k u ∧ step u = .next t

/-- No entry at the front of an issuer's ring completes by itself: it is absent, or runs a command of Table 12.8. -/
def quietRing (r : CmdRing) : Bool :=
  match r.waiting with
  | [] => true
  | ⟨_, .failed⟩ :: _ => false
  | ⟨_, .entry op _ _⟩ :: _ => opcodes.contains op.toNat

/-- Every entry of the command's ring was fetched, the lead serves the command, no common check of commands stops it, and what waits behind it in its ring needs no answer of
its own now (R273, R371, R373 to R376, R415). -/
abbrev Served (d : Dev) (c : Cmd) (op : Nat) (paths : List CmdPath) : Prop :=
  d.readHeld (.cmdRing c.iss) = false ∧ d.serves c.iss = true ∧ quietRing ((d.takeEntry c op).cmdRing c.iss) = true ∧ d.preCheck c op paths = none

/-- The device after a completion of the command was written to its issuer (R373, R375, R383). -/
def replied (d : Dev) (c : Cmd) (op st rs : Nat) (res : List Byte) : Dev :=
  d.deliver (d.ownerOf c op) ⟨op, c.tag, st, rs, st != stDeferred, res⟩

/-- A received packet reaches its cached queue pair, whose state takes packets, and passes the checks of its mode; `d` is the
device after them (R189, R195, R200, R401). -/
abbrev Accepted (s : Dev) (q : Qp) (p : RxPkt) (d : Dev) : Prop :=
  s.qp (rxHdr p).qpn = some q ∧ q.f cSlice = (rxHdr p).slice ∧ s.takesPackets (rxHdr p).slice = true ∧ s.fatal = false ∧
  q.cache.isSome = true ∧ s.chain (rxHdr p).die (rxHdr p).qpn = [] ∧ s.rxOpen q p = (true, d) ∧ 2 ≤ q.f cState ∧ q.f cState ≠ qsErr

/-- No send queue holds a WAIT. -/
abbrev NoWaits (d : Dev) : Prop := ∀ x ∈ d.skid.qps, ∀ y ∈ x.2.sq, y.op ≠ 0x30

/-- A queue pair's key can seal its next packet: the counter value and the slot after it (R189, R393). -/
abbrev CanSeal (d : Dev) (q : Qp) (v : Nat) (k' : KeySlot) : Prop :=
  ∃ k, d.key (q.f cKeySlot) = some k ∧ k.state = .loaded ∧ useAllows k.use 1 = true ∧ k.take q.die = some (v, k')

/-- An entry of a submission queue is awaited by its enabled controller (R284, R287). -/
abbrev Awaited (d : Dev) (k sq : Nat) (q : NvSq) : Prop :=
  tblGet (d.ctrl k).sqs sq = some q ∧ q.arrived ≠ q.head ∧ (d.ctrl k).rdy = true ∧ (d.ctrl k).disabling = false

/-- The queue after that entry arrived. -/
abbrev taken (q : NvSq) : NvSq := { q with arrived := (q.arrived + 1) % q.depth }

/-- A completion queue of a controller with room for an entry and none held (R285). -/
abbrev NvRoom (d : Dev) (k cq : Nat) (c : NvCq) : Prop :=
  tblGet (d.ctrl k).cqs cq = some c ∧ c.held = [] ∧ c.written - c.head < c.depth - 1

/-- Between `d` and `t` one entry was written into the completion queue `c` of a controller, at its position and with the
phase of its turn. -/
abbrev NvAnswered (d t : Dev) (k cq : Nat) (c : NvCq) (e : NvCqe) : Prop :=
  tblGet (t.ctrl k).cqs cq = some { c with written := c.written + 1 } ∧
  ∃ l m, t.out = l ++ Out.nvmeCqe k cq (c.written % c.depth) (phaseAt c.written c.depth) e :: (m ++ d.out)

/-- No controller holds a fetched command, a reset or a shutdown under way, and no volume waits to be detached. -/
abbrev NvCalm (d : Dev) : Prop :=
  (∀ e ∈ d.nvm.ctrls, e.2.cmds = [] ∧ e.2.disabling = false ∧ e.2.shst ≠ 1) ∧ (∀ e ∈ d.nvm.vols, e.2.detach = none)

/-- A running core with its prefix, at whose next boundary nothing is taken (R340, R341). -/
abbrev Steady (d : Dev) (c : Nat) (k : Core) (p : Option RepPrefix) : Prop :=
  d.core c = k ∧ k.state = .running ∧ k.pre = p ∧ k.satPend = none ∧ (k.ie = true → k.exl = false → k.irqPend = false)

/-- `t` is `s` with another core `c`; nothing else of the device changed but the count of open values used. -/
abbrev CoreStep (s t : State) (c : Nat) (k : Core) : Prop :=
  t.pending = s.pending ∧ t.dev.core c = k ∧ (∀ j, j ≠ c → t.dev.core j = s.dev.core j) ∧
  t.dev = { s.dev with freeCtr := t.dev.freeCtr, kerf := { s.dev.kerf with cores := t.dev.kerf.cores } }

/-- A core that is no sequencer takes an exception at its instruction (R341, Table 11.7): what it saves, and where it goes. -/
abbrev Trapped (s t : State) (c : Nat) (k : Core) (code : Nat) (val : Option Nat) : Prop :=
  t.pending = s.pending ∧ (∀ j, j ≠ c → t.dev.core j = s.dev.core j) ∧ t.dev.mem = s.dev.mem ∧ t.dev.mill = s.dev.mill ∧
  ∃ v : W64, (∀ x, val = some x → v = BitVec.ofNat 64 x) ∧ t.dev.core c = { k with
    exc := if code < 16 then satAdd 16 k.exc 1 else k.exc
    epc := BitVec.ofNat 32 k.pc
    ecause := BitVec.ofNat 32 code
    eval := v.truncate 32
    evalh := (v >>> 32).truncate 32
    exl := true
    rep := false
    savedRepx := false
    pre := none
    pc := k.evec.toNat % 2 ^ 19 }

/-- What every step keeps: the memories are in their canonical form (DESIGN CHOICE, log 12), TIM_ADDEND lies within 500 ppm of its nominal value
(R35), and the power state and a pending target are codes of Table 14.2 (R412). -/
abbrev Inv (s : State) : Prop :=
  s.dev.mem.wf = true ∧ 0x400000000 - 8589935 ≤ s.dev.ring.addend.toNat ∧ s.dev.ring.addend.toNat ≤ 0x400000000 + 8589935 ∧
  s.dev.pwr.state ≤ 4 ∧ (∀ m ∈ s.dev.pwr.move, m.target ≤ 4)

/-- 32-bit registers of BAR0 that no row of the table of operations and no rule singles out: a write acts by the access
codes of the fields alone (R11). -/
def plainReg (off : Nat) : Bool :=
  off % 4 == 0 && !isPair off && !(off ≥ 4 && isPair (off - 4)) && !(fieldsOf allRows off).isEmpty &&
  !([0x10018, 0x1001C, 0x10028, 0x10080, 0x2002C, 0x2003C, 0x40000, 0x50004, 0x500B0, 0x50100, 0x50104, 0x9000C, 0x300044,
     0x500008, 0x600084, 0x800050, 0xC00010, 0xC00058, 0xC0005C, 0xD0000C, 0x100000C, 0x1000020, 0x1000028] : List Nat).contains off &&
  !(0x300010 ≤ off && off < 0x300020) && !(0x50108 ≤ off && off ≤ 0x50120)

end Sys2Proof
end

