-- ==== Sys2Proof/Certificates/Slice0/Obligations.lean ====
section
/-! DEFINITION. The statements for the provers: what the commands do, what they leave unchanged, and what every step keeps. -/

open Sys2Proof Sys2Proof.Machine

/-- For every state and command: with the command at the front of the queue, one step is exec of that command on
the state with the rest of the queue; with no command waiting, the step answers the same state. Every command
completes: for every command and state exec answers a next state, with the queue as it was. That an empty
queue idles is the choice of this model (log 34). (95_what_each_step_holds) -/
def Obligations.StepRunsTheFrontCommand : Prop :=
  (∀ (s : State) (c : Instr) (rest : List Instr), s.pending = c :: rest →
    step s = exec c { s with pending := rest }) ∧
  (∀ s : State, s.pending = [] → step s = .next s) ∧
  (∀ (c : Instr) (s : State), ∃ t, exec c s = .next t ∧ t.pending = s.pending)

/-- State.reset: no command waits; every register field has the value of its Reset column; Ring has NS 0, FRAC 0,
state UNSET and the nominal TIM_ADDEND; the lease EPOCH is 1; the power state is W0; no slice is bound, no
plan is admitted, no queue pair exists, no memory byte is written, and the invariant that every step keeps
holds. Where the Reset column takes a value from an image or a test, the value is an open constant. (R38,
R365, R412, R14) -/
def Obligations.ResetLeavesTheStatedValues : Prop :=
  State.reset.pending = [] ∧
  (∀ (f : Fld) (i : Nat), State.reset.dev.fld f i = rstVal f i) ∧
  State.reset.dev.ns = 0 ∧ State.reset.dev.frac = 0 ∧ State.reset.dev.ring.state = .unset ∧
  State.reset.dev.ring.isSet = false ∧ State.reset.dev.ring.addend = 0x400000000 ∧
  State.reset.dev.scaler.lease.epoch = 1 ∧ State.reset.dev.scaler.boot = .reset ∧ State.reset.dev.pwr.state = 0 ∧
  (∀ n : Nat, (State.reset.dev.slice n).state = .unbound) ∧ (∀ n : Nat, State.reset.dev.plan n = none) ∧
  (∀ n : Nat, State.reset.dev.qp n = none) ∧ State.reset.dev.mem.cells = [] ∧ Inv State.reset

/-- REG_WRITE of a register that no rule singles out, at a BAR0 that answers: an RW field reads the written bits,
an RWL field too unless its block is locked, W1C clears the bits written 1 (fault bits aside), W1S sets them,
and RO, RC and WO fields keep their value. Every other register field reads as before; apart from the register
fields only the count of locked writes may change. Commands for which it says that exec answers a next state
with their effect, under conditions on the state and the operands alone: regWrite. (R11, R13, 00_scope) -/
def Obligations.RegisterWriteActsByAccessCode : Prop :=
  ∀ (s : State) (p off : Nat) (v : W64) (g : Fld) (i : Nat),
    s.dev.bar0Up p = true → plainReg off = true → s.dev.writeHeld p off = none → g ∈ fieldsOf allRows off →
    (fieldsOf allRows off).filter (fun f => f.lo == g.lo) = [g] → s.dev.instOf p g = some i →
    (∀ f ∈ fieldsOf allRows off, ∀ k, s.dev.instOf p f = some k → k < 4194304) → off ≠ 0x20008 → off ≠ 0x20010 →
    ∃ t, exec (.regWrite (.bar0 p) off 4 v false) s = .next t ∧ t.pending = s.pending ∧
      (let b := bits (v.truncate 32 : W32).toNat g.lo g.w
       t.dev.fld g i = (match g.acc with
        | .rw => b / fieldAlign off * fieldAlign off
        | .rwl => if s.dev.locked off then s.dev.fld g i else b / fieldAlign off * fieldAlign off
        | .w1c => (s.dev.fld g i ^^^ (s.dev.fld g i &&& b)) % 2 ^ g.w
        | .w1s => (s.dev.fld g i ||| b) % 2 ^ g.w
        | _ => s.dev.fld g i)) ∧
      (∀ (f : Fld) (j : Nat), (∀ h ∈ fieldsOf allRows off, ∀ k, s.dev.instOf p h = some k → fldKey f j ≠ fldKey h k) →
        t.dev.fld f j = s.dev.fld f j) ∧
      t.dev = { s.dev with regs := t.dev.regs, tally := t.dev.tally } ∧
      (s.dev.locked off = false → t.dev.tally = s.dev.tally)

/-- LOCK_SET acts as the 4-byte write of the same register. A write that carries the lock bit leaves the block
locked. While a block is locked, a write of a register with RWL fields is counted in Tally event 0x001 and
leaves each RWL field as it is. Commands for which it says that exec answers a next state with their effect,
under conditions on the state and the operands alone: lockSet, regWrite. (R13) -/
def Obligations.LockWriteSetsTheLock : Prop :=
  (∀ (s : State) (via : Via) (off : Nat) (v : W32),
    exec (.lockSet via off v) s = exec (.regWrite via off 4 (v.zeroExtend 64) false) s) ∧
  (∀ (s : State) (p off : Nat) (v : W32) (l : Fld), s.dev.bar0Up p = true → lockOf off = some l → l.off = off →
    plainReg off = true → bit v.toNat l.lo = true → s.dev.writeHeld p off = none →
    ∃ t, exec (.lockSet (.bar0 p) off v) s = .next t ∧ t.pending = s.pending ∧ t.dev.locked off = true) ∧
  (∀ (s : State) (p off : Nat) (v : W32), s.dev.bar0Up p = true → plainReg off = true → s.dev.writeHeld p off = none →
    s.dev.locked off = true → (fieldsOf allRows off).all (fun f => f.acc == .rwl) = true →
    exec (.lockSet (.bar0 p) off v) s = .next ⟨s.dev.count 0x001, s.pending⟩)

/-- At a BAR0 that answers, an aligned 4-byte read of an offset that no register has gives 0 and changes nothing
else. A 4-byte write to it, as REG_WRITE, LOCK_SET, LOW_WORD_WRITE or HIGH_WORD_WRITE, changes nothing but the
count of Tally event 0x000, which rises by 1, and logs no PCIe error. Commands for which it says that exec
answers a next state with their effect, under conditions on the state and the operands alone: readClear,
lowWordRead, regWrite, lockSet, lowWordWrite, highWordWrite. (R7) -/
def Obligations.ReservedOffsetsReadZeroAndCount : Prop :=
  (∀ (s : State) (p off : Nat), s.dev.bar0Up p = true → off % 4 = 0 → fieldsOf allRows off = [] → (4 ≤ off → isPair (off - 4) = false) →
    exec (.readClear (.bar0 p) off 4) s = .next ⟨{ s.dev with out := .regData 0 :: s.dev.out }, s.pending⟩ ∧
    exec (.lowWordRead (.bar0 p) off) s = exec (.readClear (.bar0 p) off 4) s ∧
    (∀ v : W32, let t : State := { s with dev := s.dev.count 0x000 }
      exec (.regWrite (.bar0 p) off 4 (v.zeroExtend 64) false) s = .next t ∧ exec (.lockSet (.bar0 p) off v) s = .next t ∧
      exec (.lowWordWrite (.bar0 p) off v) s = .next t ∧ exec (.highWordWrite (.bar0 p) off v) s = .next t)) ∧
  (∀ d : Dev, tblGetD (d.count 0x000).tally.counts 0x000 0 = (tblGetD d.tally.counts 0x000 0 + 1) % 2 ^ 48 ∧
    d.count 0x000 = { d with tally := (d.count 0x000).tally })

/-- At a BAR0 that answers and at a bound slice page: LOW_WORD_WRITE of a pair changes nothing but the staged word
of that path and pair, and a second one replaces it. HIGH_WORD_WRITE uses up the staged word and commits it
below the high word; without a staged word the low word is what the RW and RWL fields hold and 0 for the
others, so that TIM_SET then loads a low word of 0. The pairs of a slice page do the same. ACCESS_8B commits
both words and leaves no staged word. For the ring base pairs of PF0 the field then holds the committed value,
a multiple of 4 KiB. Commands for which it says that exec answers a next state with their effect, under
conditions on the state and the operands alone: lowWordWrite, highWordWrite, access8b, regWrite. (R9) -/
def Obligations.PairWritesStageAndCommit : Prop :=
  (∀ (s : State) (p off : Nat) (v : W32), s.dev.bar0Up p = true → off % 4 = 0 → isPair off = true →
    exec (.lowWordWrite (.bar0 p) off v) s = .next ⟨
      { s.dev with host := ⟨s.dev.host.latch, tblPut s.dev.host.staged (hostKey (.bar0 p) off) v.toNat⟩ }, s.pending⟩) ∧
  (∀ (s : State) (port n off : Nat) (k : FnKind) (v : W32), s.dev.pageBound port k n = true → (off = 0 ∨ off = 0x10) →
    exec (.lowWordWrite (.page port k n) off v) s = .next ⟨
      { s.dev with host := ⟨s.dev.host.latch, tblPut s.dev.host.staged (hostKey (.page port k n) off) v.toNat⟩ }, s.pending⟩) ∧
  (∀ (s : State) (p off : Nat) (v w : W32), s.dev.bar0Up p = true → off % 4 = 0 → isPair off = true →
    ∃ t, exec (.lowWordWrite (.bar0 p) off v) s = .next t ∧ exec (.lowWordWrite (.bar0 p) off w) t = exec (.lowWordWrite (.bar0 p) off w) s) ∧
  (∀ (s : State) (port n off : Nat) (k : FnKind) (v : W32), s.dev.pageBound port k n = true → (off = 0 ∨ off = 0x10) →
    (let via := Via.page port k n
     let f := if off = 0 then F.PG_SQ_BASE_ADDR else F.PG_CQ_BASE_ADDR
     let low := (tblGet s.dev.host.staged (hostKey via off)).getD (s.dev.fld f n)
     (s.dev.flag F.PG_SQ_CTRL_EN n = false → exec (.highWordWrite via (off + 4) v) s = .next ⟨
       (s.dev.unstage via off).setFld f n ((low % 2 ^ 32 + v.toNat * 2 ^ 32) / 4096 * 4096), s.pending⟩) ∧
     (s.dev.flag F.PG_SQ_CTRL_EN n = true → exec (.highWordWrite via (off + 4) v) s = .next ⟨(s.dev.unstage via off).count itSclDiscard, s.pending⟩))) ∧
  (∀ (s : State) (p : Nat) (v : W32), s.dev.bar0Up p = true → s.dev.fld F.TIM_CTRL_SRC 0 = 0 → s.dev.ring.isSet = false →
    tblGet s.dev.host.staged (hostKey (.bar0 p) 0x40028) = none → exec (.highWordWrite (.bar0 p) 0x4002C v) s = .next ⟨
      let d := s.dev.unstage (.bar0 p) 0x40028
      { d with ring := { d.ring with acc := BitVec.ofNat 96 (v.toNat * 2 ^ 64), isSet := true, state := .free } }, s.pending⟩) ∧
  (∀ (s : State) (p off : Nat) (v : W32), s.dev.bar0Up p = true → off % 8 = 0 → isPair off = true → isPair (off + 4) = false →
    exec (.highWordWrite (.bar0 p) (off + 4) v) s = .next ⟨
      (s.dev.unstage (.bar0 p) off).writePair p off (BitVec.ofNat 64
        (((tblGet s.dev.host.staged (hostKey (.bar0 p) off)).getD (s.dev.keptLow p off)) % 2 ^ 32 + v.toNat * 2 ^ 32)), s.pending⟩) ∧
  (∀ (s : State) (p off : Nat) (v : W64), s.dev.bar0Up p = true → off % 8 = 0 → isPair off = true →
    exec (.access8b (.bar0 p) off (some v)) s = .next ⟨(s.dev.unstage (.bar0 p) off).writePair p off v, s.pending⟩ ∧
    exec (.regWrite (.bar0 p) off 8 v false) s = exec (.access8b (.bar0 p) off (some v)) s) ∧
  (∀ (s : State) (p : Nat) (v : W64), s.dev.bar0Up p = true → s.dev.flag F.SCL_SQ_CTRL_EN p = false →
    ∃ t, exec (.access8b (.bar0 p) 0x10010 (some v)) s = .next t ∧ t.pending = s.pending ∧
      t.dev.fld F.SCL_SQ_BASE_ADDR p = v.toNat / 4096 * 4096 ∧
      t.dev.host.latch = s.dev.host.latch ∧ tblGet t.dev.host.staged (hostKey (.bar0 p) 0x10010) = none ∧
      t.dev = { s.dev with regs := t.dev.regs, host := t.dev.host } ∧
      ∀ (f : Fld) (j : Nat), fldKey f j ≠ fldKey F.SCL_SQ_BASE_ADDR p → t.dev.fld f j = s.dev.fld f j)

/-- LOW_WORD_READ of a pair gives its low word and latches the high word for the high-word read; ACCESS_8B gives
both words and latches nothing. READ_CLEAR of a 32-bit register whose RC fields are plain counts gives the
register and leaves each RC field 0 and every other register field as it was. A read with a size or alignment
that R254 does not allow completes with Unsupported Request. Commands for which it says that exec answers a
next state with their effect, under conditions on the state and the operands alone: lowWordRead, access8b,
readClear. (R8, R11, R254) -/
def Obligations.ReadsLatchPairsAndClearCounts : Prop :=
  (∀ (s : State) (p off : Nat), s.dev.bar0Up p = true → off % 4 = 0 → isPair off = true → off ≠ 0x40010 → off ≠ 0x40048 →
    off ≠ 0x300044 → isPair (off - 4) = false → (fieldsOf allRows off).all (fun f => f.acc != .rc) = true →
    exec (.lowWordRead (.bar0 p) off) s = .next ⟨
      let h : HostIf := ⟨tblPut s.dev.host.latch (hostKey (.bar0 p) off) (s.dev.readReg p off / 2 ^ 32), s.dev.host.staged⟩
      { s.dev with host := h, out := .regData (s.dev.readReg p off % 2 ^ 32) :: s.dev.out }, s.pending⟩) ∧
  (∀ (s : State) (p off : Nat), s.dev.bar0Up p = true → off % 8 = 0 → isPair off = true → off ≠ 0x40010 → off ≠ 0x40048 →
    (fieldsOf allRows off).all (fun f => f.acc != .rc) = true →
    exec (.access8b (.bar0 p) off none) s = .next ⟨s.dev.emit (.regData (s.dev.readReg p off)), s.pending⟩) ∧
  (∀ (s : State) (p off : Nat), s.dev.bar0Up p = true → off ∈ [0x100018, 0x10001C, 0xD00030, 0x1002C, 0x90020, 0x20080] →
    ∃ t, exec (.readClear (.bar0 p) off 4) s = .next t ∧ t.pending = s.pending ∧
      t.dev = { s.dev with regs := t.dev.regs, out := .regData (s.dev.readReg p off % 2 ^ 32) :: s.dev.out } ∧
      (∀ g ∈ fieldsOf allRows off, g.acc = .rc → ∀ i, s.dev.instOf p g = some i → t.dev.fld g i = 0) ∧
      (∀ (f : Fld) (j : Nat), (∀ g ∈ fieldsOf allRows off, ∀ i, s.dev.instOf p g = some i → fldKey f j ≠ fldKey g i) →
        t.dev.fld f j = s.dev.fld f j)) ∧
  (∀ (s : State) (p off size : Nat), s.dev.bar0Up p = true → ¬(size = 4 ∧ off % 4 = 0) → ¬(size = 8 ∧ off % 8 = 0) →
    exec (.readClear (.bar0 p) off size) s = .next ⟨((s.dev.count itHostBad).aerLog p .pf0 .unsupportedRequest).emit .regUr, s.pending⟩)

/-- The accumulator holds NS and 32 fraction bits, FRAC being the upper 16; the reset addend is 4 ns. A write of
TIM_ADDEND with SRC 0 is clamped to within 8,589,935 units of nominal and sets ADDEND_CLAMP when it clamps.
RING_TICK adds the addend, the part of the slew that this edge takes (at most TIM_SLEW_RATE ppm of the addend,
1 to 1,000) and a pending step to the 96-bit accumulator; the remaining slew shrinks by that part and no step
is left. The accumulator never becomes smaller short of its wrap. TIM_STATUS.PPS_SKIP is set only when a step
skips a second while PPS_OUT is enabled and Ring is set. Nothing else changes but the state FREE after a host
step, the note of a reached second and the count of edges. Commands for which it says that exec answers a next
state with their effect, under conditions on the state and the operands alone: timAddendWrite, ringTick. (R35) -/
def Obligations.RingAdvancesAtATick : Prop :=
  (∀ d : Dev, d.ring.acc.toNat = d.ns.toNat * 2 ^ 32 + d.frac.toNat * 2 ^ 16 + d.ring.acc.toNat % 2 ^ 16) ∧
  State.reset.dev.ring.addend.toNat = 0x400000000 ∧
  (∀ (s : State) (p : Nat) (v : W64), s.dev.bar0Up p = true → s.dev.fld F.TIM_CTRL_SRC 0 = 0 →
    ∃ t, exec (.timAddendWrite p v) s = .next t ∧
      (let n := v.toNat % 2 ^ 40
       t.dev.ring.addend.toNat = (if n < 0x400000000 - 8589935 then 0x400000000 - 8589935 else if 0x400000000 + 8589935 < n then 0x400000000 + 8589935 else n) ∧
       t.dev.flag F.TIM_STATUS_ADDEND_CLAMP 0 = (s.dev.flag F.TIM_STATUS_ADDEND_CLAMP 0 || decide (t.dev.ring.addend.toNat ≠ n)))) ∧
  (∀ s : State, ∃ t, exec .ringTick s = .next t ∧ t.pending = s.pending ∧
    (let r := s.dev.ring
     let m := r.addend.toNat * max 1 (min 1000 (s.dev.fld F.TIM_SLEW_RATE_PPM 0)) / 1000000
     let δ : Int := if r.slew < 0 then -((min m r.slew.natAbs : Nat) : Int) else ((min m r.slew.natAbs : Nat) : Int)
     let jump := ((r.step.map (fun n => n.toNat)).getD 0) * 2 ^ 32
     t.dev.ring.acc = BitVec.ofNat 96 (r.acc.toNat + ((r.addend.toNat : Int) + δ).toNat + jump) ∧
     t.dev.ring.slew = r.slew - δ ∧ t.dev.ring.step = none ∧
     (r.acc.toNat + 2 * r.addend.toNat + jump < 2 ^ 96 → r.acc.toNat ≤ t.dev.ring.acc.toNat) ∧
     (r.slew = 0 → r.step = none → r.acc.toNat + r.addend.toNat < 2 ^ 96 →
       t.dev.ring.acc.toNat = r.acc.toNat + r.addend.toNat) ∧
     t.dev.ring.state = (if r.step.isSome ∧ s.dev.fld F.TIM_CTRL_SRC 0 = 0 then .free else r.state) ∧
     t.dev.ring = { r with acc := t.dev.ring.acc, step := none, slew := t.dev.ring.slew, state := t.dev.ring.state, ppsDue := t.dev.ring.ppsDue }) ∧
    t.dev = { s.dev with clk := s.dev.clk + 1, ring := t.dev.ring, regs := t.dev.regs } ∧
    (∀ (f : Fld) (i : Nat), fldKey f i ≠ fldKey F.TIM_STATUS_PPS_SKIP 0 → t.dev.fld f i = s.dev.fld f i) ∧
    (t.dev.flag F.TIM_STATUS_PPS_SKIP 0 = true → s.dev.flag F.TIM_STATUS_PPS_SKIP 0 = true ∨
      (s.dev.ring.step.isSome = true ∧ s.dev.ring.isSet = true ∧ s.dev.flag F.TIM_CTRL_PPS_OUT_EN 0 = true)))

/-- At a BAR0 that answers and with SRC 0: TIM_ADDEND takes the written 40 bits clamped to within 8,589,935 of
nominal and ADDEND_CLAMP is set exactly when that changed them; TIM_SET loads NS, clears the fraction, sets
SET and the state FREE if Ring was not set; TIM_STEP adds to the step of the next edge; TIM_SLEW replaces the
remaining slew. Each uses up a staged word of its pair and changes nothing else. Commands for which it says
that exec answers a next state with their effect, under conditions on the state and the operands alone:
timAddendWrite, timSetWrite, timStepWrite, timSlewWrite. (R35, R36, R37, R9) -/
def Obligations.TimWritesTakeEffectWithSourceZero : Prop :=
  ∀ (s : State) (p : Nat) (v : W64), s.dev.bar0Up p = true → s.dev.fld F.TIM_CTRL_SRC 0 = 0 →
    (let n := v.toNat % 2 ^ 40
     let d := s.dev.unstage (.bar0 p) 0x40020
     let e : Dev := { d with ring := { d.ring with addend := BitVec.ofNat 40 (clampAddend n) } }
     exec (.timAddendWrite p v) s = .next ⟨
       if clampAddend n = n then e else e.setFld F.TIM_STATUS_ADDEND_CLAMP 0 1, s.pending⟩ ∧
     (BitVec.ofNat 40 (clampAddend n)).toNat ≤ 0x400000000 + 8589935 ∧
     0x400000000 - 8589935 ≤ (BitVec.ofNat 40 (clampAddend n)).toNat ∧
     (0x400000000 - 8589935 ≤ n → n ≤ 0x400000000 + 8589935 → clampAddend n = n)) ∧
    (s.dev.ring.isSet = false → exec (.timSetWrite p v) s = .next ⟨
      let d := s.dev.unstage (.bar0 p) 0x40028
      { d with ring := { d.ring with acc := BitVec.ofNat 96 (v.toNat * 2 ^ 32), isSet := true, state := .free } }, s.pending⟩) ∧
    (s.dev.ring.isSet = true → exec (.timSetWrite p v) s = .next ⟨(s.dev.unstage (.bar0 p) 0x40028).count 0x002, s.pending⟩) ∧
    exec (.timStepWrite p v) s = .next ⟨
      let d := s.dev.unstage (.bar0 p) 0x40030
      { d with ring := { d.ring with step := some ((d.ring.step.getD 0) + v) } }, s.pending⟩ ∧
    exec (.timSlewWrite p v) s = .next ⟨
      let d := s.dev.unstage (.bar0 p) 0x40038
      { d with ring := { d.ring with slew := v.toInt * 2 ^ 32 } }, s.pending⟩

/-- At a BAR0 that answers: with TIM_CTRL.SRC not 0, each of the four writes leaves Ring as it is: apart from the
staged word of its pair, only Tally event 0x002 is counted; with SRC 0 each takes effect as the write of its
value, but a write to TIM_SET while TIM_STATUS.SET is 1 is discarded and counted too. Commands for which it
says that exec answers a next state with their effect, under conditions on the state and the operands alone:
timAddendWrite, timSetWrite, timStepWrite, timSlewWrite. (R37) -/
def Obligations.TimWritesDiscardedWhileServoOwnsRing : Prop :=
  ∀ (s : State) (p : Nat) (v : W64), s.dev.bar0Up p = true →
    (let un := fun (off : Nat) => s.dev.unstage (.bar0 p) off
     (s.dev.fld F.TIM_CTRL_SRC 0 ≠ 0 →
       exec (.timAddendWrite p v) s = .next ⟨(s.dev.unstage (.bar0 p) 0x40020).count 0x002, s.pending⟩ ∧
       exec (.timSetWrite p v) s = .next ⟨(s.dev.unstage (.bar0 p) 0x40028).count 0x002, s.pending⟩ ∧
       exec (.timStepWrite p v) s = .next ⟨(s.dev.unstage (.bar0 p) 0x40030).count 0x002, s.pending⟩ ∧
       exec (.timSlewWrite p v) s = .next ⟨(s.dev.unstage (.bar0 p) 0x40038).count 0x002, s.pending⟩) ∧
     (s.dev.fld F.TIM_CTRL_SRC 0 = 0 → s.dev.ring.isSet = true → exec (.timSetWrite p v) s = .next ⟨(s.dev.unstage (.bar0 p) 0x40028).count 0x002, s.pending⟩) ∧
     (s.dev.fld F.TIM_CTRL_SRC 0 = 0 →
       exec (.timAddendWrite p v) s = .next ⟨(un 0x40020).putAddend v, s.pending⟩ ∧ (s.dev.ring.isSet = false → exec (.timSetWrite p v) s = .next ⟨(un 0x40028).putSet v, s.pending⟩) ∧
       exec (.timStepWrite p v) s = .next ⟨(un 0x40030).putStep v, s.pending⟩ ∧ exec (.timSlewWrite p v) s = .next ⟨(un 0x40038).putSlew v, s.pending⟩) ∧
     (∀ off, ((s.dev.unstage (.bar0 p) off).count 0x002).ring = s.dev.ring ∧
       ((s.dev.unstage (.bar0 p) off).count 0x002).regs = s.dev.regs) ∧
     (tblGetD (s.dev.count 0x002).tally.counts 0x002 0 = (tblGetD s.dev.tally.counts 0x002 0 + 1) % 2 ^ 48))

/-- At a BAR0 that answers: TIM_NOW_READ gives NS[31:0] and latches NS[63:32] and FRAC; TIM_PPS_CAP_READ gives the
low word of the capture, latches its high word and fraction and clears PPS_CAP_VALID. Commands for which it
says that exec answers a next state with their effect, under conditions on the state and the operands alone:
timNowRead, timPpsCapRead. (R8, R32, R47) -/
def Obligations.TimReadsLatchTheFraction : Prop :=
  ∀ (s : State) (p : Nat), s.dev.bar0Up p = true →
    exec (.timNowRead p) s = .next ⟨
      let l := tblPut s.dev.host.latch (hostKey (.bar0 p) 0x40010) (s.dev.ns.toNat / 2 ^ 32)
      let h : HostIf := ⟨tblPut l (hostKey (.bar0 p) 0x40018) s.dev.frac.toNat, s.dev.host.staged⟩
      { s.dev with host := h, out := .regData (s.dev.ns.toNat % 2 ^ 32) :: s.dev.out }, s.pending⟩ ∧
    (∃ t, exec (.timPpsCapRead p) s = .next t ∧ t.pending = s.pending ∧
      t.dev.host.latch = tblPut (tblPut s.dev.host.latch (hostKey (.bar0 p) 0x40048) (s.dev.fld F.TIM_PPS_CAP_NS 0 / 2 ^ 32))
        (hostKey (.bar0 p) 0x40050) (s.dev.fld F.TIM_PPS_CAP_FRAC_FRAC 0) ∧
      t.dev.out = .regData (s.dev.fld F.TIM_PPS_CAP_NS 0 % 2 ^ 32) :: s.dev.out ∧
      t.dev.flag F.TIM_STATUS_PPS_CAP_VALID 0 = false ∧
      t.dev = { s.dev with regs := t.dev.regs, out := t.dev.out, host := { s.dev.host with latch := t.dev.host.latch } } ∧
      ∀ (f : Fld) (i : Nat), fldKey f i ≠ fldKey F.TIM_STATUS_PPS_CAP_VALID 0 → t.dev.fld f i = s.dev.fld f i)

/-- PTP_MESSAGE_RECEIVE takes the head of the PTP queue of its die, and without one does nothing; with SRC 1 it
counts an estimate within 20 ns and starts again from 0 on any other; the 16th in a row gives LOCKED; with SRC
0 or 2 it changes nothing else. A loss of more than 3 intervals turns LOCKED into HOLDOVER unless SRC is 0.
PPS_IN_EDGE with PPS_IN_EN and a transition to the chosen level captures NS and FRAC cut to 250 ps, and
PPS_OVERRUN is set exactly when a capture stood; without a transition only the seen level changes. A served
PTP_CONFIG with its reserved fields 0 and a transport of 0 to 2 completes with OK and holds its settings; a
served TIME_SECOND with SRC 2 completes with OK and holds the second, with another SRC it is REFUSED. Commands
for which it says that exec answers a next state with their effect, under conditions on the state and the
operands alone: ptpMessageReceive, sourceLossHoldover, ppsInEdge, ptpConfig, timeSecond. (R41, R42, R43, R36,
01_package_and_time) -/
def Obligations.ServoFollowsItsSource : Prop :=
  (∀ (s : State) (die : Die) (ecc : BoomEcc) (off : Int) (a : List ServoAct) (tx : List RawTx), (s.dev.bq (queueKey die 65556)).head = none →
    exec (.ptpMessageReceive ⟨die, ecc, off⟩ ⟨a, tx⟩) s = .next s) ∧
  (∀ (s : State) (die : Die) (off : Int) (f : BFrame), (s.dev.bq (queueKey die 65556)).head = some f →
    (let d := s.dev.modBq (queueKey die 65556) (fun q => { q with frames := dropHead q.frames f })
     (s.dev.fld F.TIM_CTRL_SRC 0 = 1 → exec (.ptpMessageReceive ⟨die, .clean, off⟩ ⟨[], []⟩) s = .next ⟨
       let n := if off.natAbs ≤ 20 then s.dev.ring.inBand + 1 else 0
       { d with ring := { d.ring with inBand := n, state := if n ≥ 16 then .locked else d.ring.state } }, s.pending⟩) ∧
     (∀ a, s.dev.fld F.TIM_CTRL_SRC 0 ≠ 1 → s.dev.fld F.TIM_CTRL_SRC 0 ≠ 3 → exec (.ptpMessageReceive ⟨die, .clean, off⟩ ⟨a, []⟩) s = .next ⟨d, s.pending⟩))) ∧
  (∀ (s : State) (n : Nat), n > 3 → s.dev.ring.state = .locked → s.dev.fld F.TIM_CTRL_SRC 0 ≠ 0 →
    exec (.sourceLossHoldover n) s = .next ⟨
      { s.dev with ring := { s.dev.ring with state := .holdover, inBand := 0 } }, s.pending⟩) ∧
  (∀ (s : State) (level : Bool), s.dev.flag F.TIM_CTRL_PPS_IN_EN 0 = true → s.dev.ring.ppsIn ≠ level →
    level = !s.dev.flag F.TIM_CTRL_PPS_IN_EDGE 0 → s.dev.fld F.TIM_CTRL_SRC 0 < 2 →
    ∃ t, exec (.ppsInEdge level []) s = .next t ∧ t.pending = s.pending ∧
      t.dev.fld F.TIM_PPS_CAP_NS 0 = s.dev.ns.toNat ∧ t.dev.fld F.TIM_PPS_CAP_FRAC_FRAC 0 = s.dev.frac.toNat / 16384 * 16384 ∧
      t.dev.flag F.TIM_STATUS_PPS_CAP_VALID 0 = true ∧
      t.dev.flag F.TIM_STATUS_PPS_OVERRUN 0 =
        (s.dev.flag F.TIM_STATUS_PPS_CAP_VALID 0 || s.dev.flag F.TIM_STATUS_PPS_OVERRUN 0) ∧
      t.dev = { s.dev with regs := t.dev.regs, ring := { s.dev.ring with ppsIn := level } }) ∧
  (∀ (s : State) (level : Bool) (a : List ServoAct),
    s.dev.flag F.TIM_CTRL_PPS_IN_EN 0 = false ∨ s.dev.ring.ppsIn = level ∨ level = s.dev.flag F.TIM_CTRL_PPS_IN_EDGE 0 →
    exec (.ppsInEdge level a) s = .next ⟨{ s.dev with ring := { s.dev.ring with ppsIn := level } }, s.pending⟩) ∧
  (∀ (s : State) (c : Cmd), Served s.dev c 0x0603 [.m] → c.w 0 < 2 ^ 12 → bits (c.w 0) 10 2 ≠ 3 → c.w 1 < 2 ^ 32 → c.w 2 < 2 ^ 32 →
    c.w3 = 0 → c.w4 = 0 → c.w5 = 0 →
    exec (.ptpConfig c) s = .next ⟨
      (let d := s.dev.takeEntry c 0x0603
       replied { d with ring := { d.ring with ptp := ⟨bits (c.w 0) 0 8, bit (c.w 0) 8, bit (c.w 0) 9, bits (c.w 0) 10 2, c.w1,
         bits (c.w 2) 0 8, bits (c.w 2) 8 8, bits (c.w 2) 16 8, bits (c.w 2) 24 8⟩ } } c 0x0603 stOk 0 []), s.pending⟩) ∧
  (∀ (s : State) (c : Cmd), Served s.dev c 0x0604 [.m, .b] → c.w1 = 0 → c.w2 = 0 → c.w3 = 0 → c.w4 = 0 → c.w5 = 0 →
    (s.dev.fld F.TIM_CTRL_SRC 0 = 2 → exec (.timeSecond c) s = .next ⟨
      (let d := s.dev.takeEntry c 0x0604
       replied { d with ring := { d.ring with second := some c.w0 } } c 0x0604 stOk 0 []), s.pending⟩) ∧
    (s.dev.fld F.TIM_CTRL_SRC 0 ≠ 2 → exec (.timeSecond c) s =
      .next ⟨replied (s.dev.takeEntry c 0x0604) c 0x0604 stRefused rsWrongState [], s.pending⟩))

/-- PPS_OUT_RISE with a second reached, PPS_OUT_EN and SET 1 raises the pin; PPS_OUT_FALL lowers it. A
re-alignment gives the replica the master value advanced by half of the round trip. With an error of at most 1
ns it records the error and ends a withholding of stamps, and a signal that waited gets its stamp; above 1 ns
it sets REPLICA_ERR, counts the re-alignment and raises one corrected fault of source 41; above 2 ns stamps of
that replica are withheld. Commands for which it says that exec answers a next state with their effect, under
conditions on the state and the operands alone: ppsOutRise, ppsOutFall, replicaRealign. (R39, R40, R44) -/
def Obligations.PpsOutputAndReplicas : Prop :=
  (∀ s : State, s.dev.ring.ppsDue = true → s.dev.flag F.TIM_CTRL_PPS_OUT_EN 0 = true → s.dev.ring.isSet = true →
    s.dev.ring.ppsOut = false →
    exec .ppsOutRise s = .next ⟨
      { s.dev with ring := { s.dev.ring with ppsOut := true, ppsDue := false }, out := .pps true :: s.dev.out }, s.pending⟩) ∧
  (∀ s : State, s.dev.ring.isSet = false → exec .ppsOutRise s = .next s) ∧
  (∀ s : State, s.dev.ring.ppsOut = true →
    exec .ppsOutFall s = .next ⟨
      { s.dev with ring := { s.dev.ring with ppsOut := false }, out := .pps false :: s.dev.out }, s.pending⟩) ∧
  (∀ (s : State) (m : Nat) (drift : Int) (fwd rtt : Nat), m < 5 → s.dev.path.unstamped = [] →
    (let e := tblGetD s.dev.ring.skew m 0 + drift - (((rtt / 2 : Nat) : Int) - (fwd : Int))
     let aligned := fun (r : Ring) => { r with skew := tblPut r.skew m (((rtt / 2 : Nat) : Int) - (fwd : Int)), waking := r.waking.filter (· != m) }
     let good := s.dev.setFld (F.TIM_REPLICA_ERR m) 0 (sat16 (e * 1000 / 2 ^ 32))
     (e.natAbs ≤ 2 ^ 32 → s.dev.ring.owed = [] →
       exec (.replicaRealign m ⟨drift, fwd, rtt⟩) s = .next ⟨{ good with ring := { aligned s.dev.ring with withheld := s.dev.ring.withheld.filter (· != m) } }, s.pending⟩) ∧
     (∀ c n, e.natAbs ≤ 2 ^ 32 → s.dev.ring.owed = [(c, n)] → replicaOf (coreNode c) = some m →
       ∃ t, exec (.replicaRealign m ⟨drift, fwd, rtt⟩) s = .next t ∧ t.pending = s.pending ∧ t.dev.ring.owed = [] ∧ m ∉ t.dev.ring.withheld ∧
         ((t.dev.core c).ctr n).lastSig = t.dev.dieStamp (coreNode c) ∧ (∀ j, j ≠ c → t.dev.core j = s.dev.core j)) ∧
     (2 ^ 32 < e.natAbs → s.dev.ring.owed = [] →
       ∃ t, exec (.replicaRealign m ⟨drift, fwd, rtt⟩) s = .next t ∧ t.pending = s.pending ∧
         t.dev.flag F.TIM_STATUS_REPLICA_ERR 0 = true ∧
         t.dev.fld (F.TIM_REPLICA_COUNT m) 0 = satAdd 16 (s.dev.fld (F.TIM_REPLICA_COUNT m) 0) 1 ∧
         (m ∈ t.dev.ring.withheld ↔ 2 ^ 33 < e.natAbs ∨ m ∈ s.dev.ring.withheld) ∧
         bit (t.dev.fld F.FLT_CE_V 0) 41 = true ∧
         (∃ r : FaultRec, (s.dev.flt.next, r) ∈ t.dev.flt.log ∧ r.src = 41 ∧ r.cls = .corrected ∧ r.unit = m) ∧
         t.dev.ring = { aligned s.dev.ring with withheld := t.dev.ring.withheld } ∧
         t.dev = { s.dev with regs := t.dev.regs, ring := t.dev.ring, flt := t.dev.flt, tel := t.dev.tel, out := t.dev.out })))

/-- For every command, whatever its own rules are: while the device holds in BOOT_HOLD only NEGOTIATE and IDENTIFY
run, others are REFUSED with WRONG_STATE; a sideband endpoint that does not lead answers NOT_LEAD with the
lead and EPOCH; without an agreed command interface, or with another version in the entry, the answer is
VERSION_MISMATCH; then a reserved flag or slice number is BAD_FIELD, a path that the By column does not name
is NOT_PERMITTED, and in W3 only the commands of R415 run. A stopped command changes nothing but its ring and
completion. The order of the checks is the reading of log 9. (R371, R373, R374, R376, R415,
12_firmware_commands) -/
def Obligations.CommonChecksStopCommands : Prop :=
  ∀ (d : Dev) (c : Cmd) (op : Nat) (ps : List CmdPath) (body : Owner → Dev → Reply), d.readHeld (.cmdRing c.iss) = false → d.serves c.iss = true →
    quietRing ((d.takeEntry c op).cmdRing c.iss) = true → op ≠ 1 → op ≠ 2 →
    (d.scaler.boot = .hold → d.command c op ps body = replied (d.takeEntry c op) c op stRefused rsWrongState []) ∧
    (∀ die, d.scaler.boot ≠ .hold → c.iss = .side die → die ≠ d.scaler.lease.lead →
      ∃ res, d.command c op ps body = replied (d.takeEntry c op) c op stNotLead 0 res ∧
        res.take 1 = le 1 d.scaler.lease.lead.num ∧ (res.drop 4).take 4 = le 4 d.scaler.lease.epoch.toNat) ∧
    (d.scaler.boot ≠ .hold → (∀ die, c.iss = .side die → die = d.scaler.lease.lead) →
      ((d.agreedVer c.iss 1 = none ∨ c.version ≠ 0x0700) →
        d.command c op ps body = replied (d.takeEntry c op) c op stVersion 0 []) ∧
      (d.agreedVer c.iss 1 ≠ none → c.version = 0x0700 →
        ((c.flags.toNat ≥ 2 ∨ (c.slice ≥ 512 ∧ c.iss.path ≠ CmdPath.s)) →
          d.command c op ps body = replied (d.takeEntry c op) c op stRefused rsBadField []) ∧
        (c.flags.toNat < 2 → (c.slice < 512 ∨ c.iss.path = CmdPath.s) →
          (c.iss.path ∉ ps → d.command c op ps body = replied (d.takeEntry c op) c op stRefused rsNotPermitted []) ∧
          (c.iss.path ∈ ps → d.pwr.state = 3 → op ∉ w3Opcodes →
            d.command c op ps body = replied (d.takeEntry c op) c op stRefused rsWrongState []) ∧
          (c.iss.path ∈ ps → (d.pwr.state ≠ 3 ∨ op ∈ w3Opcodes) → Served d c op ps)))) 

/-- A mailbox completion fills the sixteen mailbox words with the entry of Table 12.6 and clears GO exactly when
it is final. A ring completion takes the next position, with the phase of that pass, while at most depth minus
2 entries are unconsumed and none is held; else it is held behind the others. A ring that is not enabled, or
was disabled since the fetch, gets none. A sideband endpoint answers at once. (R373, R375, R383, R384,
12_firmware_commands) -/
def Obligations.CompletionsReachTheirIssuer : Prop :=
  (∀ (d : Dev) (o : Owner) (k : Cpl) (p : Nat), o.iss = .mbox p → (d.cmdRing o.iss).gen = o.gen →
    (d.deliver o k).out = .completion o.iss 0 true k d.stamp :: d.out ∧
    (∀ i < 16, (d.deliver o k).fld (F.SCL_MBOX_DATA i) p = fieldAt (k.bytes true d.stamp) (4 * i) 4) ∧
    (k.final = true → (d.deliver o k).flag F.SCL_MBOX_CTRL_GO p = false) ∧
    (k.final = false → (d.deliver o k).flag F.SCL_MBOX_CTRL_GO p = d.flag F.SCL_MBOX_CTRL_GO p)) ∧
  (∀ (d : Dev) (o : Owner) (k : Cpl) (die : Die), o.iss = .side die →
    d.deliver o k = d.emit (.completion o.iss 0 true k d.stamp)) ∧
  (∀ (d : Dev) (o : Owner) (k : Cpl) (p : Nat), (o.iss = .pf0 p ∨ o.iss = .page p) →
    (d.ringEn o.iss = true → (d.cmdRing o.iss).gen = o.gen → (d.cmdRing o.iss).held = [] → d.roomFor o.iss = true →
      .completion o.iss ((d.cmdRing o.iss).writePos % d.ringDepth o.iss)
        ((d.cmdRing o.iss).writePos / d.ringDepth o.iss % 2 == 0) k d.stamp ∈ (d.deliver o k).out ∧
      ((d.deliver o k).cmdRing o.iss).writePos = (d.cmdRing o.iss).writePos + 1) ∧
    (d.ringEn o.iss = true → (d.cmdRing o.iss).gen = o.gen → ((d.cmdRing o.iss).held ≠ [] ∨ d.roomFor o.iss = false) →
      (d.deliver o k).out = d.out ∧ ((d.deliver o k).cmdRing o.iss).held = (d.cmdRing o.iss).held ++ [(k, o.noIrq)]) ∧
    ((d.ringEn o.iss = false ∨ (d.cmdRing o.iss).gen ≠ o.gen) → d.deliver o k = d) ∧
    (d.deliver o k).regs = d.regs ∧
    (∀ i : Issuer, i.key ≠ o.iss.key → (d.deliver o k).cmdRing i = d.cmdRing i))

/-- UCIE_LANE_REPAIR and UCIE_LINK_RETRAIN count Tally event 0x010 plus the link. A failed retrain is remembered,
and with two others of the last second the link leaves service. A link that leaves service is held at its
sources and raises one fault of source 40, contained while every two dies have a route and fatal otherwise.
REROUTE_RELEASE ends the hold, and the signals held for the link go out in order; a signal between dies on a
held link waits at its source. Commands for which it says that exec answers a next state with their effect,
under conditions on the state and the operands alone: ucieLaneRepair, ucieLinkRetrain, ucieLinkFail,
rerouteRelease. (R26, R27) -/
def Obligations.LinksRepairRetrainAndFail : Prop :=
  (∀ (s : State) (k : Nat), k < 13 →
    exec (.ucieLaneRepair k) s = .next ⟨s.dev.count (0x010 + k), s.pending⟩) ∧
  (∀ (s : State) (k : Nat), k < 13 → s.dev.cord.phase = .idle →
    exec (.ucieLinkRetrain k true) s = .next ⟨s.dev.count (0x010 + k), s.pending⟩) ∧
  (∀ (s : State) (k : Nat), k < 13 → s.dev.cord.phase = .idle →
    (s.dev.links.failed.filter (fun e => e.1 = k ∧ s.dev.clk - e.2 < sTicks 1)).length < 2 →
    ∃ t, exec (.ucieLinkRetrain k false) s = .next t ∧ t.pending = s.pending ∧ (k, s.dev.clk) ∈ t.dev.links.failed ∧
      t.dev.links.down = s.dev.links.down ∧ t.dev.links.held = s.dev.links.held ∧
      t.dev = { s.dev.count (0x010 + k) with links := t.dev.links }) ∧
  (∀ (s : State) (k : Nat), k < 13 → k ∉ s.dev.links.down → s.dev.cord.phase = .idle →
    2 ≤ (s.dev.links.failed.filter (fun e => e.1 = k ∧ s.dev.clk - e.2 < sTicks 1)).length →
    ∃ t, exec (.ucieLinkRetrain k false) s = .next t ∧ t.pending = s.pending ∧ k ∈ t.dev.links.down) ∧
  (∀ (s : State) (k : Nat), k < 13 → k ∉ s.dev.links.down → s.dev.cord.phase = .idle →
    ∃ t, exec (.ucieLinkFail k) s = .next t ∧ t.pending = s.pending ∧ t.dev.links.down = s.dev.links.down ++ [k] ∧
      k ∈ t.dev.links.held ∧ t.dev.links.failed = s.dev.links.failed ∧ bit (t.dev.fld F.FLT_STATUS_V 0) 40 = true ∧
      (∃ r : FaultRec, (s.dev.flt.next, r) ∈ t.dev.flt.log ∧ r.src = 40 ∧ r.unit = k ∧
        r.cls = (if t.dev.links.allRouted then .contained else .fatal)) ∧
      (t.dev.links.allRouted = true → t.dev.mill = s.dev.mill) ∧
      (t.dev.links.allRouted = false → t.dev.fatal = true ∧ ∀ e ∈ t.dev.mill.plans, e.2.state ≠ .running) ∧
      t.dev = { s.dev with links := t.dev.links, regs := t.dev.regs, flt := t.dev.flt, tel := t.dev.tel, out := t.dev.out,
                           cord := t.dev.cord, mill := t.dev.mill }) ∧
  (∀ (s : State) (k : Nat), (∀ m ∈ s.dev.links.msgs, m.1 ≠ k) →
    exec (.rerouteRelease k) s = .next ⟨{ s.dev with links := { s.dev.links with held := s.dev.links.held.filter (· != k) } }, s.pending⟩) ∧
  (∀ (s : State) (k c n : Nat), s.dev.links.msgs = [(k, c, n)] →
    exec (.rerouteRelease k) s = .next ⟨({ s.dev with links := { s.dev.links with held := s.dev.links.held.filter (· != k), msgs := [] } }).signal c n, s.pending⟩) ∧
  (∀ (d : Dev) (src : Node) (c n k : Nat), linkOf src (coreNode c) = some k →
    (k ∈ d.links.held → d.signalFrom src c n = { d with links := { d.links with msgs := d.links.msgs ++ [(k, c, n)] } }) ∧
    (k ∉ d.links.held → d.signalFrom src c n = d.signal c n))

/-- Each command is served, names a slot that holds a plan of a slice which the issuer manages, and has its unused
words 0. PLAN_HYPER with a positive finite binary32 or a zero sets LR_MUL. PLAN_EF_RESET of an ADMITTED plan
returns every residual to +0 and clears the marks of their granules. PLAN_STATUS writes the 64 B failure
report and, for a FREE slot, one of zeros but VERSION. PLAN_RETIRE of an ADMITTED or FAILED plan that no
checkpoint holds leaves the slot FREE; of a held one it completes later. All other parts of the device are as
before but for the completion and, while a checkpoint tracks granules, the copies that a write to the pages of
a plan makes first (R322). Commands for which it says that exec answers a next state with their effect, under
conditions on the state and the operands alone: planHyper, planEfReset, planStatus, planRetire. (R92, R110,
R137, R158, R114, 03_mill) -/
def Obligations.PlanCommandsActOnTheirSlot : Prop :=
  (∀ (s : State) (c : Cmd) (slot : Nat) (p : Plan), Served s.dev c 0x0106 [.m] → s.dev.cmdPlan c = .inr (slot, p) →
    zeroFrom c 2 = true → (c.w 1 < 0x7F800000 ∨ c.w 1 = 0x80000000) →
    exec (.planHyper c) s = .next ⟨replied ((s.dev.takeEntry c 0x0106).modPlan slot (fun q =>
      { q with lrMul := BitVec.ofNat 32 (c.w 1) })) c 0x0106 stOk 0 [], s.pending⟩) ∧
  (∀ (s : State) (c : Cmd) (slot : Nat) (p : Plan), Served s.dev c 0x0105 [.m] → s.dev.cmdPlan c = .inr (slot, p) →
    zeroFrom c 1 = true → p.state = .admitted →
    exec (.planEfReset c) s = .next ⟨replied (((s.dev.takeEntry c 0x0105).rewriteResids p).modPlan slot (fun q =>
      { q with streams := q.streams.map (fun x => { x with resid := [], residNew := [] }) })) c 0x0105 stOk 0 [], s.pending⟩) ∧
  (∀ (d : Dev) (p : Plan) (off n : Nat), (d.cord.pending = [] → d.touchPlan p off n = d) ∧
    d.touchPlan p off n = { d with cord := (d.touchPlan p off n).cord, regs := (d.touchPlan p off n).regs, freeCtr := (d.touchPlan p off n).freeCtr } ∧
    d.rewritePlan p off n = { d.touchPlan p off n with mem := { d.mem with poison := (d.rewritePlan p off n).mem.poison } }) ∧
  (∀ (s : State) (c : Cmd), Served s.dev c 0x0107 [.m] → c.w 0 < 64 → zeroFrom c 2 = true → s.dev.plan (c.w 0) = none →
    exec (.planStatus c) s = .next ⟨replied ((s.dev.takeEntry c 0x0107).report (s.dev.ownerOf c 0x0107) (c.w 1)
      (le 2 0x0100 ++ zeros 62)) c 0x0107 stOk 0 [], s.pending⟩) ∧
  (∀ (s : State) (c : Cmd) (slot : Nat) (p : Plan), Served s.dev c 0x0107 [.m] → s.dev.cmdPlan c = .inr (slot, p) →
    zeroFrom c 2 = true →
    exec (.planStatus c) s = .next ⟨replied ((s.dev.takeEntry c 0x0107).report (s.dev.ownerOf c 0x0107) (c.w 1)
      (failReport (if p.state = .failed then p.fail else none))) c 0x0107 stOk 0 [], s.pending⟩) ∧
  (∀ (s : State) (c : Cmd) (slot : Nat) (p : Plan), Served s.dev c 0x0104 [.m] → s.dev.cmdPlan c = .inr (slot, p) →
    zeroFrom c 1 = true → (p.state = .admitted ∨ p.state = .failed) → s.dev.cordHolds p = false →
    ∃ e : Dev, exec (.planRetire c) s = .next ⟨replied e c 0x0104 stOk 0 [], s.pending⟩ ∧ e.plan slot = none ∧
      e = (s.dev.takeEntry c 0x0104).retire slot) ∧
  (∀ (s : State) (c : Cmd) (slot : Nat) (p : Plan), Served s.dev c 0x0104 [.m] → s.dev.cmdPlan c = .inr (slot, p) →
    zeroFrom c 1 = true → (p.state = .admitted ∨ p.state = .failed) → s.dev.cordHolds p = true →
    exec (.planRetire c) s = .next ⟨replied ((s.dev.takeEntry c 0x0104).modPlan slot (fun q =>
      { q with retireOwner := some (s.dev.ownerOf c 0x0104) })) c 0x0104 stDeferred 0 [], s.pending⟩)

/-- A served PLAN_START of an ADMITTED or FAILED plan, slice ACTIVE, no fatal fault, boot RUNNING and power below
W2, leaves the plan RUNNING without failure: with P = 1 it completes with OK and the step runs as REDO exactly
when one had begun; else its own values wait in the start exchange, the command is deferred and the missing
sessions with the peers are opened, or the exchange begins if they are all open. A served PLAN_STOP of a
RUNNING plan completes at once when no step is armed; with MODE 1 it aborts the step and the residuals are
stale; with MODE 0 the plan is STOPPING until its step ends. The other slots keep their plans. Commands for
which it says that exec answers a next state with their effect, under conditions on the state and the operands
alone: planStart, planStop. (R110, R111, R112, R159, R136, 04_collectives) -/
def Obligations.PlanStartAndStop : Prop :=
  (∀ (s : State) (c : Cmd) (slot : Nat) (p : Plan), Served s.dev c 0x0102 [.m] → s.dev.cmdPlan c = .inr (slot, p) →
    zeroFrom c 1 = true → (p.state = .admitted ∨ p.state = .failed) → (s.dev.slice p.slice).state = .active →
    s.dev.fatal = false → s.dev.scaler.boot = .running → s.dev.pwr.state < 2 → p.startX = none → ∀ init,
    (let same := fun (e : Dev) => (∀ n, n ≠ slot → e.plan n = s.dev.plan n) ∧
       ((p.started = true ∨ ∀ o ∈ p.cfg.opts, o.init = false) →
         e = { s.dev.takeEntry c 0x0102 with mill := e.mill, tally := e.tally, cord := e.cord, regs := e.regs, freeCtr := e.freeCtr, mem := { s.dev.mem with poison := e.mem.poison } } ∧
         (s.dev.cord.pending = [] → e = { s.dev.takeEntry c 0x0102 with mill := e.mill, tally := e.tally, mem := { s.dev.mem with poison := e.mem.poison } }))
    (p.cfg.np = 1 → ∃ (e : Dev) (q : Plan), exec (.planStart c init) s = .next ⟨replied e c 0x0102 stOk 0 [], s.pending⟩ ∧
      e.plan slot = some q ∧ q.state = .running ∧ q.fail = none ∧ q.started = true ∧ q.step = p.step ∧
      q.rerun = (if p.begun then .redo else .normal) ∧ q.begun = p.begun ∧ q.cfg = p.cfg ∧ same e) ∧
    (p.cfg.np ≠ 1 → ∃ (e : Dev) (q : Plan), exec (.planStart c init) s = .next ⟨(replied e c 0x0102 stDeferred 0 []).kickPlan (some slot), s.pending⟩ ∧
      e.plan slot = some q ∧ q.state = .running ∧ q.fail = none ∧ q.started = true ∧ q.step = p.step ∧
      (∃ x, q.startX = some x ∧ x.own = s.dev.ownerOf c 0x0102 ∧ x.vals = [⟨p.rank, p.step, p.begun, p.applied, p.digest3⟩] ∧ x.sent = false) ∧ same e))) ∧
  (∀ (s : State) (c : Cmd) (slot : Nat) (p : Plan), Served s.dev c 0x0103 [.m] → s.dev.cmdPlan c = .inr (slot, p) →
    zeroFrom c 2 = true → c.w 1 < 2 → p.state = .running →
    ((p.armed = false ∨ (p.held = true ∧ p.took = false)) → p.startX = none →
      ∃ (e : Dev) (q : Plan), exec (.planStop c) s = .next ⟨replied e c 0x0103 stOk 0 [], s.pending⟩ ∧
        e.plan slot = some q ∧ q.state = .admitted ∧ q.step = (if p.serving then p.step + 1 else p.step) ∧ q.efStale = p.efStale ∧
        e = { s.dev.takeEntry c 0x0103 with mill := e.mill, kerf := e.kerf, skid := e.skid }) ∧
    (p.armed = true → (p.held = false ∨ p.took = true) → c.w 1 = 1 →
      ∃ (e : Dev) (q : Plan), exec (.planStop c) s = .next ⟨replied e c 0x0103 stOk 0 [], s.pending⟩ ∧
        e.plan slot = some q ∧ q.state = .admitted ∧ q.efStale = true ∧
        e = { s.dev.takeEntry c 0x0103 with mill := e.mill, kerf := e.kerf, skid := e.skid, out := e.out }) ∧
    (p.armed = true → (p.held = false ∨ p.took = true) → c.w 1 = 0 →
      exec (.planStop c) s = .next ⟨replied ((s.dev.takeEntry c 0x0103).modPlan slot (fun q =>
        { q with state := .stopping, stopOwner := some (s.dev.ownerOf c 0x0103) })) c 0x0103 stDeferred 0 [], s.pending⟩))

/-- A served PLAN_ADMIT for an ACTIVE PF0 slice that the issuer manages, with the agreed plan interface, an image
of the stated length that passes the checks of R105, a good signature or none demanded, orthogonal transforms,
free fixed resources and free LPDDR pages: it completes with OK and the slot in RESULT, the slot was FREE, and
the plan there is ADMITTED for that slice at STEP0 with the digest of the image; the other slots keep their
plans. While the pool is being zeroed and pages would be given out, the admission is held with ADMIT_BUSY set
and no completion. An image of another interface version is answered with VERSION_MISMATCH. Commands for which
it says that exec answers a next state with their effect, under conditions on the state and the operands
alone: planAdmit. (R104, R105, R106, R107, R167, 03_mill) -/
def Obligations.PlanAdmissionPlacesThePlan : Prop :=
  (∀ (s : State) (c : Cmd) (im : List Byte) (sigOk : Bool) (p : PlanCfg) (r : Res) (d' d'' : Dev) (runs : List Run),
    Served s.dev c 0x0101 [.m] → zeroFrom c 3 = true → s.dev.mayName c = true → s.dev.mill.admitBusy = false →
    (s.dev.slice c.slice).kind = .pf0 → (s.dev.slice c.slice).state = .active → s.dev.agreedVer c.iss 2 = some (half im 0) →
    c.w 1 = fieldAt im 8 4 → c.w 1 = im.length → planCheck im s.dev.node (s.dev.slice c.slice).holds = .inr p →
    ((p.signed = false ∧ s.dev.signedPlans = false) ∨ sigOk = true) →
    p.xforms.all (fun x => x.kind ≠ 1 || orthogonal x) = true →
    (s.dev.takeEntry c 0x0101).fixedRes c.slice p (p.sched.peers.findIdx (· == s.dev.node)) = .inr (r, d') →
    d'.allocPages c.slice r.slot (pagesFor p.lpddrBytes) = some (runs, d'') →
    pagesFor p.lpddrBytes ≤ d'.sliceFreePages c.slice →
    (s.dev.flag F.MEM_STATUS_ZERO_BUSY 0 = true → runs ≠ [] →
      exec (.planAdmit c (some im) sigOk) s = .next ⟨
        (let d := s.dev.takeEntry c 0x0101
         { d with mill := { d.mill with waiting := d.mill.waiting ++ [⟨c, s.dev.ownerOf c 0x0101, .plan (some im) sigOk⟩], admitBusy := true } }), s.pending⟩) ∧
    (s.dev.flag F.MEM_STATUS_ZERO_BUSY 0 = false → ∃ (e : Dev) (q : Plan), exec (.planAdmit c (some im) sigOk) s = .next ⟨replied e c 0x0101 stOk 0 (le 1 r.slot), s.pending⟩ ∧
      e.plan r.slot = some q ∧ q.state = .admitted ∧ q.slice = c.slice ∧ q.cfg = p ∧ q.digest = digest im ∧
      q.step = p.step0 ∧ q.lrMul = 0x3F800000 ∧ s.dev.plan r.slot = none ∧ r.slot < 64 ∧
      (∀ n, n < r.slot → s.dev.plan n ≠ none) ∧ (∀ n, n ≠ r.slot → e.plan n = s.dev.plan n))) ∧
  (∀ (s : State) (c : Cmd) (im : List Byte) (sigOk : Bool),
    Served s.dev c 0x0101 [.m] → zeroFrom c 3 = true → s.dev.mayName c = true → s.dev.mill.admitBusy = false →
    (s.dev.slice c.slice).kind = .pf0 → (s.dev.slice c.slice).state = .active → s.dev.agreedVer c.iss 2 ≠ some (half im 0) →
    ∃ e : Dev, exec (.planAdmit c (some im) sigOk) s = .next ⟨replied e c 0x0101 stVersion 0 [], s.pending⟩ ∧
      e.mill = s.dev.mill ∧ e.mem = s.dev.mem)

/-- UNIT_OUT_OF_SERVICE of a unit in service leaves it out of service, clears its UNIT_UP bit, sets DEGRADED,
raises one contained fault of its compute die and marks the plans that use the unit. MIL_EVT_CLR with bit 0
zeroes the event counts of the plan that the function selected and manages; one of a slice it does not manage
is discarded and counted, and with no plan in the slot nothing changes. Commands for which it says that exec
answers a next state with their effect, under conditions on the state and the operands alone:
unitOutOfService, milEvtClrWrite. (R113, R114, R115, R78) -/
def Obligations.UnitsAndEventCounts : Prop :=
  (∀ (s : State) (n : Nat), n < 16 → (s.dev.unit n).state ≠ 3 →
    ∃ t, exec (.unitOutOfService n) s = .next t ∧ t.pending = s.pending ∧ (t.dev.unit n).state = 3 ∧
      (t.dev.unit n).role = (s.dev.unit n).role ∧ (∀ k, k ≠ n → t.dev.unit k = s.dev.unit k) ∧
      bit (t.dev.fld F.MIL_STATUS_UNIT_UP 0) n = false ∧ t.dev.flag F.MIL_STATUS_DEGRADED 0 = true ∧
      bit (t.dev.fld F.FLT_STATUS_V 0) (24 + n % 8 / 2) = true ∧
      (∀ slot p, s.dev.plan slot = some p →
        t.dev.plan slot = some { p with degraded := p.degraded || (p.xArrays.contains n || p.gArrays.contains n ||
          (n ≥ 8 && (p.state == .running || p.state == .stopping))) }) ∧
      t.dev = { s.dev with regs := t.dev.regs, flt := t.dev.flt, tel := t.dev.tel, out := t.dev.out, mill := t.dev.mill }) ∧
  (∀ (s : State) (port : Nat) (v : W32) (p : Plan), s.dev.plan (s.dev.fld F.MIL_PLAN_SEL_SLOT port) = some p →
    (s.dev.manages port p.slice = true → v.getLsbD 0 = true →
      exec (.milEvtClrWrite port v) s = .next ⟨s.dev.modPlan (s.dev.fld F.MIL_PLAN_SEL_SLOT port) (fun q =>
        { q with events := Events.zero }), s.pending⟩) ∧
    (s.dev.manages port p.slice = false →
      exec (.milEvtClrWrite port v) s = .next ⟨s.dev.count itMilDiscard, s.pending⟩)) ∧
  (∀ (s : State) (port : Nat) (v : W32), s.dev.plan (s.dev.fld F.MIL_PLAN_SEL_SLOT port) = none →
    exec (.milEvtClrWrite port v) s = .next s)

/-- STEP_ARM of a RUNNING plan between steps completes: it arms the plan, latches LR_MUL and starts its step
programs. A signal for a stream that the accelerator contributes to, and may signal by R118, completes and
sets its ready latch; one that R118 or the page rules refuse completes as lost and counted. INTAKE_START with
all latches set completes and begins INTAKE; INTAKE_END completes, clears the latches and leaves the
intra-node sum, which on one device is the reduced gradient. The completion of a residual fetch in turn stages
the chunk during INTAKE, or source-quantizes it and begins or goes on with REDUCE; that of a write-back makes
the new residuals the kept ones and clears the marks of their granules. Other slots and other parts of the
device are as before. Commands for which it says that exec answers a next state with their effect, under
conditions on the state and the operands alone: stepArm, planSignalWrite, intakeStart, intakeEnd,
residualFetchDone, residualWritebackDone. (R89, R111, R117, R118, R124, R126, R137, 04_collectives) -/
def Obligations.StepIsArmedAndTakesItsInputs : Prop :=
  (∀ (s : State) (slot : Nat) (p : Plan), s.dev.plan slot = some p → p.state = .running → p.armed = false → p.startX = none →
    p.held = false → p.heldPower = false →
    ∃ t, exec (.stepArm slot) s = .next t ∧ t.pending = s.pending ∧
      t.dev.plan slot = some { p with armed := true, lrStep := p.lrMul, aborted := false, kappa := 0x3F800000, preDone := false, postDone := false, maxima := [], running := (p.cfg.progs.filter (fun g => g.kind = 0)).map (·.lcore), groups := p.groups.map (fun g => { g with started := false, done := false }) } ∧
      (∀ n, n ≠ slot → t.dev.plan n = s.dev.plan n) ∧ t.dev = { s.dev with mill := t.dev.mill, kerf := t.dev.kerf }) ∧
  (∀ (s : State) (via : Via) (slot n : Nat) (v : W32) (p : Plan) (c : StreamCfg), s.dev.pageOk via 4 4 false = some n →
    s.dev.plan slot = some p → p.cfgOf (bits v.toNat 0 24) = some c → p.slice = n → p.state = .running → v.toNat < 2 ^ 27 →
    c.kind ≤ 2 → bits v.toNat 24 3 ∈ p.contributors c → bits v.toNat 24 3 ∉ (p.stOf (bits v.toNat 0 24)).latches →
    (p.maySignal (bits v.toNat 0 24) (bits v.toNat 24 3) = true →
      exec (.planSignalWrite via slot 4 v false) s = .next ⟨s.dev.modStream slot (bits v.toNat 0 24) (fun x =>
        { x with latches := x.latches ++ [bits v.toNat 24 3], signalled := addOnce x.signalled (bits v.toNat 24 3) }), s.pending⟩) ∧
    (p.maySignal (bits v.toNat 0 24) (bits v.toNat 24 3) = false →
      exec (.planSignalWrite via slot 4 v false) s = .next ⟨s.dev.bellLost via, s.pending⟩)) ∧
  (∀ (s : State) (via : Via) (slot size : Nat) (v : W32) (poisoned : Bool), s.dev.pageOk via size 4 poisoned = none →
    exec (.planSignalWrite via slot size v poisoned) s = .next ⟨(s.dev.bellLost via).notePoison via poisoned, s.pending⟩) ∧
  (∀ (s : State) (slot k : Nat) (p : Plan) (c : StreamCfg), s.dev.plan slot = some p → p.cfgOf k = some c →
    k < p.streams.length → p.runs = true → (p.held = false ∨ p.took = true) → p.rerun ≠ .gatherOnly → c.kind ≤ 2 →
    (p.stOf k).phase = 0 → (p.contributors c).all (fun a => (p.stOf k).latches.contains a) = true →
    ∃ t q, exec (.intakeStart slot k) s = .next t ∧ t.pending = s.pending ∧ t.dev.plan slot = some q ∧ q.begun = true ∧
      q.stOf k = { p.stOf k with phase := 1, ended := false } ∧ t.dev = { s.dev with mill := t.dev.mill, ports := t.dev.ports, out := t.dev.out }) ∧
  (∀ (s : State) (slot k : Nat) (parts : List PartRead) (p : Plan) (c : StreamCfg), s.dev.plan slot = some p →
    p.cfgOf k = some c → k < p.streams.length → p.runs = true → (p.stOf k).phase = 1 → (p.stOf k).ended = false →
    ((∃ a ∈ p.contributors c, s.dev.readHeld (.intake slot k a) = true) → exec (.intakeEnd slot k parts) s = .next s) ∧
    ((∀ a ∈ p.contributors c, s.dev.readHeld (.intake slot k a) = false) →
     let r := nodeSum (Desc.of c.inFmt) c.elements (p.partsRead c parts)
     let sh := (p.outTen c).shard 1 0
     (p.cfg.np = 1 → ∃ t q, exec (.intakeEnd slot k parts) s = .next t ∧ t.pending = s.pending ∧ t.dev.plan slot = some q ∧
       (q.stOf k).latches = [] ∧ (q.stOf k).phase = 3 ∧ (q.stOf k).ended = true ∧ (q.stOf k).grad = p.toGrad k c (sub r.1 sh.1 sh.2) ∧
       t.dev = { s.dev with mill := t.dev.mill, tally := t.dev.tally, kerf := t.dev.kerf }) ∧
     (p.cfg.np ≠ 1 → c.kind ≠ 1 → c.resid ≠ 0xFF → (p.stOf k).fetched = [] → ∃ t q, exec (.intakeEnd slot k parts) s = .next t ∧
       t.pending = s.pending ∧ t.dev.plan slot = some q ∧ (q.stOf k).latches = [] ∧ (q.stOf k).phase = 2 ∧
       (q.stOf k).nodeSum = r.1 ∧ (q.stOf k).sourced = 0 ∧
       t.dev = { s.dev with mill := t.dev.mill, tally := t.dev.tally, kerf := t.dev.kerf }))) ∧
  (∀ (s : State) (slot k first count : Nat) (p : Plan) (c : StreamCfg), s.dev.plan slot = some p → p.cfgOf k = some c →
    p.runs = true → c.resid ≠ 0xFF → p.cfg.np ≠ 1 → first = (p.stOf k).nextChunk → first < p.rotLen c → count ≠ 0 →
    (p.stOf k).ended = false →
    ((p.stOf k).phase = 1 → c.kind ≠ 1 →
     (let stop := ((p.units c).filter (fun u => u.1 < first + count)).foldl (fun m u => max m (u.1 + u.2)) first
      exec (.residualFetchDone slot k first count) s = .next ⟨s.dev.modStream slot k (fun x =>
        { x with fetched := x.fetched ++ [(first, stop - first)] }), s.pending⟩)) ∧
    (((p.stOf k).phase = 2 ∨ (p.stOf k).phase = 3) → c.kind ≠ 1 →
     (let q := p.sourceUnits c (s.dev.residBad p k c) ((p.units c).filter (fun u => (p.stOf k).sourced ≤ u.1 && u.1 < first + count)) (p.stOf k)
      exec (.residualFetchDone slot k first count) s = .next ⟨((s.dev.modStream slot k (fun _ => { q.1.1 with
        phase := 3, ended := false
        residNew := if c.resid = 0xFF ∨ q.1.2.isEmpty then (p.stOf k).residNew
          else (p.stOf k).residNew ++ [((p.stOf k).sourced, q.1.2.map (BitVec.ofNat 64))] })).addEvents slot q.2).exStart slot k, s.pending⟩)) ∧
    ((p.stOf k).phase = 2 → c.kind = 1 →
      exec (.residualFetchDone slot k first count) s = .next ⟨s.dev.lowSource slot k, s.pending⟩)) ∧
  (∀ (s : State) (slot k first : Nat) (p : Plan) (els : List W64), s.dev.plan slot = some p → k < p.streams.length →
    (p.stOf k).residNew.find? (fun e => e.1 = first) = some (first, els) →
    ∃ t q, exec (.residualWritebackDone slot k first) s = .next t ∧ t.pending = s.pending ∧ t.dev.plan slot = some q ∧
      (q.stOf k).residNew = (p.stOf k).residNew.filter (fun x => x.1 != first) ∧
      (q.stOf k).resid = putEls ((p.stOf k).resid ++ List.replicate (first - (p.stOf k).resid.length) 0) first els ∧
      (∀ c, s.dev.cord.pending = [] → p.cfgOf k = some c →
        (let marks := (s.dev.planRanges p (p.residOff k + first * c.residBytes) (els.length * c.residBytes)).foldl (fun m r =>
           marksAfter m r.1 r.2 false) s.dev.mem.poison
         t.dev = { s.dev with mill := t.dev.mill, mem := { s.dev.mem with poison := marks } })) ∧
      t.dev = { s.dev with
        mill := t.dev.mill, cord := t.dev.cord, regs := t.dev.regs, freeCtr := t.dev.freeCtr
        mem := { s.dev.mem with poison := t.dev.mem.poison } })

/-- On a plan of one level-less schedule SCALAR_PRE completes at once with the clip factor and the decision to
skip, SCALAR_POST with the maxima. UPDATE_START completes and leaves the computed state of each stream of the
group uncommitted; UPDATE_END completes: it commits it, advances t and marks the group done. GATHER_START of a
parameter stream completes and leaves the owned values; a skipped step sends none. READY_RECORD_WRITE
completes once per accelerator, on the port that carried the data. STEP_END completes and advances the step
and, on a STOPPING plan, leaves it ADMITTED; messages that collective queue pairs held for room in the trigger
table are looked at again. Commands for which it says that exec answers a next state with their effect, under
conditions on the state and the operands alone: scalarPreStart, scalarPostStart, updateStart, updateEnd,
gatherStart, readyRecordWrite, stepEnd. (R132, R139, R140, R143, R116, R111, R212, 04_collectives) -/
def Obligations.ScalarsUpdatesAndGather : Prop :=
  (∀ (s : State) (slot : Nat) (p : Plan), s.dev.plan slot = some p → p.runs = true → p.cfg.sched.levels = [] →
    (p.rerun ≠ .gatherOnly → p.needsPre = true → p.preDone = false → p.scal = none → p.cfg.opts.all p.reduced = true →
      ∃ t q, exec (.scalarPreStart slot) s = .next t ∧ t.pending = s.pending ∧ t.dev.plan slot = some q ∧ q.preDone = true ∧
        q.scal = none ∧ q.kappa = (clipFactor p.cfg.sched.clip (joinAll 1 [(0, p.preVals.1)]).1.sumsq.toNat).1 ∧
        q.skipped = (p.cfg.sched.skipNonfinite && (joinAll 1 [(0, p.preVals.1)]).1.nonfinite > 0 && !p.applied) ∧
        t.dev = { s.dev with mill := t.dev.mill, tally := t.dev.tally, kerf := t.dev.kerf }) ∧
    (p.scaleStreams ≠ [] → p.postDone = false → p.scal = none → p.skipped = false →
      (∀ k ∈ p.scaleStreams, ∀ x, p.cfgOf k = some x → p.groupDone x.gradOf = true) →
      ∃ t q, exec (.scalarPostStart slot) s = .next t ∧ t.pending = s.pending ∧ t.dev.plan slot = some q ∧ q.postDone = true ∧
        q.scal = none ∧ q.maxima = (joinAll 1 [(0, p.postVals.1)]).1.maxima ∧
        t.dev = { s.dev with mill := t.dev.mill, tally := t.dev.tally, kerf := t.dev.kerf })) ∧
  (∀ (s : State) (slot g : Nat) (p : Plan) (o : OptCfg), s.dev.plan slot = some p → p.cfg.opts[g]? = some o →
    p.mayUpdate g o = true → p.updates = true → o.kind ≠ 0x0F →
    ∃ t q, exec (.updateStart slot g) s = .next t ∧ t.pending = s.pending ∧ t.dev.plan slot = some q ∧
      (∀ k, k ∈ o.streams → k < p.streams.length → (q.stOf k).upd = some (p.updateStream o.kind (p.groupScal g o).1 k (s.dev.gradMarked p k)).1 ∧
        (q.stOf k).phase = 5 ∧ (q.stOf k).grad = s.dev.gradMarked p k ∧
        (q.stOf k).theta = (p.stOf k).theta ∧ (q.stOf k).m = (p.stOf k).m ∧ (q.stOf k).v = (p.stOf k).v) ∧
      (∀ k, k ∉ o.streams → q.stOf k = p.stOf k) ∧ (∀ x, q.groups[g]? = some x → x.started = true) ∧
      t.dev = { s.dev with mill := t.dev.mill, tally := t.dev.tally }) ∧
  (∀ (s : State) (slot g : Nat) (p : Plan) (o : OptCfg) (x : GroupSt), s.dev.plan slot = some p → p.cfg.opts[g]? = some o →
    p.groups[g]? = some x → p.runs = true → x.started = true → x.done = false → s.dev.programRuns slot g = false →
    o.kind ≠ 0x0F → p.spillBytes = 0 →
    ∃ t q, exec (.updateEnd slot g) s = .next t ∧ t.pending = s.pending ∧ t.dev.plan slot = some q ∧
      q.groups[g]? = some { x with done := true, t := if p.updates then (x.t + 1) % 2 ^ 32 else x.t } ∧
      (∀ k u, k ∈ o.streams → k < p.streams.length → (p.stOf k).upd = some u →
        q.stOf k = { p.stOf k with theta := u.1, m := u.2.1, v := u.2.2.1, w := u.2.2.2, upd := none, ended := true }) ∧
      (∀ k, k ∉ o.streams → q.stOf k = p.stOf k) ∧ (s.dev.cord.pending = [] → t.dev = { s.dev with mill := t.dev.mill }) ∧
      t.dev = { s.dev with mill := t.dev.mill, cord := t.dev.cord, regs := t.dev.regs, freeCtr := t.dev.freeCtr }) ∧
  (∀ (s : State) (slot k : Nat) (p : Plan) (c : StreamCfg), s.dev.plan slot = some p → p.cfgOf k = some c →
    k < p.streams.length → p.mayGather k c = true → c.kind = 3 → p.cfg.sched.levels = [] →
    (p.skipped = true → ∃ t q, exec (.gatherStart slot k) s = .next t ∧ t.pending = s.pending ∧ t.dev.plan slot = some q ∧
      (q.stOf k).phase = 8 ∧ (q.stOf k).ended = false ∧ (q.stOf k).tscale = 0 ∧ t.dev.out = s.dev.out) ∧
    (p.skipped = false → ∃ t q, exec (.gatherStart slot k) s = .next t ∧ t.pending = s.pending ∧ t.dev.plan slot = some q ∧
      (q.stOf k).phase = 8 ∧ (q.stOf k).ended = false ∧ (q.stOf k).tscale = p.scaleOf k c ∧
      (let sh := (p.outTen c).shard p.cfg.np p.rank
       (q.stOf k).outp = putEls (List.replicate c.elements none) sh.1 ((padTo sh.2 El.zero (p.ownOut k c).1).map some)))) ∧
  (∀ (s : State) (slot k a : Nat) (p : Plan) (c : StreamCfg) (data r : Region), s.dev.plan slot = some p → p.cfgOf k = some c →
    p.runs = true → (p.stOf k).phase = 8 → a ∉ (p.stOf k).ready → p.serving = false → p.preOver = true →
    (p.destRegs c).find? (fun r => r.mask.getLsbD a) = some data → p.cfg.sched.regions[p.cfg.sched.readyReg + a]? = some r →
    exec (.readyRecordWrite slot k a) s = .next ⟨(s.dev.dmaSlice p.slice data.port (r.addr + 16 * k)
      (le 8 p.step.toNat ++ le 4 (p.stOf k).tscale.toNat ++ le 4 (b2n p.skipped)) [] false).modStream slot k (fun x =>
        { x with ready := x.ready ++ [a] }), s.pending⟩) ∧
  (∀ (s : State) (slot : Nat) (p : Plan), s.dev.plan slot = some p → p.runs = true → p.running = [] → p.preOver = true →
    (∀ k < p.cfg.streams.length, ∀ c, p.cfgOf k = some c → p.streamDone k c = true) → p.nextRedo = false → (∀ e ∈ s.dev.skid.qps, e.2.isColl = false) →
    (p.state = .running → ∃ t q, exec (.stepEnd slot) s = .next t ∧ t.pending = s.pending ∧ t.dev.plan slot = some q ∧
      q.state = .running ∧ q.step = p.step + 1 ∧ q.armed = false ∧ q.begun = (p.serving && p.begun) ∧ q.applied = (p.serving && p.applied) ∧ q.skipped = false ∧
      q.rerun = .normal ∧ (∀ k, (q.stOf k).theta = (p.stOf k).theta ∧ (q.stOf k).latches = (p.stOf k).latches ∧
        (q.stOf k).signalled = (p.stOf k).latches) ∧
      t.dev = { s.dev with mill := t.dev.mill, skid := t.dev.skid }) ∧
    (p.state = .stopping → p.stopOwner = none → ∃ t q, exec (.stepEnd slot) s = .next t ∧ t.pending = s.pending ∧
      t.dev.plan slot = some q ∧ q.state = .admitted ∧ q.step = p.step + 1 ∧
      t.dev = { s.dev with mill := t.dev.mill, skid := t.dev.skid, kerf := t.dev.kerf }))

/-- A REDUCE, GATHER or scalar message that names no plan of the device is counted and discarded; one of the next
step, or of a plan between steps, waits; each completes. A scalar message joins what is kept for its step and
level and runs the exchange on. Start values are added to the exchange in progress; until it has begun here
they are kept for it (a choice of the model, log 39). A start timeout, a peer timeout of a receive that waits,
and an ABORT complete and leave the plan FAILED, with the reason, the failed node and the origin of the
report, and no other slot changed. A second ABORT only counts in the report. The outcomes of equal steps are
those of Table 4.17. Commands for which it says that exec answers a next state with their effect, under
conditions on the state and the operands alone: reduceDataReceive, gatherDataReceive, scalarReceive,
startReceive, startWaitTimeout, peerTimeout, abortReceive. (R133, R138, R155, R156, R157, R159,
04_collectives) -/
def Obligations.CollectiveMessagesAndFailures : Prop :=
  (∀ (s : State) (m : CollMsg), s.dev.msgPlan m.version m.planId m.digest3 m.slice m.origin = none →
    exec (.reduceDataReceive m) s = .next ⟨s.dev.count itCollLost, s.pending⟩ ∧
    exec (.gatherDataReceive m) s = .next ⟨s.dev.count itCollLost, s.pending⟩ ∧
    ∀ post vals, exec (.scalarReceive m post vals) s = .next ⟨s.dev.count itCollLost, s.pending⟩) ∧
  (∀ (s : State) (m : CollMsg) (slot : Nat) (p : Plan),
    s.dev.msgPlan m.version m.planId m.digest3 m.slice m.origin = some slot → s.dev.plan slot = some p →
    (p.state = .running ∨ p.state = .stopping) → (m.step = p.step ∨ m.step = p.step + 1) →
    (let k := p.cfg.streams.findIdx (fun x => x.num = m.stream)
     k < p.cfg.streams.length → (m.step ≠ p.step ∨ p.runs = false) →
      exec (.reduceDataReceive m) s = .next ⟨s.dev.modStream slot k (fun x => { x with early := x.early ++ [(1, m)] }), s.pending⟩ ∧
      exec (.gatherDataReceive m) s = .next ⟨s.dev.modStream slot k (fun x => { x with early := x.early ++ [(2, m)] }), s.pending⟩) ∧
    (let k := p.cfg.streams.findIdx (fun x => x.num = m.stream)
     k < p.cfg.streams.length → m.step = p.step → p.runs = true → (p.stOf k).exchanging = true → ∀ d',
      (s.dev.exTake slot k 1 m = some d' → exec (.reduceDataReceive m) s = .next ⟨d'.exRun slot k exFuel, s.pending⟩) ∧
      (s.dev.exTake slot k 2 m = some d' → exec (.gatherDataReceive m) s = .next ⟨d'.exRun slot k exFuel, s.pending⟩)) ∧
    (∀ post vals, exec (.scalarReceive m post vals) s = .next ⟨(s.dev.modPlan slot (fun q =>
        { q with earlyS := q.earlyS ++ [(m.step, m.level, post, vals)] })).scalRun slot exFuel, s.pending⟩) ∧
    (∀ post vals, p.scal = none → exec (.scalarReceive m post vals) s = .next ⟨s.dev.modPlan slot (fun q =>
        { q with earlyS := q.earlyS ++ [(m.step, m.level, post, vals)] }), s.pending⟩)) ∧
  (∀ (s : State) (m : CollMsg) (vals : List StartVal) (slot : Nat) (p : Plan),
    (s.dev.mill.plans.find? (fun e => e.2.slice = m.slice && e.2.cfg.planId == m.planId && m.version == 0x0100 &&
      e.2.peers.contains m.origin)).map (·.1) = some slot → s.dev.plan slot = some p →
    ((p.startX = none ∨ ∃ x, p.startX = some x ∧ x.sent = false) → exec (.startReceive m vals) s = .next ⟨s.dev.modPlan slot (fun q =>
      { q with earlyStart := addVals vals q.earlyStart }), s.pending⟩) ∧
    (∀ x, p.startX = some x → x.sent = true → exec (.startReceive m vals) s = .next ⟨(s.dev.modPlan slot (fun q =>
      { q with startX := some { x with vals := addVals x.vals vals } })).startRun slot exFuel, s.pending⟩)) ∧
  (∀ (own : W64) (vs : List StartVal), vs ≠ [] → (∀ v ∈ vs, v.step = own) →
    startOutcome own vs = some (own, if vs.any (·.begun) then .redo else .normal, false, false)) ∧
  (∀ (s : State) (slot : Nat) (p : Plan), s.dev.plan slot = some p → ∀ x, p.startX = some x →
    ∃ (e : Dev) (q : Plan) (f : Failure), exec (.startWaitTimeout slot) s = .next ⟨e.finish x.own stRefused 0x16 [], s.pending⟩ ∧
      e.plan slot = some q ∧ q.state = .failed ∧ q.fail = some f ∧ f.reason = 5 ∧ ∀ n, n ≠ slot → e.plan n = s.dev.plan n) ∧
  (∀ (s : State) (slot level peer : Nat) (p : Plan), s.dev.plan slot = some p →
    (p.runs = true → 1 ≤ level → peer ∈ p.awaited (level - 1) → ∃ t q f, exec (.peerTimeout slot level peer) s = .next t ∧ t.pending = s.pending ∧
      t.dev.plan slot = some q ∧ q.state = .failed ∧ q.fail = some f ∧ f.reason = 1 ∧ f.node = peer ∧ f.origin = s.dev.node ∧
      f.level = level ∧ f.step = p.step ∧ ∀ n, n ≠ slot → t.dev.plan n = s.dev.plan n) ∧
    ((p.runs = false ∨ level = 0 ∨ peer ∉ p.awaited (level - 1)) → exec (.peerTimeout slot level peer) s = .next s)) ∧
  (∀ (s : State) (m : AbortMsg) (slot : Nat) (p : Plan),
    s.dev.msgPlan m.version m.planId m.digest3 m.slice m.origin = some slot → s.dev.plan slot = some p →
    ((p.state = .running ∨ p.state = .stopping) → ∃ t q f, exec (.abortReceive m) s = .next t ∧ t.pending = s.pending ∧
      t.dev.plan slot = some q ∧ q.state = .failed ∧ q.fail = some f ∧ f.reason = 3 ∧ f.node = m.failed ∧ f.origin = m.origin ∧
      f.step = p.step ∧ ∀ n, n ≠ slot → t.dev.plan n = s.dev.plan n) ∧
    (p.state = .failed → exec (.abortReceive m) s = .next ⟨(s.dev.count itCollLost).modPlan slot (fun q =>
      { q with fail := q.fail.map (fun f => { f with aborts := satAdd 32 f.aborts 1 }) }), s.pending⟩))

/-- EMB_DOORBELL_WRITE through the page of the plan moves the tail modulo the depth. A descriptor fetched while
rows of this device alone are named completes its fetch: it becomes one job with the count of bad indices.
LOOKUP and READ hold their answer and change no row, UPDATE applies the row optimizer once to each row with
its summed gradient, LOAD writes the last value given for each row with zero state; a row that carries poison
keeps its value under UPDATE and counts as invalid; rows not named keep their value. A descriptor with a bad
field is REFUSED, one whose addresses the windows do not cover DMA_FAULT, one of a FAILED plan PEER_FAILED.
EMB_COMPLETION completes: it removes the job, advances the completion ring and writes the 16 B completion,
with PEER_FAILED where an owner had not answered. Commands for which it says that exec answers a next state
with their effect, under conditions on the state and the operands alone: embDoorbellWrite, embLookup, embRead,
embUpdate, embLoad, embCompletion. (R147, R148, R149, R151, R153, 04_collectives) -/
def Obligations.EmbeddingDescriptorsRun : Prop :=
  (∀ (s : State) (via : Via) (slot acc n : Nat) (v : W32) (p : Plan) (q : EmbQ), s.dev.pageOk via 4 4 false = some n →
    s.dev.plan slot = some p → p.cfg.embQ[acc]? = some q → p.slice = n → v.toNat < 65536 → q.ringReg ≠ 0xFFFF →
    ∃ t, exec (.embDoorbellWrite via slot acc 4 v false) s = .next t ∧ t.pending = s.pending ∧
      t.dev.plan slot = some { p with rings := tblPut p.rings acc { tblGetD p.rings acc ⟨0, 0, 0⟩ with tail := v.toNat % q.depth } } ∧
      t.dev = { s.dev with mill := t.dev.mill, ports := t.dev.ports, out := t.dev.out }) ∧
  (∀ (d : Dev) (slot : Nat) (p : Plan) (t : EmbTab) (hs : List (Nat × List Nat)), d.plan slot = some p →
    (∀ row h, d.rowBad p t row = true → d.applyRows slot t [(row, h)] = d.addEvents slot { Events.zero with invalid := t.dim }) ∧
    (d.mem.poison = [] → p.spillBad = [] → (hs.map (·.1)).Nodup → ∃ q, (d.applyRows slot t hs).plan slot = some q ∧ q.jobs = p.jobs ∧ q.rings = p.rings ∧
      (∀ row h, (row, h) ∈ hs → q.embRow t row = (p.rowUpdate t row h).1) ∧
      (∀ row, row ∉ hs.map (·.1) → q.embRow t row = p.embRow t row)) ∧
    (∀ src, ∃ q, (d.loadRows slot t src hs).plan slot = some q ∧ q.jobs = p.jobs ∧ q.rings = p.rings ∧
      (∀ row v, (hs.filter (fun x => x.1 = row)).getLast? = some (row, v) → q.embRow t row =
        ⟨(convVec src t.rowFmt v).1.map (BitVec.ofNat 64), 0, List.replicate t.dim 0, List.replicate t.dim 0⟩) ∧
      (∀ row, row ∉ hs.map (·.1) → q.embRow t row = p.embRow t row))) ∧
  (∀ (e : EmbDesc) (t : EmbTab), ((embRowGrads e t).1.map (·.1)).Nodup) ∧
  (∀ (s : State) (slot acc : Nat) (e : EmbDesc) (p : Plan) (q : EmbQ), s.dev.plan slot = some p → p.cfg.embQ[acc]? = some q →
    q.ringReg ≠ 0xFFFF → (tblGetD p.rings acc ⟨0, 0, 0⟩).fetched ≠ (tblGetD p.rings acc ⟨0, 0, 0⟩).tail → p.held = false →
    (((s.dev.slice p.slice).state ≠ .active ∨ s.dev.readHeld (.emb slot acc) = true) → exec (.embLookup slot acc e) s = .next s) ∧
    ((s.dev.slice p.slice).state = .active → s.dev.readHeld (.emb slot acc) = false →
     let r := tblGetD p.rings acc ⟨0, 0, 0⟩
     let got := tblPut p.rings acc { r with fetched := (r.fetched + 1) % q.depth }
     (p.state = .failed → exec (.embLookup slot acc e) s = .next ⟨s.dev.modPlan slot (fun x =>
       { x with rings := got, jobs := x.jobs ++ [⟨acc, 1, e, 0x0111, [], [], 0⟩] }), s.pending⟩) ∧
     (p.state ≠ .failed → (p.embTab e.table = none ∨ embFieldsOk e 4 = false) →
       exec (.embRead slot acc e) s = .next ⟨s.dev.modPlan slot (fun x =>
         { x with rings := got, jobs := x.jobs ++ [⟨acc, 4, e, stRefused, [], [], 0⟩] }), s.pending⟩) ∧
     (∀ (t : EmbTab), p.state ≠ .failed → p.embTab e.table = some t →
       (∀ op, op = 1 → embFieldsOk e op = true → s.dev.embDmaOk p.slice ((p.cfg.sched.regions[q.ringReg]?.map (·.port)).getD 0) t op e = false →
         exec (.embLookup slot acc e) s = .next ⟨s.dev.modPlan slot (fun x => { x with rings := got, jobs := x.jobs ++ [⟨acc, op, e, 0x0110, [], [], 0⟩] }), s.pending⟩) ∧
       (∀ op, 1 ≤ op → op ≤ 4 → embFieldsOk e op = true → s.dev.embDmaOk p.slice ((p.cfg.sched.regions[q.ringReg]?.map (·.port)).getD 0) t op e = true →
        (∀ x ∈ embItems e op, x.2.2.2 < t.rows → t.rankOf x.2.2.2 = p.rank) →
        (let bad := ((embItems e op).filter (fun x => x.2.2.2 ≥ t.rows)).length
         (op = 1 → ∃ u w parts, exec (.embLookup slot acc e) s = .next u ∧ u.pending = s.pending ∧ u.dev.plan slot = some w ∧
           w.jobs = p.jobs ++ [⟨acc, 1, e, stOk, [], parts, bad⟩] ∧ w.tables = p.tables ∧ w.rings = got ∧
           (∀ x ∈ parts, x = (p.rank, (p.embAnswer t (s.dev.rowBad p t) (p.embAsk t acc 1 e p.rank).1 1).1)) ∧
           u.dev = { s.dev with mill := u.dev.mill, tally := u.dev.tally }) ∧
         (op = 4 → ∃ u w parts, exec (.embRead slot acc e) s = .next u ∧ u.pending = s.pending ∧ u.dev.plan slot = some w ∧
           w.jobs = p.jobs ++ [⟨acc, 4, e, stOk, [], parts, bad⟩] ∧ w.tables = p.tables ∧ w.rings = got ∧
           (∀ x ∈ parts, x = (p.rank, (p.embAnswer t (s.dev.rowBad p t) (p.embAsk t acc 4 e p.rank).1 1).1)) ∧
           u.dev = { s.dev with mill := u.dev.mill, tally := u.dev.tally }) ∧
         (op = 2 → ∃ u w, exec (.embUpdate slot acc e) s = .next u ∧ u.pending = s.pending ∧ u.dev.plan slot = some w ∧
           w.rings = got ∧ (s.dev.mem.poison = [] → p.spillBad = [] → ∀ row h, (row, h) ∈ (embRowGrads e t).1 → w.embRow t row = (p.rowUpdate t row h).1) ∧
           (∀ row, row ∉ (embRowGrads e t).1.map (·.1) → w.embRow t row = p.embRow t row) ∧
           u.dev = { s.dev with
             mill := u.dev.mill, tally := u.dev.tally, cord := u.dev.cord, regs := u.dev.regs, freeCtr := u.dev.freeCtr
             mem := { s.dev.mem with poison := u.dev.mem.poison }, bark := u.dev.bark, out := u.dev.out, ports := u.dev.ports } ∧
           (p.spillBytes = 0 → u.dev.bark = s.dev.bark ∧ u.dev.out = s.dev.out ∧ u.dev.ports = s.dev.ports)) ∧
         (op = 3 → ∃ u w, exec (.embLoad slot acc e) s = .next u ∧ u.pending = s.pending ∧ u.dev.plan slot = some w ∧
           w.rings = got ∧ (∀ row, row ∉ (embLoads e t).map (·.1) → w.embRow t row = p.embRow t row) ∧
           (∀ row v, ((embLoads e t).filter (fun x => x.1 = row)).getLast? = some (row, v) → w.embRow t row =
             ⟨(convVec e.fmt t.rowFmt v).1.map (BitVec.ofNat 64), 0, List.replicate t.dim 0, List.replicate t.dim 0⟩) ∧
           u.dev = { s.dev with
             mill := u.dev.mill, tally := u.dev.tally, cord := u.dev.cord, regs := u.dev.regs, freeCtr := u.dev.freeCtr
             mem := { s.dev.mem with poison := u.dev.mem.poison }, bark := u.dev.bark, out := u.dev.out, ports := u.dev.ports } ∧
           (p.spillBytes = 0 → u.dev.bark = s.dev.bark ∧ u.dev.out = s.dev.out ∧ u.dev.ports = s.dev.ports))))))) ∧
  (∀ (s : State) (slot acc i : Nat) (tag : BitVec 16) (p : Plan) (q : EmbQ) (j : EmbJob) (g : Region), s.dev.plan slot = some p →
    p.cfg.embQ[acc]? = some q → i = p.jobs.findIdx (fun j => j.acc = acc && j.desc.tag == tag && (j.waiting.isEmpty || p.state == .failed || j.waiting.any (s.dev.ownerLost slot p))) →
    p.jobs[i]? = some j → p.cfg.sched.regions[q.cqReg]? = some g →
    (let r := tblGetD p.rings acc ⟨0, 0, 0⟩
     (∃ t w, exec (.embCompletion slot acc tag) s = .next t ∧ t.pending = s.pending ∧ t.dev.plan slot = some w ∧
       w.jobs = p.jobs.eraseIdx i ∧ w.rings = tblPut p.rings acc { r with cqPos := r.cqPos + 1 } ∧ w.tables = p.tables ∧
       t.dev = { s.dev with mill := t.dev.mill, tally := t.dev.tally, ports := t.dev.ports, out := t.dev.out }) ∧
     ((j.op = 2 ∨ j.op = 3) → exec (.embCompletion slot acc tag) s = .next ⟨(s.dev.modPlan slot (fun x =>
       { x with jobs := x.jobs.eraseIdx i, rings := tblPut x.rings acc { r with cqPos := r.cqPos + 1 } })).dmaSlice p.slice g.port
         (g.addr + q.cqOff + 16 * (r.cqPos % q.depth)) (le 2 tag.toNat ++ le 2 (if j.status = stOk ∧ !j.waiting.isEmpty then 0x0111 else j.status) ++
           le 4 (min j.bad (2 ^ 31 - 1) + 2 ^ 31 * b2n (r.cqPos / q.depth % 2 == 0)) ++ le 8 s.dev.stamp.toNat) [] false, s.pending⟩)))

/-- A message that names no plan of the device is counted and changes nothing else. A request for rows that this
device owns is answered with its partial. An update or load of its own rows takes effect on them and is
answered; each completes. An answer that a job waits for is taken off the job; the last one of a LOOKUP or
READ leaves the job ready to complete. Commands for which it says that exec answers a next state with their
effect, under conditions on the state and the operands alone: embReqReceive, embRespReceive, embUpdReceive.
(R149, R151, R153, 04_collectives) -/
def Obligations.EmbeddingMessagesBetweenOwners : Prop :=
  (∀ (s : State) (m : CollMsg) (x : EmbPart), s.dev.msgPlan m.version m.planId m.digest3 m.slice m.origin = none →
    exec (.embReqReceive m x) s = .next ⟨s.dev.count itCollLost, s.pending⟩ ∧
    exec (.embRespReceive m x) s = .next ⟨s.dev.count itCollLost, s.pending⟩ ∧
    exec (.embUpdReceive m x) s = .next ⟨s.dev.count itCollLost, s.pending⟩) ∧
  (∀ (s : State) (m : CollMsg) (x : EmbPart) (slot : Nat) (p : Plan) (t : EmbTab),
    s.dev.msgPlan m.version m.planId m.digest3 m.slice m.origin = some slot → s.dev.plan slot = some p → p.state ≠ .failed →
    p.embTab x.table = some t →
    (x.rows.flatten.all (fun y => y.2 < t.rows && t.rankOf y.2 = p.rank) = true →
      exec (.embReqReceive m x) s = .next ⟨(s.dev.sendEmb p t m.origin 7 (p.embAnswer t (s.dev.rowBad p t) x (p.embWire t)).1).addEvents slot
        (p.embAnswer t (s.dev.rowBad p t) x (p.embWire t)).2, s.pending⟩) ∧
    (let rs := (x.rows.flatten.map (·.2)).zip (x.vals.map (·.map (·.toNat)))
     rs.all (fun y => y.1 < t.rows && t.rankOf y.1 = p.rank) = true →
      (x.op = 3 → exec (.embUpdReceive m x) s = .next ⟨(s.dev.loadRows slot t (p.embWire t) rs).sendEmb p t m.origin 7
        { x with vals := [], weights := [] }, s.pending⟩) ∧
      (x.op ≠ 3 → exec (.embUpdReceive m x) s = .next ⟨(s.dev.applyRows slot t rs).sendEmb p t m.origin 7
        { x with vals := [], weights := [] }, s.pending⟩)) ∧
    (∀ j, p.jobs.find? (fun j => j.acc = x.acc && j.desc.tag == x.tag && !j.waiting.isEmpty) = some j →
      (let rank := p.cfg.sched.peers.findIdx (fun n => n = m.origin)
       rank ∈ j.waiting → (j.op = 1 ∨ j.op = 4 ∨ j.waiting.filter (fun r => r != rank) ≠ []) →
       exec (.embRespReceive m x) s = .next ⟨s.dev.modJob slot x.acc x.tag (fun y =>
         { y with waiting := j.waiting.filter (fun r => r != rank), parts := y.parts.filter (fun z => z.1 < rank) ++ (rank, x) :: y.parts.filter (fun z => z.1 > rank) }), s.pending⟩)))

/-- With no checkpoint running: a corrected error counts its unit in Tally, changes no byte or mark and writes a
record of its unit and address when none was written for the unit in the last millisecond; within it an SRAM
error writes none. An uncorrected error marks the granule that it touches and no other, changes no byte, and
raises a contained fault of CODE 2 of its unit. The address of a channel error is local to the channel:
interleave and sparing give the data that it touches (rows numbered by local address: a choice of the model,
log 66). Each command completes. A clean scrub read moves the scrub position; the end of a pass counts the
pass. A scrub read that finds an error acts as that error does. Commands for which it says that exec answers a
next state with their effect, under conditions on the state and the operands alone: eccCorrected,
eccUncorrected, scrubRead. (R164, R169, R170, R171, R177, 05_memory) -/
def Obligations.MemoryErrorsRecordAndPoison : Prop :=
  (∀ (s : State) (u : MemUnit) (row addr : Nat), s.dev.cord.phase = .idle →
    ∃ t, exec (.eccCorrected u row addr) s = .next t ∧ t.pending = s.pending ∧
      t.dev.tally = (s.dev.count (match u with
        | .chan c => 0x580 + c % 16
        | .sram m => 0x590 + m % 6)).tally ∧
      t.dev.mem.cells = s.dev.mem.cells ∧ t.dev.mem.poison = s.dev.mem.poison ∧
      (tblGet s.dev.flt.merge (memKey u) = none →
        ∃ r : FaultRec, (s.dev.flt.next, r) ∈ t.dev.flt.log ∧ r.src = memSrc u ∧ r.cls = .corrected ∧ r.code = 1 ∧
          r.unit = memNum u ∧ r.addr = (s.dev.errorSite u row addr).1.getD addr ∧ r.count = 1) ∧
      (∀ n m, u = .sram m → tblGet s.dev.flt.merge (memKey u) = some (s.dev.clk, n) → t.dev.flt.log = s.dev.flt.log ∧
        tblGet t.dev.flt.merge (memKey u) = some (s.dev.clk, n + 1)) ∧
      t.dev = { s.dev with regs := t.dev.regs, flt := t.dev.flt, tally := t.dev.tally, tel := t.dev.tel, mem := t.dev.mem, out := t.dev.out }) ∧
  (∀ (s : State) (u : MemUnit) (row addr : Nat), s.dev.cord.phase = .idle →
    ∃ t, exec (.eccUncorrected u row addr) s = .next t ∧ t.pending = s.pending ∧
      (∀ g, g ∈ t.dev.mem.poison ↔ (∃ a, (s.dev.errorSite u row addr).1 = some a ∧ g = a / 64) ∨ g ∈ s.dev.mem.poison) ∧ t.dev.mem.cells = s.dev.mem.cells ∧
      bit (t.dev.fld F.FLT_STATUS_V 0) (memSrc u) = true ∧
      (∃ r : FaultRec, (s.dev.flt.next, r) ∈ t.dev.flt.log ∧ r.src = memSrc u ∧ r.cls = .contained ∧ r.code = 2 ∧
        r.unit = memNum u ∧ r.addr = (s.dev.errorSite u row addr).1.getD addr) ∧
      t.dev = { s.dev with regs := t.dev.regs, flt := t.dev.flt, tel := t.dev.tel, mem := t.dev.mem, out := t.dev.out }) ∧
  (∀ (s : State) (u : MemUnit) (row addr : Nat) (passEnd : Bool), s.dev.cord.phase = .idle →
    (∃ t, exec (.scrubRead u row addr .clean passEnd) s = .next t ∧ t.pending = s.pending ∧
      t.dev = { s.dev with mem := t.dev.mem } ∧ t.dev.mem.cells = s.dev.mem.cells ∧ t.dev.mem.poison = s.dev.mem.poison ∧
      t.dev.mem.passLp = s.dev.mem.passLp + (match u with
        | .chan _ => b2n passEnd
        | .sram _ => 0) ∧
      t.dev.mem.passSr = s.dev.mem.passSr + (match u with
        | .chan _ => 0
        | .sram _ => b2n passEnd) ∧
      (match u with
        | .chan _ => t.dev.mem.posLp = if passEnd then 0 else addr
        | .sram _ => t.dev.mem.posSr = if passEnd then 0 else addr)) ∧
    (∃ t, exec (.scrubRead u row addr .uncorrected passEnd) s = .next t ∧ t.pending = s.pending ∧
      (∀ g, g ∈ t.dev.mem.poison ↔ (∃ a, (s.dev.errorSite u row addr).1 = some a ∧ g = a / 64) ∨ g ∈ s.dev.mem.poison) ∧ t.dev.mem.cells = s.dev.mem.cells))

/-- ROW_COPY_DONE ends the copy of its row. MEM_SPARE with START starts sparing of the named channel when sparing
is there and none was used; a chunk copy advances the watermark, and the last one leaves the channel SPARED
and out of CH_UP. Zeroing clears exactly the pool page, or the pool, and leaves every other byte; a command
that waited for the end of the zeroing runs then, and completes. A spill-window write takes effect when the
slice is managed, unused and the window stays allowed, else it is counted. A spill block read back with a
granule missing, or whose tag does not verify, has all 64 granules marked, is counted and a contained fault; a
good one changes nothing. Every command completes. Commands for which it says that exec answers a next state
with their effect, under conditions on the state and the operands alone: rowCopyDone, memSpareStartWrite,
spareChunkCopy, pageZeroed, poolZeroDone, spillWindowWrite, spillBlockReadDone. (R167, R171, R173, R174, R175,
R178, R179, R180, 05_memory) -/
def Obligations.SparingZeroingAndSpillWindows : Prop :=
  (∀ (s : State) (ch row : Nat), ∃ t, exec (.rowCopyDone ch row) s = .next t ∧ t.pending = s.pending ∧
    (∀ r ∈ t.dev.remaps ch, r.row = row → r.copying = false) ∧ (∀ c, c ≠ ch → t.dev.remaps c = s.dev.remaps c) ∧
    t.dev = { s.dev with mem := { s.dev.mem with remap := t.dev.mem.remap } }) ∧
  (∀ (s : State) (v : W32),
    (s.dev.flag F.MEM_CAP_SPARING 0 = true → s.dev.flag F.MEM_SPARE_ACTIVE 0 = false → s.dev.flag F.MEM_SPARE_DONE 0 = false →
      v.getLsbD 4 = true → ∃ t, exec (.memSpareStartWrite v) s = .next t ∧ t.pending = s.pending ∧
        t.dev.fld F.MEM_SPARE_CHANNEL 0 = bits v.toNat 0 4 ∧ t.dev.flag F.MEM_SPARE_ACTIVE 0 = true ∧
        t.dev.fld F.MEM_SPARE_WATERMARK 0 = 0 ∧ t.dev = { s.dev with regs := t.dev.regs } ∧
        ∀ (f : Fld) (i : Nat), fldKey f i ≠ fldKey F.MEM_SPARE_CHANNEL 0 → fldKey f i ≠ fldKey F.MEM_SPARE_ACTIVE 0 →
          fldKey f i ≠ fldKey F.MEM_SPARE_WATERMARK 0 → t.dev.fld f i = s.dev.fld f i) ∧
    ((s.dev.flag F.MEM_SPARE_ACTIVE 0 = true ∨ s.dev.flag F.MEM_SPARE_DONE 0 = true) → exec (.memSpareStartWrite v) s = .next s)) ∧
  (∀ s : State,
    (s.dev.flag F.MEM_SPARE_ACTIVE 0 = false → exec .spareChunkCopy s = .next s) ∧
    (s.dev.flag F.MEM_SPARE_ACTIVE 0 = true → s.dev.fld F.MEM_SPARE_WATERMARK 0 + 1 < spareChunks →
      exec .spareChunkCopy s = .next ⟨s.dev.setFld F.MEM_SPARE_WATERMARK 0 (s.dev.fld F.MEM_SPARE_WATERMARK 0 + 1), s.pending⟩) ∧
    (s.dev.flag F.MEM_SPARE_ACTIVE 0 = true → s.dev.fld F.MEM_SPARE_WATERMARK 0 + 1 = spareChunks →
      s.dev.fld F.MEM_SPARE_CHANNEL 0 < 16 → ∃ t, exec .spareChunkCopy s = .next t ∧ t.pending = s.pending ∧
        t.dev.flag F.MEM_SPARE_ACTIVE 0 = false ∧ t.dev.flag F.MEM_SPARE_DONE 0 = true ∧
        t.dev.fld (F.MEM_CH_STATE (s.dev.fld F.MEM_SPARE_CHANNEL 0)) 0 = 2 ∧
        bit (t.dev.fld F.MEM_STATUS_CH_UP 0) (s.dev.fld F.MEM_SPARE_CHANNEL 0) = false ∧ t.dev = { s.dev with regs := t.dev.regs })) ∧
  (∀ (s : State) (r : Run) (rest : List Run), s.dev.mem.wf = true → s.dev.cord.pending = [] → s.dev.cord.buffers.length ≤ 8192 →
    runSort s.dev.mem.dirty = r :: rest → ∃ t, exec .pageZeroed s = .next t ∧ t.pending = s.pending ∧
      (∀ a, s.dev.pageAddr r.1 ≤ a → a < s.dev.pageAddr r.1 + pageBytes → cellGet t.dev.mem.cells a = blankByte) ∧
      (∀ a, (a < s.dev.pageAddr r.1 ∨ s.dev.pageAddr r.1 + pageBytes ≤ a) → cellGet t.dev.mem.cells a = cellGet s.dev.mem.cells a) ∧
      t.dev = { s.dev with mem := t.dev.mem }) ∧
  (∀ s : State, s.dev.mem.wf = true → s.dev.flag F.MEM_STATUS_ZERO_BUSY 0 = true → s.dev.mill.waiting = [] →
    ∃ t, exec .poolZeroDone s = .next t ∧ t.pending = s.pending ∧ t.dev.flag F.MEM_STATUS_ZERO_BUSY 0 = false ∧ t.dev.mem.dirty = [] ∧
      (let n := s.dev.fld F.MEM_POOL_PAGES_PAGES 0 * pageBytes
       (∀ a, s.dev.poolBase ≤ a → a < s.dev.poolBase + n → cellGet t.dev.mem.cells a = blankByte) ∧
       (∀ a, (a < s.dev.poolBase ∨ s.dev.poolBase + n ≤ a) → cellGet t.dev.mem.cells a = cellGet s.dev.mem.cells a)) ∧
      t.dev = { s.dev with mem := t.dev.mem, regs := t.dev.regs, mill := { s.dev.mill with waiting := [], admitBusy := false } }) ∧
  (∀ (s : State) (w : ZeroWait), s.dev.flag F.MEM_STATUS_ZERO_BUSY 0 = true → s.dev.mill.waiting = [w] →
    (let d := s.dev.poolZeroDone
     let r := ({ d with mill := { d.mill with waiting := [], admitBusy := false } } : Dev).runHeld w
     exec .poolZeroDone s = .next ⟨r.dev.finish w.own r.status r.reason r.result, s.pending⟩)) ∧
  (∀ s : State, s.dev.flag F.MEM_STATUS_ZERO_BUSY 0 = false → exec .poolZeroDone s = .next s) ∧
  (∀ (s : State) (port reg : Nat) (v : W64),
    (let n := s.dev.fld F.MEM_SLICE_SEL_SLICE port
     let e := if reg = 0 then s.dev.setFld F.MEM_SPILL_BASE_ADDR n (v.toNat / 2 ^ 21 * 2 ^ 21)
       else if reg = 1 then s.dev.setFld F.MEM_SPILL_SIZE_PAGES n (bits v.toNat 0 18)
       else ((s.dev.setFld F.MEM_SPILL_CTRL_EN n (bits v.toNat 0 1)).setFld F.MEM_SPILL_CTRL_PORT n (bits v.toNat 1 2)).setFld
         F.MEM_SPILL_CTRL_BW n (bits v.toNat 3 16)
     let bars := s.dev.spillUsed n ≠ 0 ∧ e.spillWin n ≠ s.dev.spillWin n
     let big := e.fld F.MEM_SPILL_SIZE_PAGES n > 131072
     (s.dev.manages port n = true → ¬ bars → ¬ big → e.spillOk n = true →
       exec (.spillWindowWrite port reg v) s = .next ⟨e, s.pending⟩) ∧
     (s.dev.manages port n = true → (bars ∨ big ∨ e.spillOk n = false) →
       exec (.spillWindowWrite port reg v) s = .next ⟨s.dev.count itSpillDiscard, s.pending⟩) ∧
     (s.dev.manages port n = false → exec (.spillWindowWrite port reg v) s = .next s))) ∧
  (∀ (s : State) (slot block : Nat) (bytes : List Byte) (lost : List Bool) (p : Plan) (ctr : Nat) (tag : List Byte),
    s.dev.plan slot = some p → tblGet p.spillTags block = some (ctr, tag) →
    (let ok := lost.all (fun b => !b) &&
       (s.dev.openInternal (ikSpill p.slice) ctr (le 8 (slot * 2 ^ 32 + block)) (padTo 4096 0 bytes) tag).isSome
     (ok = true → exec (.spillBlockReadDone slot block bytes lost) s = .next s) ∧
     (ok = false → ∃ t q, exec (.spillBlockReadDone slot block bytes lost) s = .next t ∧ t.pending = s.pending ∧
       t.dev.plan slot = some q ∧ (∀ g, g ∈ q.spillBad ↔ g ∈ p.spillBad ∨ (64 * block ≤ g ∧ g < 64 * block + 64)) ∧
       t.dev.tally = (s.dev.count itSpillAuth).tally ∧
       t.dev = { s.dev with
         mill := t.dev.mill, tally := t.dev.tally, regs := t.dev.regs, flt := t.dev.flt, tel := t.dev.tel, out := t.dev.out } ∧
       (bit (t.dev.fld F.FLT_STATUS_V 0) (20 + s.dev.fld F.MEM_SPILL_CTRL_PORT p.slice) = true ∨
         20 + s.dev.fld F.MEM_SPILL_CTRL_PORT p.slice ≥ 46))))

/-- With no checkpoint in progress: an event of a source 0 to 45 sets the bit of its source in FLT_CE for a
corrected event and in FLT_STATUS otherwise, adds one record with the event fields to the log of 4,096
records, advances the sequence numbers, adds to the saturating counts, starts the FAULT_N pulse unless
corrected; a fatal one sets FATAL and leaves no plan running or stopping. Sources above 45 do nothing.
FLT_FORCE makes one forced event of CODE 12 per set bit. The end of the pulse leaves the pin as DRIVE says.
FLT_LOG_IDX latches the record of that position, or zeros, for its port alone. Commands for which it says that
exec answers a next state with their effect, under conditions on the state and the operands alone: faultEvent,
fltForceWrite, faultNPulseEnd, fltLogIdxWrite. (R429, R430, R431, R432, R433, R436, R175) -/
def Obligations.FaultEventsAreRecorded : Prop :=
  (∀ (s : State) (src : Nat) (cls : FClass) (code unit count addr : Nat), s.dev.cord.phase = .idle →
    (src ≥ 46 → exec (.faultEvent src cls code unit count addr) s = .next s) ∧
    (src < 46 → ∃ t r, exec (.faultEvent src cls code unit count addr) s = .next t ∧ t.pending = s.pending ∧
      (r.src = src ∧ r.cls = cls ∧ r.code = code ∧ r.unit = unit ∧ r.count = count ∧ r.addr = addr ∧ r.forced = false ∧
        r.seq = tblGetD s.dev.flt.seqs (65536 + src) 0 ∧ r.stamp = s.dev.stamp) ∧
      t.dev.flt = { s.dev.flt with log := ((s.dev.flt.next, r) :: s.dev.flt.log).take 4096, next := (s.dev.flt.next + 1) % 2 ^ 32, seqs := tblPut s.dev.flt.seqs (65536 + src) ((r.seq + 1) % 2 ^ 32), pulse := s.dev.flt.pulse || cls != .corrected } ∧
      (let hit := if cls = .corrected then F.FLT_CE_V else F.FLT_STATUS_V
       t.dev.fld hit 0 = (s.dev.fld hit 0 ||| 2 ^ src) % 2 ^ 64 ∧
       t.dev.fld F.FLT_SUMMARY_RECORDS 0 = satAdd F.FLT_SUMMARY_RECORDS.w (s.dev.fld F.FLT_SUMMARY_RECORDS 0) 1 ∧
       (∀ f i, fldKey f i ∉ [fldKey hit 0, fldKey F.FLT_SUMMARY_RECORDS 0, fldKey F.FLT_LOG_LOST_COUNT 0, fldKey F.FLT_SUMMARY_FATAL 0, fldKey F.MEM_STATUS_CH_UP 0, fldKey (F.MEM_CH_STATE unit) 0] →
         t.dev.fld f i = s.dev.fld f i)) ∧
      (s.dev.flt.log.length ≥ 4096 → t.dev.fld F.FLT_LOG_LOST_COUNT 0 = satAdd F.FLT_LOG_LOST_COUNT.w (s.dev.fld F.FLT_LOG_LOST_COUNT 0) 1) ∧
      (s.dev.flt.log.length < 4096 → t.dev.fld F.FLT_LOG_LOST_COUNT 0 = s.dev.fld F.FLT_LOG_LOST_COUNT 0) ∧
      (cls ≠ .fatal → t.dev.mill = s.dev.mill ∧ t.dev.fatal = s.dev.fatal) ∧
      (cls = .fatal → t.dev.fatal = true ∧ (∀ n p, t.dev.plan n = some p → p.state ≠ .running ∧ p.state ≠ .stopping) ∧
        (32 ≤ src → src < 36 → unit < 16 → t.dev.fld (F.MEM_CH_STATE unit) 0 = 3)) ∧
      t.dev = { s.dev with regs := t.dev.regs, flt := t.dev.flt, tel := t.dev.tel, mill := t.dev.mill, out := t.dev.out })) ∧
  (∀ (s : State) (port : Nat) (mask : W64), s.dev.cord.phase = .idle →
    (let cls := forceClass (s.dev.fld F.FLT_FORCE_CLASS_CLASS 0)
     let hit := if cls = .corrected then F.FLT_CE_V else F.FLT_STATUS_V
     let srcs := (List.range 46).filter (fun k => mask.getLsbD k)
     (srcs = [] → exec (.fltForceWrite port mask) s = .next s) ∧
     (srcs ≠ [] → ∃ t, exec (.fltForceWrite port mask) s = .next t ∧ t.pending = s.pending ∧
       t.dev.fld hit 0 = srcs.foldl (fun v k => (v ||| 2 ^ k) % 2 ^ 64) (s.dev.fld hit 0) ∧
       t.dev.flt.next = (s.dev.flt.next + srcs.length) % 2 ^ 32 ∧
       (∀ x ∈ t.dev.flt.log, x ∈ s.dev.flt.log ∨ (x.2.forced = true ∧ x.2.code = 12 ∧ x.2.cls = cls ∧ x.2.unit = port ∧ x.2.src ∈ srcs)) ∧
       t.dev.flt.pulse = (s.dev.flt.pulse || cls != .corrected) ∧ (cls = .fatal → t.dev.fatal = true) ∧
       t.dev = { s.dev with regs := t.dev.regs, flt := t.dev.flt, tel := t.dev.tel, mill := t.dev.mill, out := t.dev.out }))) ∧
  (∀ (s : State), (s.dev.flt.pulse = true → exec .faultNPulseEnd s = .next ⟨
      { s.dev with flt := { s.dev.flt with pulse := false, pinHeld := s.dev.flag F.FLT_PIN_CTRL_DRIVE 0 } }, s.pending⟩) ∧
    (s.dev.flt.pulse = false → exec .faultNPulseEnd s = .next s)) ∧
  (∀ (s : State) (port : Nat) (pos : W32), ∃ t ws, exec (.fltLogIdxWrite port pos) s = .next t ∧ t.pending = s.pending ∧
    t.dev.fld F.FLT_LOG_IDX_POS port = pos.toNat % 2 ^ F.FLT_LOG_IDX_POS.w ∧ t.dev.flt = { s.dev.flt with latched := tblPut s.dev.flt.latched port ws } ∧
    (∀ r, s.dev.flt.log.find? (fun e => e.1 = pos.toNat) = some r →
      ws = (List.range 16).map (fun i => BitVec.ofNat 32 (fieldAt r.2.bytes (4 * i) 4))) ∧
    (s.dev.flt.log.find? (fun e => e.1 = pos.toNat) = none → ws = List.replicate 16 0) ∧
    (∀ f i, fldKey f i ≠ fldKey F.FLT_LOG_IDX_POS port → t.dev.fld f i = s.dev.fld f i) ∧
    t.dev = { s.dev with regs := t.dev.regs, flt := t.dev.flt })

/-- TLY_SNAP_WRITE copies every counter into the bank with the time of day, or only counts while the bank is being
filled; SNAPSHOT_DONE ends that, with SNAP records only when enabled. TLY_POL_SEL_WRITE latches the four
counts of that policer for its port. A telemetry tick with the stream off or stopped does nothing; with an
unusable key it stops the stream with a contained fault of CODE 8; otherwise at most 20 records, the oldest
first, leave the queue. A poll asks an endpoint that is present; its answer clears the misses and adds one
record; the third poll in a row without answer marks it absent with a corrected fault; a change event takes
its new sensors, at most 64. Commands for which it says that exec answers a next state with their effect,
under conditions on the state and the operands alone: tlySnapWrite, snapshotDone, tlyPolSelWrite,
telemetryDatagram, sensorPoll, sensorResponse, sensorPollTimeout, pdrChangeEvent, mctpDiscovery. (R439, R441,
R443, R442, R435) -/
def Obligations.CountsAndTelemetryLeaveTheDevice : Prop :=
  (∀ (s : State), (s.dev.tally.snapBusy = true → exec .tlySnapWrite s = .next ⟨s.dev.count itSnapBusy, s.pending⟩) ∧
    (s.dev.tally.snapBusy = false → exec .tlySnapWrite s = .next ⟨{ s.dev with tally := { s.dev.tally with bank := s.dev.tally.counts, snapStamp := s.dev.stamp, snapBusy := true, snapSeq := (s.dev.tally.snapSeq + 1) % 65536 } }, s.pending⟩) ∧
    (s.dev.tally.snapBusy = false → exec .snapshotDone s = .next s) ∧
    (s.dev.tally.snapBusy = true → s.dev.flag F.TLY_TEL_CTRL_SNAP 0 = false →
      exec .snapshotDone s = .next ⟨{ s.dev with tally := { s.dev.tally with snapBusy := false } }, s.pending⟩) ∧
    (s.dev.tally.snapBusy = true → s.dev.flag F.TLY_TEL_CTRL_SNAP 0 = true → s.dev.flag F.TLY_TEL_CTRL_EN 0 = true →
      bit (s.dev.fld F.TLY_TEL_CTRL_MASK 0) 2 = true →
      ∃ t l, exec .snapshotDone s = .next t ∧ t.pending = s.pending ∧ t.dev.tel = { s.dev.tel with queue := s.dev.tel.queue ++ l } ∧
        l.map TelRec.body = (List.range 512).map (fun k => s.dev.snapBody (4 * k)) ∧ (∀ r ∈ l, r.type = 3 ∧ r.src = 0x400) ∧
        t.dev.tally = { s.dev.tally with snapBusy := false } ∧
        t.dev = { s.dev with tally := t.dev.tally, tel := t.dev.tel, flt := t.dev.flt })) ∧
  (∀ (s : State) (port : Nat) (v : W32), ∃ t, exec (.tlyPolSelWrite port v) s = .next t ∧ t.pending = s.pending ∧
    t.dev.fld F.TLY_POL_SEL_POLICER port = v.toNat % 2 ^ 14 ∧ t.dev.fld F.TLY_POL_SEL_DIE port = v.toNat / 2 ^ 14 % 2 ∧
    t.dev.tally = { s.dev.tally with polLatch := tblPut s.dev.tally.polLatch port (tblGetD s.dev.tally.pol (v.toNat % 2 ^ 15) [0, 0, 0, 0]) } ∧
    (∀ f i, fldKey f i ∉ [fldKey F.TLY_POL_SEL_POLICER port, fldKey F.TLY_POL_SEL_DIE port] → t.dev.fld f i = s.dev.fld f i) ∧
    t.dev = { s.dev with regs := t.dev.regs, tally := t.dev.tally }) ∧
  (∀ (s : State) (drop : Nat) (sensor : Bool),
    ((s.dev.flag F.TLY_TEL_CTRL_EN 0 = false ∨ s.dev.tel.stopped = true) → exec (.telemetryDatagram drop sensor) s = .next s) ∧
    (s.dev.flag F.TLY_TEL_CTRL_EN 0 = true → s.dev.tel.stopped = false →
      (s.dev.key (s.dev.fld F.TLY_TEL_CTRL_SLOT 0) = none → exec (.telemetryDatagram 0 false) s = .next ⟨{ s.dev with tel :=
        { s.dev.tel with stopped := true } }.fault s.dev.scaler.lease.lead.num .contained 8 (s.dev.fld F.TLY_TEL_CTRL_SLOT 0) 0, s.pending⟩) ∧
      (∀ k, s.dev.key (s.dev.fld F.TLY_TEL_CTRL_SLOT 0) = some k → k.state = .loaded → k.owner = .device → useAllows k.use 1 = true →
        ∃ t, exec (.telemetryDatagram 0 false) s = .next t ∧ t.pending = s.pending ∧ t.dev.tel.queue = s.dev.tel.queue.drop 20 ∧
          t.dev.tel.stopped = false ∧
          t.dev = { s.dev with tel := t.dev.tel, bark := t.dev.bark, path := t.dev.path, tally := t.dev.tally, out := t.dev.out } ∧
          (∀ key, key ≠ queueKey (portDie (s.dev.fld F.TLY_TEL_ROUTE_PORT 4)) (65536 + s.dev.fld F.TLY_TEL_ROUTE_PORT 4 % 16) → t.dev.bq key = s.dev.bq key) ∧
          ((List.range 4).all (fun k => !s.dev.flag F.TLY_TEL_SEL_VALID k) = true → t.dev = { s.dev with tel := t.dev.tel })) ∧
      (∀ k, s.dev.key (s.dev.fld F.TLY_TEL_CTRL_SLOT 0) = some k → k.state = .loaded → k.owner = .device → useAllows k.use 1 = true →
        s.dev.tel.queue.length ≤ drop → (∀ r ∈ s.dev.tel.queue, 1 ≤ r.type ∧ r.type ≤ 5) →
          ∃ t, exec (.telemetryDatagram drop false) s = .next t ∧ t.pending = s.pending ∧ t.dev.tel.queue = [] ∧ t.dev.out = s.dev.out))) ∧
  (∀ (s : State) (port ix : Nat) (e : Endpoint), s.dev.endpoint port ix = some e →
    exec (.sensorPoll port ix) s = .next ⟨(s.dev.modEndpoint port ix (fun e => { e with polling := true })).emit (.mctp port e.eid 2 e.sensors), s.pending⟩ ∧
    (∀ id opS pr sz um bu v, (id ∉ e.sensors → exec (.sensorResponse port ix id opS pr sz um bu v) s = .next s) ∧
      (id ∈ e.sensors → exec (.sensorResponse port ix id opS pr sz um bu v) s = .next ⟨(s.dev.modEndpoint port ix (fun e =>
        { e with polling := false, misses := 0 })).record 4 (0x200 + port) (sensorBody e.eid id opS pr sz um bu v), s.pending⟩)) ∧
    (e.polling = false → exec (.sensorPollTimeout port ix) s = .next s) ∧
    (e.polling = true → e.misses < 2 → exec (.sensorPollTimeout port ix) s = .next ⟨s.dev.modEndpoint port ix (fun e =>
      { e with polling := false, misses := e.misses + 1 }), s.pending⟩) ∧
    (e.polling = true → e.misses ≥ 2 → ∃ t, exec (.sensorPollTimeout port ix) s = .next t ∧ t.pending = s.pending ∧
      t.dev.endpoint port ix = none ∧ t.dev.flt.next = (s.dev.flt.next + 1) % 2 ^ 32 ∧
      t.dev = { s.dev with regs := t.dev.regs, flt := t.dev.flt, tel := t.dev.tel, out := t.dev.out }) ∧
    (∀ l, exec (.pdrChangeEvent port ix l) s = .next ⟨(s.dev.modEndpoint port ix (fun e => { e with sensors := l.take 64 })).emit
      (.mctp port e.eid 3 []), s.pending⟩)) ∧
  (∀ (s : State) (port : Nat) (answers : List (Nat × List Nat)), port < 4 → (∀ a ∈ answers, a.1 < 16) → (answers.map (·.1)).Nodup →
    ∃ t, exec (.mctpDiscovery port answers) s = .next t ∧ t.pending = s.pending ∧
      (∀ a ∈ answers, t.dev.endpoint port a.1 = some ⟨port, (Config.eidPool port + a.1) % 256, true, 0, false, a.2.take 64, false⟩) ∧
      (∀ q ix, q < 4 → ix < 16 → (q ≠ port ∨ ix ∉ answers.map (·.1)) → t.dev.endpoint q ix = s.dev.endpoint q ix) ∧
      t.dev = { s.dev with tel := t.dev.tel, out := t.dev.out })

/-- With no checkpoint in progress the loss of XCLK_A is one fatal event of source 42. A lane macro that fails is
added to the lost ones once: when it served a lane, the lane takes the lowest free macro of its die with a
corrected event, or has none with a contained event, and the port of that lane goes down; every other lane
keeps its macro. A link of an Ethernet port that exists comes up when each lane has a macro and the state
permits it; else nothing changes. A PCIe link comes up with its speed and width, PERST of that port being
released, but in BOOT_HOLD, where the ports stay in reset; other ports keep everything. Each command
completes. Commands for which it says that exec answers a next state with their effect, under conditions on
the state and the operands alone: xclkALoss, laneMacroFail, ethLinkUp, pcieLinkUp. (R452, R457, R458, R276,
R416, 16_module_pins) -/
def Obligations.ClocksLanesAndLinks : Prop :=
  (∀ (s : State), s.dev.cord.phase = .idle → ∃ t r, exec .xclkALoss s = .next t ∧ t.pending = s.pending ∧ t.dev.pins = { s.dev.pins with xclkA := false } ∧
    t.dev.fatal = true ∧ t.dev.flt.log = ((s.dev.flt.next, r) :: s.dev.flt.log).take 4096 ∧ r.src = 42 ∧ r.cls = .fatal ∧ t.dev.flt.pulse = true ∧
    (∀ n p, t.dev.plan n = some p → p.state ≠ .running ∧ p.state ≠ .stopping) ∧
    t.dev = { s.dev with regs := t.dev.regs, flt := t.dev.flt, tel := t.dev.tel, mill := t.dev.mill, pins := t.dev.pins, out := t.dev.out }) ∧
  (∀ (s : State) (die : Die) (m : Nat),
    (let id := die.num * 18 + m
     ((m ≥ 18 ∨ id ∈ s.dev.lanes.lost) → exec (.laneMacroFail die m) s = .next s) ∧
     (m < 18 → id ∉ s.dev.lanes.lost → ∃ t, exec (.laneMacroFail die m) s = .next t ∧ t.pending = s.pending ∧
       t.dev.lanes.lost = s.dev.lanes.lost ++ [id] ∧ t.dev.lanes.group = s.dev.lanes.group ∧
       ((∀ n < 16, tblGet s.dev.lanes.macros (die.num * 16 + n) ≠ some m) →
         t.dev = { s.dev with lanes := { s.dev.lanes with lost := s.dev.lanes.lost ++ [id] } }) ∧
       (∀ n, (List.range 16).find? (fun n => tblGet s.dev.lanes.macros (die.num * 16 + n) == some m) = some n →
         tblGet t.dev.lanes.macros (die.num * 16 + n) ≠ some m ∧
         (∀ k, k ≠ die.num * 16 + n → tblGet t.dev.lanes.macros k = tblGet s.dev.lanes.macros k) ∧
         (∀ sp, tblGet t.dev.lanes.macros (die.num * 16 + n) = some sp → sp < 18 ∧ die.num * 18 + sp ∉ t.dev.lanes.lost ∧
           (∀ n' < 16, n' ≠ n → tblGet s.dev.lanes.macros (die.num * 16 + n') ≠ some sp)) ∧
         (∀ p, s.dev.lanes.portOf (die.num * 16 + n) = some p → p ∉ t.dev.lanes.up ∧ ∀ q, q ≠ p → (q ∈ t.dev.lanes.up ↔ q ∈ s.dev.lanes.up)) ∧
         t.dev.flt.next = (s.dev.flt.next + 1) % 2 ^ 32 ∧
         (tblGet t.dev.lanes.macros (die.num * 16 + n) = none → t.dev.flt.pulse = true) ∧
         ((tblGet t.dev.lanes.macros (die.num * 16 + n)).isSome = true → t.dev.flt.pulse = s.dev.flt.pulse) ∧
         t.dev = { s.dev with regs := t.dev.regs, flt := t.dev.flt, tel := t.dev.tel, lanes := t.dev.lanes, out := t.dev.out })))) ∧
  (∀ (s : State) (port : Nat),
    (let l := s.dev.lanes
     let ok := port < 32 ∧ l.portOf port = some port ∧ (l.lanesOf port).all (fun n => (tblGet l.macros n).isSome) = true ∧ s.dev.pwr.state < 3 ∧
       (s.dev.scaler.boot = .hostWait ∨ s.dev.scaler.boot = .running)
     (ok → ∃ t, exec (.ethLinkUp port) s = .next t ∧ t.pending = s.pending ∧ (∀ q, q ∈ t.dev.lanes.up ↔ q ∈ l.up ∨ q = port) ∧
       t.dev = { s.dev with lanes := { l with up := t.dev.lanes.up } }) ∧
     (¬ ok → exec (.ethLinkUp port) s = .next s))) ∧
  (∀ (s : State) (p speed width : Nat) (flit : Bool), p < 4 → s.dev.scaler.boot ≠ .hold → speed ≤ 6 → width ∈ [1, 2, 4, 8, 16] → ((s.dev.port p).fn .pf0).bme = false → ((s.dev.port p).fn .tenant).bme = false →
    (∀ e ∈ s.dev.nvm.ctrls, e.1 % 4 ≠ p) →
    exec (.pcieLinkUp p speed width flit) s = .next ⟨{ s.dev with pins := { s.dev.pins with perstLow := s.dev.pins.perstLow &&& ~~~(1#4 <<< p) } }.modPort p
      (fun q => { q with up := true, speed := speed, width := width, flit := flit || 5 ≤ speed }), s.pending⟩) ∧
  (∀ (s : State) (p speed width : Nat) (flit : Bool), (p ≥ 4 ∨ s.dev.scaler.boot = .hold ∨ speed > 6 ∨ width ∉ [1, 2, 4, 8, 16]) → exec (.pcieLinkUp p speed width flit) s = .next s) ∧
  (∀ (s : State) (p speed width : Nat) (flit : Bool), p < 4 → s.dev.scaler.boot ≠ .hold → speed ≤ 6 → width ∈ [1, 2, 4, 8, 16] → ∃ t, exec (.pcieLinkUp p speed width flit) s = .next t ∧ t.pending = s.pending ∧
    (t.dev.port p).up = true ∧ (t.dev.port p).speed = speed ∧ (t.dev.port p).width = width ∧ (t.dev.port p).flit = (flit || decide (5 ≤ speed)) ∧
    t.dev.pins.perstLow.getLsbD p = false ∧ t.dev.slices = s.dev.slices ∧ t.dev.mem = s.dev.mem)

/-- While no queue pair waits for fence reads (R206, R207; those that do go on when theirs have ended): a
completion whose requester and tag name no outstanding read is an unexpected completion. Otherwise its data is
delivered to the initiator; the slot keeps what is outstanding or becomes usable for what waits; a status
other than success delivers poison, counts and raises a contained event of the port. A timeout delivers
poison, counts, raises CODE 4 and quarantines the slot; the end of the quarantine frees it. An ATS
invalidation removes the translation and is answered at once unless an outstanding read used it. A malformed
TLP is logged with a contained event. A configuration write changes its field of its function alone. Each
command completes. Commands for which it says that exec answers a next state with their effect, under
conditions on the state and the operands alone: pcieCompletionReceive, completionTimeout, quarantineEnd,
atsInvalidation, malformedTlp, configurationWrite. (R262, R265, R267, R268, R269, R272, 08_host_endpoint) -/
def Obligations.EndpointReadsCompleteOrTimeOut : Prop :=
  (∀ (s : State) (p : Nat) (kind : FnKind) (tag : Nat) (st : CplStatus) (bytes : Nat) (poisoned : Bool),
    exec (.pcieCompletionReceive p kind tag st bytes poisoned) s =
      .next ⟨(s.dev.pcieCompletion p kind tag st bytes poisoned).settleFences, s.pending⟩) ∧
  (∀ (s : State) (p : Nat) (kind : FnKind) (tag : Nat) (st : CplStatus) (bytes : Nat) (poisoned : Bool), p < 4 →
    (∀ e ∈ s.dev.skid.qps, e.2.fence = none) →
    (s.dev.matchRead p kind tag = none → exec (.pcieCompletionReceive p kind tag st bytes poisoned) s = .next ⟨
      ((s.dev.bumpFld (F.EPX_ERR_UNEXP p) 0 1).count (0x081 + 32 * p)).aerLog p kind .unexpectedCompletion, s.pending⟩) ∧
    (∀ slot r got, s.dev.matchRead p kind tag = some (slot, r, got) →
      (st = .success → poisoned = false → got + bytes < r.len → exec (.pcieCompletionReceive p kind tag st bytes poisoned) s = .next ⟨
        (s.dev.emit (.delivered { r with addr := r.addr + got, len := bytes } bytes false)).modPort p (fun q =>
          { q with slots := tblPut q.slots slot (.out r (got + bytes) tag) }), s.pending⟩) ∧
      (st = .success → poisoned = false → got + bytes ≥ r.len → ∃ t l, exec (.pcieCompletionReceive p kind tag st bytes poisoned) s = .next t ∧
        t.pending = s.pending ∧ t.dev.out = l ++ .delivered { r with addr := r.addr + got, len := r.len - got } (r.len - got) false :: s.dev.out ∧
        ((s.dev.port p).waiting = [] → tblGet (t.dev.port p).slots slot = none ∧ ∀ k, k ≠ slot → tblGet (t.dev.port p).slots k = tblGet (s.dev.port p).slots k) ∧
        t.dev = { s.dev with ports := t.dev.ports, out := t.dev.out }) ∧
      (st = .success → poisoned = true → ∃ t, exec (.pcieCompletionReceive p kind tag st bytes poisoned) s = .next t ∧ t.pending = s.pending ∧
        t.dev.fld (F.EPX_ERR2_POISON p) 0 = satAdd 16 (s.dev.fld (F.EPX_ERR2_POISON p) 0) 1 ∧
        ((t.dev.port p).fn kind).aer = ((s.dev.port p).fn kind).aer ++ [.poisonedTlp] ∧
        t.dev = { s.dev with regs := t.dev.regs, tally := t.dev.tally, ports := t.dev.ports, out := t.dev.out }) ∧
      (st ≠ .success → ∃ t, exec (.pcieCompletionReceive p kind tag st bytes poisoned) s = .next t ∧ t.pending = s.pending ∧
        t.dev.fld (F.EPX_ERR2_URCA p) 0 = satAdd 16 (s.dev.fld (F.EPX_ERR2_URCA p) 0) 1 ∧
        Out.delivered { r with addr := r.addr + got, len := r.len - got } (r.len - got) true ∈ t.dev.out ∧
        t.dev.flt.next = (s.dev.flt.next + 1) % 2 ^ 32 ∧ t.dev.flt.pulse = true ∧
        ((s.dev.port p).waiting = [] → tblGet (t.dev.port p).slots slot = none) ∧
        t.dev = { s.dev with regs := t.dev.regs, tally := t.dev.tally, flt := t.dev.flt, tel := t.dev.tel, ports := t.dev.ports, out := t.dev.out }))) ∧
  (∀ (s : State) (p slot : Nat) (r : ReadReq) (got tag : Nat), p < 4 → (∀ e ∈ s.dev.skid.qps, e.2.fence = none) → tblGet (s.dev.port p).slots slot = some (.out r got tag) →
    ∃ t, exec (.completionTimeout p slot) s = .next t ∧ t.pending = s.pending ∧ tblGet (t.dev.port p).slots slot = some (.quarantined r.kind) ∧
      (∀ k, k ≠ slot → tblGet (t.dev.port p).slots k = tblGet (s.dev.port p).slots k) ∧
      t.dev.fld (F.EPX_ERR_CTO p) 0 = satAdd 16 (s.dev.fld (F.EPX_ERR_CTO p) 0) 1 ∧
      Out.delivered { r with addr := r.addr + got, len := r.len - got } (r.len - got) true ∈ t.dev.out ∧
      ((t.dev.port p).fn r.kind).aer = ((s.dev.port p).fn r.kind).aer ++ [.completionTimeout] ∧
      (∃ f l, t.dev.flt.log = (s.dev.flt.next, f) :: l ∧ f.src = 20 + p ∧ f.cls = .contained ∧ f.code = 4 ∧ f.addr = r.addr) ∧
      t.dev = { s.dev with regs := t.dev.regs, tally := t.dev.tally, flt := t.dev.flt, tel := t.dev.tel, ports := t.dev.ports, out := t.dev.out }) ∧
  (∀ (s : State) (p slot : Nat), (∀ e ∈ s.dev.skid.qps, e.2.fence = none) →
    (∀ r got tag, tblGet (s.dev.port p).slots slot ≠ some (.out r got tag)) → exec (.completionTimeout p slot) s = .next s) ∧
  (∀ (s : State) (p slot : Nat), ((∀ k, tblGet (s.dev.port p).slots slot ≠ some (.quarantined k)) → exec (.quarantineEnd p slot) s = .next s) ∧
    (∀ k, tblGet (s.dev.port p).slots slot = some (.quarantined k) → ∃ t, exec (.quarantineEnd p slot) s = .next t ∧ t.pending = s.pending ∧
      ((s.dev.port p).waiting = [] → tblGet (t.dev.port p).slots slot = none) ∧ t.dev = { s.dev with ports := t.dev.ports, out := t.dev.out })) ∧
  (∀ (s : State) (p : Nat) (kind : FnKind) (pasid : Option Nat) (page : Nat), p < 4 → (s.dev.port p).invals = [] →
    ∃ t, exec (.atsInvalidation p kind pasid page) s = .next t ∧ t.pending = s.pending ∧ (kind, pasid, page) ∉ (t.dev.port p).atc ∧
      (∀ e, e ≠ (kind, pasid, page) → (e ∈ (t.dev.port p).atc ↔ e ∈ (s.dev.port p).atc)) ∧
      (let busy := ((s.dev.port p).slots.filter (fun x => s.dev.usesPage (kind, pasid, page) x.2)).map (·.1)
       (busy = [] → (t.dev.port p).invals = [] ∧ t.dev.out = .atsDone p kind :: s.dev.out) ∧
       (busy ≠ [] → (t.dev.port p).invals = [((kind, pasid, page), busy)] ∧ t.dev.out = s.dev.out)) ∧
      (∀ q, q ≠ p → t.dev.port q = s.dev.port q) ∧ t.dev = { s.dev with ports := t.dev.ports, out := t.dev.out }) ∧
  (∀ (s : State) (p : Nat) (kind : FnKind) (e : TlpError), p < 4 → ∃ t f l, exec (.malformedTlp p kind e) s = .next t ∧ t.pending = s.pending ∧
    ((t.dev.port p).fn kind).aer = ((s.dev.port p).fn kind).aer ++ [match e with | .malformed => .malformed | .ecrc => .ecrc | .flit => .flitError] ∧
    t.dev.flt.log = (s.dev.flt.next, f) :: l ∧ f.src = 20 + p ∧ f.cls = .contained ∧
    t.dev = { s.dev with regs := t.dev.regs, flt := t.dev.flt, tel := t.dev.tel, ports := t.dev.ports, out := t.dev.out }) ∧
  (∀ (s : State) (p : Nat) (kind : FnKind) (w : CfgWrite), p < 4 → ∃ t, exec (.configurationWrite p kind w) s = .next t ∧ t.pending = s.pending ∧
    (let f := (s.dev.port p).fn kind
     let g := (t.dev.port p).fn kind
     (∀ b, w = .tagWidth b → g.tagBits = (if b = 14 then 14 else if b = 10 then 10 else 8)) ∧ (∀ e, w = .ctoRange e → g.ctoEnc = e) ∧
     (∀ n, w = .maxPayload n → g.maxPayload = (if n = 256 then 256 else if n = 512 then 512 else 128)) ∧
     (∀ n, w = .maxRead n → 128 ≤ n → n ≤ 4096 → g.maxRead = n) ∧ (∀ b, w = .relaxedOrdering b → g.relaxed = b) ∧ (∀ b, w = .ats b → g.ats = b) ∧
     g.bme = f.bme ∧ g.d3Saved = f.d3Saved ∧ g.abandoned = f.abandoned ∧ ((∀ b, w ≠ .tagWidth b) → g.tagBits = f.tagBits) ∧
     ((∀ b, w ≠ .maxRead b) → g.maxRead = f.maxRead) ∧ (∀ k, k ≠ kind → (t.dev.port p).fn k = (s.dev.port p).fn k)) ∧
    t.dev = { s.dev with ports := t.dev.ports, out := t.dev.out })

/-- BME_CLEAR leaves the bit 0, quarantines each slot with a read of the function, keeps those reads to be issued
again and the waiting ones held; nothing of the other function or of other ports changes. BME_SET leaves it 1
and, with the link up and the function in D0, nothing abandoned or held. D3HOT_ENTRY keeps the bit and acts
so; D3HOT_EXIT restores it. A function that cannot issue keeps what it holds. Commands for which it says that
exec answers a next state with their effect, under conditions on the state and the operands alone: bmeClear,
bmeSet, d3hotEntry, d3hotExit. (R252, R273, R262) -/
def Obligations.BusMasterEnableAndD3Hold : Prop :=
  (∀ (s : State) (p : Nat) (kind : FnKind), p < 4 →
    (∃ t, exec (.bmeClear p kind) s = .next t ∧ t.pending = s.pending ∧ ((t.dev.port p).fn kind).bme = false ∧
      (∀ k r got tag, tblGet (s.dev.port p).slots k = some (.out r got tag) → r.kind = kind → tblGet (t.dev.port p).slots k = some (.quarantined kind)) ∧
      ((t.dev.port p).fn kind).abandoned = ((s.dev.port p).fn kind).abandoned ++ ((s.dev.port p).readsOf kind).map (·.2) ∧
      ((t.dev.port p).fn kind).heldReads = ((s.dev.port p).fn kind).heldReads ++ (s.dev.port p).waiting.filter (fun r => r.kind = kind) ∧
      (t.dev.port p).waiting = (s.dev.port p).waiting.filter (fun r => r.kind ≠ kind) ∧
      (∀ k, k ≠ kind → (t.dev.port p).fn k = (s.dev.port p).fn k) ∧ (∀ q, q ≠ p → t.dev.port q = s.dev.port q) ∧
      t.dev = { s.dev with ports := t.dev.ports, out := t.dev.out }) ∧
    (∃ t, exec (.bmeSet p kind) s = .next t ∧ t.pending = s.pending ∧ ((t.dev.port p).fn kind).bme = true ∧
      ((s.dev.port p).up = true → ((s.dev.port p).fn kind).d3Saved = none →
        ((t.dev.port p).fn kind).abandoned = [] ∧ ((t.dev.port p).fn kind).heldReads = [] ∧ ((t.dev.port p).fn kind).heldWrites = []) ∧
      t.dev.mem = s.dev.mem ∧ t.dev.slices = s.dev.slices ∧ t.dev.mill = s.dev.mill) ∧
    (((s.dev.port p).up = false ∨ ((s.dev.port p).fn kind).d3Saved.isSome = true) → (∀ e ∈ s.dev.nvm.ctrls, e.1 % 4 ≠ p) →
      exec (.bmeSet p kind) s = .next ⟨s.dev.modPort p (fun q => q.modFn kind (fun f => { f with bme := true })), s.pending⟩) ∧
    (((s.dev.port p).fn kind).d3Saved.isSome = true → exec (.d3hotEntry p kind) s = .next s) ∧
    (((s.dev.port p).fn kind).d3Saved = none → ∃ t, exec (.d3hotEntry p kind) s = .next t ∧ t.pending = s.pending ∧
      ((t.dev.port p).fn kind).d3Saved = some ((s.dev.port p).fn kind).bme ∧ ((t.dev.port p).fn kind).bme = ((s.dev.port p).fn kind).bme ∧
      (∀ k r got tag, tblGet (s.dev.port p).slots k = some (.out r got tag) → r.kind = kind → tblGet (t.dev.port p).slots k = some (.quarantined kind)) ∧
      ((t.dev.port p).fn kind).abandoned = ((s.dev.port p).fn kind).abandoned ++ ((s.dev.port p).readsOf kind).map (·.2) ∧
      (∀ q, q ≠ p → t.dev.port q = s.dev.port q) ∧ t.dev = { s.dev with ports := t.dev.ports, out := t.dev.out }) ∧
    (∀ b, ((s.dev.port p).fn kind).d3Saved = some b → ∃ t, exec (.d3hotExit p kind) s = .next t ∧ t.pending = s.pending ∧
      ((t.dev.port p).fn kind).bme = b ∧ ((t.dev.port p).fn kind).d3Saved = none ∧
      (b = true → (s.dev.port p).up = true → ((t.dev.port p).fn kind).abandoned = [] ∧ ((t.dev.port p).fn kind).heldReads = []) ∧
      t.dev.mem = s.dev.mem ∧ t.dev.slices = s.dev.slices ∧ t.dev.mill = s.dev.mill)) ∧
  (∀ (d : Dev) (w : Dma), d.fatalAllows w.slice w.kind = true → d.canIssue w.port w.kind = false →
    d.dma w = d.modPort w.port (fun p => p.modFn w.kind (fun f => { f with heldWrites := f.heldWrites ++ [w] }))) ∧
  (∀ (d : Dev) (r : ReadReq), d.fatalAllows r.slice r.kind = true → d.canIssue r.port r.kind = false →
    d.issue r = d.modPort r.port (fun p => p.modFn r.kind (fun f => { f with heldReads := f.heldReads ++ [r] })))

/-- Served SLICE_BIND of an unbound slice with admissible words leaves it ACTIVE with its function, ports, PASID
and vectors and no quota, and completes with OK; SLICE_QUOTA and SLICE_WINDOW of a bound slice that the issuer
manages set the five quotas or one window. Otherwise the command is REFUSED with the first reason that
applies, and the slice is as before: bad words, not the manager, wrong state, a PASID in use, a quota below
what is held or beyond what is left. Nothing but the slice and the completion changes. Commands for which it
says that exec answers a next state with their effect, under conditions on the state and the operands alone:
sliceBind, sliceQuota, sliceWindow. (R277, R279, R280, 08_host_endpoint) -/
def Obligations.SliceBindQuotaAndWindow : Prop :=
  (∀ (s : State) (c : Cmd), Served s.dev c 0x0201 [.m] →
    (let w := c.w 0
     let home := bits w 1 2
     let d := s.dev.takeEntry c 0x0201
     let kind : FnKind := if bit w 0 then .tenant else .pf0
     let good := c.w2 = 0 ∧ c.w3 = 0 ∧ c.w4 = 0 ∧ c.w5 = 0 ∧ w < 2 ^ 28 ∧ c.w 1 < 2 ^ 23 ∧ bits (c.w 1) 0 11 + bits (c.w 1) 11 12 ≤ 2048 ∧ bit w (3 + home) = true
     let clash := ∃ e ∈ s.dev.slices, e.2.state ≠ .unbound ∧ e.2.home = home ∧ e.2.kind = kind ∧ e.2.pasidEn = bit w 7 ∧ (bit w 7 = true → e.2.pasid = bits w 8 20)
     (good → c.mgrPort = some home → (s.dev.slice c.slice).state = .unbound → ¬ clash →
       exec (.sliceBind c) s = .next ⟨replied (d.modSlice c.slice (fun _ => { Slice.init with state := .active, kind := kind, home := home, ports := BitVec.ofNat 4 (bits w 3 4), pasidEn := bit w 7, pasid := bits w 8 20, vecBase := bits (c.w 1) 0 11, vecCount := bits (c.w 1) 11 12 }))
         c 0x0201 stOk 0 [], s.pending⟩) ∧
     (¬ good → exec (.sliceBind c) s = .next ⟨replied d c 0x0201 stRefused rsBadField [], s.pending⟩) ∧
     (good → c.mgrPort ≠ some home → exec (.sliceBind c) s = .next ⟨replied d c 0x0201 stRefused rsNotPermitted [], s.pending⟩) ∧
     (good → c.mgrPort = some home → (s.dev.slice c.slice).state ≠ .unbound → exec (.sliceBind c) s = .next ⟨replied d c 0x0201 stRefused rsWrongState [], s.pending⟩) ∧
     (good → c.mgrPort = some home → (s.dev.slice c.slice).state = .unbound → clash →
       exec (.sliceBind c) s = .next ⟨replied d c 0x0201 stRefused 0x40 [], s.pending⟩))) ∧
  (∀ (s : State) (c : Cmd), Served s.dev c 0x0202 [.m] → c.w4 = 0 → c.w5 = 0 → s.dev.mayName c = true →
    (let sl := s.dev.slice c.slice
     let d := s.dev.takeEntry c 0x0202
     let cells := c.w 1 % 2 ^ 18
     let share := c.w 1 / 2 ^ 18
     let st := sl.state = .active ∨ sl.state = .quiesced
     let good := c.w 0 ≤ 16777216 ∧ share ≤ 100 ∧ cells ≤ 131072 ∧ c.w 2 < 2 ^ 32 ∧ c.w 3 ≤ 4096
     let held := c.w 0 < s.dev.qpCount c.slice ∨ cells < s.dev.sliceCells c.slice ∨ c.w 2 < s.dev.sliceHeldPages c.slice ∨ c.w 3 < s.dev.nvQueues c.slice ∨
       share < ((s.dev.mill.plans.filter (fun e => e.2.slice = c.slice)).map (fun e => e.2.cfg.share)).sum
     let room := fun (v cap : Nat) (f : Slice → Nat) => v ≤ f sl ∨ v + s.dev.quotaOthers c.slice f ≤ cap
     let fits := room (c.w 0) s.dev.contextCapacity (·.qpQuota) ∧ room cells 131072 (·.cellQuota) ∧ room share 100 (·.share) ∧
       room (c.w 2) (s.dev.fld F.MEM_POOL_PAGES_PAGES 0) (·.pages)
     (st → good → ¬ held → fits → exec (.sliceQuota c) s = .next ⟨replied (d.modSlice c.slice (fun x =>
       { x with qpQuota := c.w 0, cellQuota := cells, share := share, pages := c.w 2, nvq := c.w 3 })) c 0x0202 stOk 0 [], s.pending⟩) ∧
     (¬ st → exec (.sliceQuota c) s = .next ⟨replied d c 0x0202 stRefused rsWrongState [], s.pending⟩) ∧
     (st → ¬ good → exec (.sliceQuota c) s = .next ⟨replied d c 0x0202 stRefused rsBadField [], s.pending⟩) ∧
     (st → good → held → exec (.sliceQuota c) s = .next ⟨replied d c 0x0202 stRefused 0x41 [], s.pending⟩) ∧
     (st → good → ¬ held → ¬ fits → exec (.sliceQuota c) s = .next ⟨replied d c 0x0202 stRefused 0x42 [], s.pending⟩))) ∧
  (∀ (s : State) (c : Cmd), Served s.dev c 0x0203 [.m] → c.w3 = 0 → c.w4 = 0 → c.w5 = 0 → s.dev.mayName c = true →
    (let sl := s.dev.slice c.slice
     let d := s.dev.takeEntry c 0x0203
     let w := c.w 0
     let st := sl.state = .active ∨ sl.state = .quiesced
     let good := w < 512 ∧ c.w 1 % 4096 = 0 ∧ c.w 2 % 4096 = 0 ∧ c.w 1 + c.w 2 ≤ 2 ^ 64 ∧ sl.ports.getLsbD (bits w 4 2) = true
     let may := sl.state = .quiesced ∨ ((tblGet sl.windows (bits w 0 4)).any (·.en) = false ∧ bit w 8 = true)
     (st → good → may → exec (.sliceWindow c) s = .next ⟨replied (d.modSlice c.slice (fun x => { x with
         windows := tblPut x.windows (bits w 0 4) ⟨bit w 8, bits w 4 2, bit w 6, bit w 7, c.w 1, c.w 2⟩ })) c 0x0203 stOk 0 [], s.pending⟩) ∧
     (¬ st → exec (.sliceWindow c) s = .next ⟨replied d c 0x0203 stRefused rsWrongState [], s.pending⟩) ∧
     (st → ¬ good → exec (.sliceWindow c) s = .next ⟨replied d c 0x0203 stRefused rsBadField [], s.pending⟩) ∧
     (st → good → ¬ may → exec (.sliceWindow c) s = .next ⟨replied d c 0x0203 stRefused rsWrongState [], s.pending⟩))) ∧
  (∀ (s : State) (c : Cmd), s.dev.mayName c = false →
    (Served s.dev c 0x0202 [.m] → c.w4 = 0 → c.w5 = 0 → exec (.sliceQuota c) s = .next ⟨replied (s.dev.takeEntry c 0x0202) c 0x0202 stRefused rsNotPermitted [], s.pending⟩) ∧
    (Served s.dev c 0x0203 [.m] → c.w3 = 0 → c.w4 = 0 → c.w5 = 0 → exec (.sliceWindow c) s = .next ⟨replied (s.dev.takeEntry c 0x0203) c 0x0203 stRefused rsNotPermitted [], s.pending⟩))

/-- SLICE_QUIESCE of an ACTIVE slice leaves it QUIESCING and is DEFERRED; running plans of it stop. When nothing
of it is under way it becomes QUIESCED and the command completes; at the deadline it does so forced, its busy
queue pairs in ERR and its plans abandoned. SLICE_RESUME returns a QUIESCED slice to ACTIVE. SLICE_RESET and
SLICE_UNBIND of a QUIESCED slice leave no plan, queue pair, completion queue, region, address handle or key
slot of it (volumes keep theirs), its ring at reset; after UNBIND it has no quota and no window. In any other
state each is REFUSED. Other slices stay. Commands for which it says that exec answers a next state with their
effect, under conditions on the state and the operands alone: sliceQuiesce, sliceQuiesced, quiesceDeadline,
sliceResume, sliceReset, sliceUnbind. (R113, R276, R277, R278, R279, R282, 08_host_endpoint) -/
def Obligations.SliceQuiesceResumeResetUnbind : Prop :=
  (∀ (s : State) (c : Cmd), Served s.dev c 0x0204 [.m] → zeroFrom c 1 = true → s.dev.mayName c = true →
    (let d := s.dev.takeEntry c 0x0204
     (1 ≤ c.w 0 → c.w 0 ≤ 600000 → (s.dev.slice c.slice).state = .active →
       ∃ e : Dev, exec (.sliceQuiesce c) s = .next ⟨replied e c 0x0204 stDeferred 0 [], s.pending⟩ ∧
         e.slice c.slice = { s.dev.slice c.slice with state := .quiescing, forced := false, owner := some (s.dev.ownerOf c 0x0204) } ∧
         (∀ n, n ≠ c.slice → e.slice n = s.dev.slice n) ∧
         (∀ n, n ∉ s.dev.plansOf c.slice → e.plan n = s.dev.plan n) ∧
         (∀ n p, s.dev.plan n = some p → p.slice = c.slice → p.state = .running → p.between = false → e.plan n = some { p with state := .stopping })) ∧
     ((c.w 0 = 0 ∨ c.w 0 > 600000) → exec (.sliceQuiesce c) s = .next ⟨replied d c 0x0204 stRefused rsBadField [], s.pending⟩) ∧
     (1 ≤ c.w 0 → c.w 0 ≤ 600000 → (s.dev.slice c.slice).state ≠ .active → exec (.sliceQuiesce c) s = .next ⟨replied d c 0x0204 stRefused rsWrongState [], s.pending⟩))) ∧
  (∀ (s : State) (n : Nat),
    (((s.dev.slice n).state ≠ .quiescing ∨ s.dev.sliceBusy n = true) → exec (.sliceQuiesced n) s = .next s) ∧
    (∀ o, (s.dev.slice n).state = .quiescing → s.dev.sliceBusy n = false → (s.dev.slice n).owner = some o → exec (.sliceQuiesced n) s = .next ⟨(s.dev.modSlice n (fun x =>
      { x with state := .quiesced, owner := none })).finish o stOk 0 [], s.pending⟩) ∧
    ((s.dev.slice n).state ≠ .quiescing → exec (.quiesceDeadline n) s = .next s) ∧
    (∀ o, (s.dev.slice n).state = .quiescing → (s.dev.slice n).owner = some o → ∃ e : Dev, exec (.quiesceDeadline n) s = .next ⟨e.finish o stOk 0 [], s.pending⟩ ∧
      e.slice n = { s.dev.slice n with state := .quiesced, forced := true, owner := none } ∧ (∀ m, m ≠ n → e.slice m = s.dev.slice m) ∧
      (∀ k p, e.plan k = some p → p.slice = n → p.state ≠ .running ∧ p.state ≠ .stopping))) ∧
  (∀ (s : State) (c : Cmd), c.w0 = 0 → c.w1 = 0 → c.w2 = 0 → c.w3 = 0 → c.w4 = 0 → c.w5 = 0 → s.dev.mayName c = true →
    ((s.dev.slice c.slice).state = .quiesced →
      (Served s.dev c 0x0205 [.m] → ∃ e : Dev, exec (.sliceResume c) s = .next ⟨replied e c 0x0205 stOk 0 [], s.pending⟩ ∧
        e.slice c.slice = { s.dev.slice c.slice with state := .active } ∧ (∀ n, n ≠ c.slice → e.slice n = s.dev.slice n) ∧
        e.mem = s.dev.mem ∧ e.mill = s.dev.mill) ∧
      (Served s.dev c 0x0206 [.m] → ∃ e : Dev, exec (.sliceReset c) s = .next ⟨replied e c 0x0206 stOk 0 [], s.pending⟩ ∧
        e.slice c.slice = { s.dev.slice c.slice with state := .active, forced := false, owner := none } ∧ (∀ n, n ≠ c.slice → e.slice n = s.dev.slice n) ∧
        (∀ x ∈ e.mill.plans, x.2.slice ≠ c.slice) ∧ (∀ x ∈ e.skid.cqs, x.2.slice ≠ c.slice) ∧ (∀ x ∈ e.skid.mrs, x.2.slice ≠ c.slice) ∧
        (∀ x ∈ e.skid.ahs, x.2.slice ≠ c.slice)) ∧
      (Served s.dev c 0x0207 [.m] → ∃ e : Dev, exec (.sliceUnbind c) s = .next ⟨replied e c 0x0207 stOk 0 [], s.pending⟩ ∧
        e.slice c.slice = Slice.init ∧ (∀ n, n ≠ c.slice → e.slice n = s.dev.slice n) ∧ (∀ x ∈ e.mill.plans, x.2.slice ≠ c.slice))) ∧
    ((s.dev.slice c.slice).state ≠ .quiesced →
      (Served s.dev c 0x0205 [.m] → exec (.sliceResume c) s = .next ⟨replied (s.dev.takeEntry c 0x0205) c 0x0205 stRefused rsWrongState [], s.pending⟩) ∧
      (Served s.dev c 0x0206 [.m] → exec (.sliceReset c) s = .next ⟨replied (s.dev.takeEntry c 0x0206) c 0x0206 stRefused rsWrongState [], s.pending⟩) ∧
      (Served s.dev c 0x0207 [.m] → exec (.sliceUnbind c) s = .next ⟨replied (s.dev.takeEntry c 0x0207) c 0x0207 stRefused rsWrongState [], s.pending⟩)))

/-- With no checkpoint or power change in progress: a hot reset of a port leaves its link down, no slot, waiting
request or translation, HOTRST 1, DOWNS one more, both functions disabled, the manager rings and mailbox at
reset with a new generation and their agreements gone; slices bound to it are ACTIVE and empty; other slices
keep their state. In W4 it does nothing. A link loss adds a contained event of CODE 3; on a link that is down
nothing happens. Loss of XCLK_B resets every port so. An FLR disables one function, quarantining its reads.
Commands for which it says that exec answers a next state with their effect, under conditions on the state and
the operands alone: hotReset, linkDown, xclkBLoss, flr. (R272, R274, R275, R276, R424, R452, R375,
08_host_endpoint) -/
def Obligations.ResetsOfPortsAndFunctions : Prop :=
  (∀ (s : State) (p : Nat) (pin : Bool), s.dev.cord.phase = .idle → s.dev.pwr.move = none →
    ((p ≥ 4 ∨ s.dev.pwr.state = 4) → exec (.hotReset p pin) s = .next s) ∧
    (p < 4 → s.dev.pwr.state ≠ 4 → s.dev.boundFn p .pf0 = [] → s.dev.boundFn p .tenant = [] →
      ∃ t, exec (.hotReset p pin) s = .next t ∧ t.pending = s.pending ∧ (t.dev.port p).up = false ∧ (t.dev.port p).slots = [] ∧
        (t.dev.port p).waiting = [] ∧ (t.dev.port p).atc = [] ∧ (t.dev.port p).invals = [] ∧ (∀ k, ((t.dev.port p).fn k).bme = false ∧ ((t.dev.port p).fn k).d3Saved = none) ∧
        (∀ q, q ≠ p → t.dev.port q = s.dev.port q) ∧ t.dev.slices = s.dev.slices ∧
        t.dev.fld (F.EPX_PORT_STATUS_HOTRST p) 0 = 1 ∧
        (t.dev.cmdRing (.pf0 p) = { CmdRing.init with gen := (s.dev.cmdRing (.pf0 p)).gen + 1 }) ∧
        (t.dev.cmdRing (.mbox p) = { CmdRing.init with gen := (s.dev.cmdRing (.mbox p)).gen + 1 }) ∧
        (∀ i, t.dev.agreedVer (.pf0 p) i = none ∨ 16 ≤ i) ∧ t.dev.mem = s.dev.mem ∧ t.dev.mill = s.dev.mill ∧
        (pin = true → t.dev.pins.perstLow.getLsbD p = true) ∧ (pin = false → t.dev.pins = s.dev.pins)) ∧
    (p < 4 → s.dev.pwr.state ≠ 4 → ∃ t, exec (.hotReset p pin) s = .next t ∧ t.pending = s.pending ∧ (t.dev.port p).up = false ∧
      (∀ n, (s.dev.slice n).state ≠ .unbound → (s.dev.slice n).home = p →
        t.dev.slice n = { s.dev.slice n with state := .active, forced := false, owner := none } ∧ (∀ x ∈ t.dev.mill.plans, x.2.slice ≠ n)) ∧
      (∀ n, (∀ e ∈ s.dev.slices, e.1 = n → e.2.state = .unbound ∨ e.2.home ≠ p) → t.dev.slice n = s.dev.slice n))) ∧
  (∀ (s : State) (p : Nat), s.dev.cord.phase = .idle → s.dev.pwr.move = none → s.dev.pwr.state ≠ 4 →
    ((s.dev.port p).up = false → exec (.linkDown p) s = .next s) ∧
    (p < 4 → (s.dev.port p).up = true → s.dev.boundFn p .pf0 = [] → s.dev.boundFn p .tenant = [] →
      ∃ t f l, exec (.linkDown p) s = .next t ∧ t.pending = s.pending ∧ (t.dev.port p).up = false ∧
        t.dev.flt.log = (s.dev.flt.next, f) :: l ∧ f.src = 20 + p ∧ f.cls = .contained ∧ f.code = 3 ∧
        (t.dev.port p).pf0.aer = (s.dev.port p).pf0.aer ++ [.surpriseDown] ∧ (∀ q, q ≠ p → t.dev.port q = s.dev.port q)) ∧
    ((∀ k < 4, s.dev.boundFn k .pf0 = [] ∧ s.dev.boundFn k .tenant = []) →
      ∃ t, exec .xclkBLoss s = .next t ∧ t.pending = s.pending ∧ t.dev.pins = { s.dev.pins with xclkB := false } ∧
        (∀ k < 4, (t.dev.port k).up = false ∧ (t.dev.port k).slots = [] ∧ t.dev.fld (F.EPX_PORT_STATUS_HOTRST k) 0 = 1))) ∧
  (∀ (s : State) (p : Nat) (kind : FnKind), (p ≥ 4 → exec (.flr p kind) s = .next s) ∧
    (p < 4 → s.dev.boundFn p kind = [] → ∃ t, exec (.flr p kind) s = .next t ∧ t.pending = s.pending ∧
      (let g := (t.dev.port p).fn kind
       g.bme = false ∧ g.wasReset = true ∧ g.d3Saved = none ∧ g.tagBits = 8 ∧ g.maxPayload = 128 ∧ g.maxRead = 512 ∧ g.ats = false ∧ g.aer = ((s.dev.port p).fn kind).aer ∧
       (∀ r ∈ g.abandoned, (r.slice = none ∧ s.dev.bsEn = true ∧ s.dev.bsPort = p) ∨ ∃ n, r.slice = some n ∧ (s.dev.slice n).state ≠ .unbound ∧ (s.dev.slice n).home ≠ p)) ∧
      (∀ k r got tag, tblGet (s.dev.port p).slots k = some (.out r got tag) → r.kind = kind → tblGet (t.dev.port p).slots k = some (.quarantined kind)) ∧
      (∀ k, k ≠ kind → (t.dev.port p).fn k = (s.dev.port p).fn k) ∧ (t.dev.port p).up = (s.dev.port p).up ∧
      (∀ q, q ≠ p → t.dev.port q = s.dev.port q) ∧ t.dev.slices = s.dev.slices ∧ t.dev.mem = s.dev.mem ∧
      (kind = .tenant → t.dev.scaler = s.dev.scaler ∧ t.dev.regs = s.dev.regs) ∧
      (kind = .pf0 → t.dev.cmdRing (.pf0 p) = { CmdRing.init with gen := (s.dev.cmdRing (.pf0 p)).gen + 1 })))

/-- Served CQ_CREATE, MR_REG and AH_CREATE of a slice that takes object commands put the object at the lowest free
index and answer it in RESULT; a region takes a new tag and, in LPDDR5X, pages of the quota; while the pool is
still being zeroed a region that needs pages waits for the end of the zeroing (R167). The destroying commands
remove it, when it is of the slice, the tag matches and nothing uses it; otherwise they are REFUSED with the
reason and nothing changes. Each command completes. Commands of a slice that is not managed, or is UNBOUND or
RESETTING, are REFUSED first. Commands for which it says that exec answers a next state with their effect,
under conditions on the state and the operands alone: cqCreate, cqDestroy, mrReg, mrDereg, ahCreate,
ahDestroy. (R187, R208, R377, 06_skid_transport) -/
def Obligations.CompletionQueuesRegionsAndHandles : Prop :=
  (∀ (d : Dev) (c : Cmd), d.objectSlice c = none ↔ d.mayName c = true ∧ ((d.slice c.target).state = .active ∨ (d.slice c.target).state = .quiescing ∨
    (d.slice c.target).state = .quiesced)) ∧
  (∀ (s : State) (c : Cmd), Served s.dev c 0x0305 [.m, .s] → zeroFrom c 2 = true →
    (let d := s.dev.takeEntry c 0x0305
     let good := c.w 1 < 2 ^ 16 ∧ 6 ≤ c.w 1 % 32 ∧ c.w 1 % 32 ≤ 22 ∧ c.w 1 / 32 < (s.dev.slice c.target).vecCount
     (¬ good → exec (.cqCreate c) s = .next ⟨replied d c 0x0305 stRefused rsBadField [], s.pending⟩) ∧
     (∀ rs, good → s.dev.objectSlice c = some rs → exec (.cqCreate c) s = .next ⟨replied d c 0x0305 stRefused rs [], s.pending⟩) ∧
     (∀ n, good → s.dev.objectSlice c = none → tblFree s.dev.skid.cqs (2 ^ 20) = some n → exec (.cqCreate c) s = .next ⟨replied
       { d with skid := { d.skid with cqs := tblPut d.skid.cqs n ⟨c.target, c.w 0, c.w 1 % 32, c.w 1 / 32, 0, 0, false, []⟩ } } c 0x0305 stOk 0 (le 3 n), s.pending⟩))) ∧
  (∀ (s : State) (c : Cmd) (k : Cq), Served s.dev c 0x0306 [.m, .s] → zeroFrom c 1 = true → c.w 0 < 2 ^ 20 → s.dev.objectSlice c = none →
    (let d := s.dev.takeEntry c 0x0306
     let used := ∃ e ∈ s.dev.skid.qps, e.2.isColl = false ∧ e.2.f cSlice = c.target ∧ (e.2.f cScqn = c.w 0 ∨ e.2.f cRcqn = c.w 0)
     (tblGet s.dev.skid.cqs (c.w 0) = none → exec (.cqDestroy c) s = .next ⟨replied d c 0x0306 stRefused rsWrongState [], s.pending⟩) ∧
     (tblGet s.dev.skid.cqs (c.w 0) = some k → k.slice ≠ c.target → exec (.cqDestroy c) s = .next ⟨replied d c 0x0306 stRefused rsNotPermitted [], s.pending⟩) ∧
     (tblGet s.dev.skid.cqs (c.w 0) = some k → k.slice = c.target → used → exec (.cqDestroy c) s = .next ⟨replied d c 0x0306 stRefused rsWrongState [], s.pending⟩) ∧
     (tblGet s.dev.skid.cqs (c.w 0) = some k → k.slice = c.target → ¬ used → exec (.cqDestroy c) s = .next ⟨replied
       { d with skid := { d.skid with cqs := tblDel d.skid.cqs (c.w 0) } } c 0x0306 stOk 0 [], s.pending⟩))) ∧
  (∀ (s : State) (c : Cmd), Served s.dev c 0x0307 [.m, .s] → zeroFrom c 4 = true →
    (let d := s.dev.takeEntry c 0x0307
     let good := c.w 2 < 256 ∧ c.w 3 < 2 ^ 24 ∧ c.w 1 ≠ 0 ∧ c.w 0 + c.w 1 ≤ 2 ^ 64
     let rights := c.w 2 % 16
     let port := bits (c.w 2) 4 2
     let win := fun wr => (s.dev.slice c.target).dmaOk port (c.w 0) (c.w 1) wr
     let reach := (bit rights 0 = true → win true = true) ∧ (bit rights 1 = true → win false = true) ∧ (bit rights 2 = true → win true = true ∧ win false = true)
     let mr := fun (tag : Nat) => (⟨c.target, tag, c.w 0, c.w 1, rights, port, bit (c.w 2) 6, bit (c.w 2) 7, c.w 3⟩ : Mr)
     (¬ good → exec (.mrReg c) s = .next ⟨replied d c 0x0307 stRefused rsBadField [], s.pending⟩) ∧
     (good → s.dev.objectSlice c = none → bit (c.w 2) 6 = false → ¬ reach → exec (.mrReg c) s = .next ⟨replied d c 0x0307 stRefused rsBadField [], s.pending⟩) ∧
     (∀ ix, good → s.dev.objectSlice c = none → tblFree s.dev.skid.mrs (2 ^ 24) = some ix →
       (let tag := (tblGetD s.dev.skid.mrTags ix 0 + 1) % 256
        (bit (c.w 2) 6 = false → reach → exec (.mrReg c) s = .next ⟨replied { d with skid := { d.skid with mrs := tblPut d.skid.mrs ix (mr tag), mrTags := tblPut d.skid.mrTags ix tag } }
          c 0x0307 stOk 0 (le 4 (ix + tag * 2 ^ 24)), s.pending⟩) ∧
        (∀ e, bit (c.w 2) 6 = true → d.regionPages c.target (c.w 0) (c.w 1) = some e → d.flag F.MEM_STATUS_ZERO_BUSY 0 = true →
          e.mem.owned ≠ d.mem.owned → exec (.mrReg c) s = .next ⟨{ d with mill := { d.mill with
            waiting := d.mill.waiting ++ [⟨c, s.dev.ownerOf c 0x0307, .region⟩] } }, s.pending⟩) ∧
        (∀ e, bit (c.w 2) 6 = true → d.regionPages c.target (c.w 0) (c.w 1) = some e →
          (d.flag F.MEM_STATUS_ZERO_BUSY 0 = false ∨ e.mem.owned = d.mem.owned) → exec (.mrReg c) s = .next ⟨replied
          { e with skid := { e.skid with mrs := tblPut e.skid.mrs ix (mr tag), mrTags := tblPut e.skid.mrTags ix tag } }
          c 0x0307 stOk 0 (le 4 (ix + tag * 2 ^ 24)), s.pending⟩) ∧
        (bit (c.w 2) 6 = true → d.regionPages c.target (c.w 0) (c.w 1) = none → exec (.mrReg c) s = .next ⟨replied d c 0x0307 stRefused 0x42 [], s.pending⟩))))) ∧
  (∀ (s : State) (c : Cmd) (m : Mr), Served s.dev c 0x0308 [.m, .s] → zeroFrom c 1 = true → c.w 0 < 2 ^ 32 → s.dev.objectSlice c = none →
    tblGet s.dev.skid.mrs (c.w 0 % 2 ^ 24) = some m →
    (let d := s.dev.takeEntry c 0x0308
     (m.slice ≠ c.target → exec (.mrDereg c) s = .next ⟨replied d c 0x0308 stRefused rsNotPermitted [], s.pending⟩) ∧
     (m.slice = c.target → (m.tag ≠ c.w 0 / 2 ^ 24 ∨ s.dev.regionBusy m.slice (c.w 0 % 2 ^ 24) = true) → exec (.mrDereg c) s = .next ⟨replied d c 0x0308 stRefused rsWrongState [], s.pending⟩) ∧
     (m.slice = c.target → m.tag = c.w 0 / 2 ^ 24 → s.dev.regionBusy m.slice (c.w 0 % 2 ^ 24) = false → exec (.mrDereg c) s = .next ⟨replied
       { d with skid := { d.skid with mrs := tblDel d.skid.mrs (c.w 0 % 2 ^ 24) } } c 0x0308 stOk 0 [], s.pending⟩))) ∧
  (∀ (s : State) (c : Cmd) (b : List Byte) (n : Nat), Served s.dev c 0x0309 [.m, .s] → zeroFrom c 1 = true → s.dev.objectSlice c = none →
    tblFree s.dev.skid.ahs (2 ^ 16) = some n →
    (let d := s.dev.takeEntry c 0x0309
     let good := zeroAt b 28 4 = true ∧ fieldAt b 24 1 < 64 ∧ fieldAt b 25 1 < 32
     (good → exec (.ahCreate c (some b)) s = .next ⟨replied { d with skid := { d.skid with ahs := tblPut d.skid.ahs n ⟨c.target, BitVec.ofNat 128 (fieldAt b 0 16), BitVec.ofNat 48 (fieldAt b 16 6), fieldAt b 22 2, fieldAt b 24 1, fieldAt b 25 1, fieldAt b 26 2⟩ } }
       c 0x0309 stOk 0 (le 2 n), s.pending⟩) ∧
     (¬ good → exec (.ahCreate c (some b)) s = .next ⟨replied d c 0x0309 stRefused rsBadField [], s.pending⟩) ∧
     exec (.ahCreate c none) s = .next ⟨replied d c 0x0309 stRefused rsBadField [], s.pending⟩)) ∧
  (∀ (s : State) (c : Cmd), Served s.dev c 0x030A [.m, .s] → zeroFrom c 1 = true → c.w 0 < 2 ^ 16 → s.dev.objectSlice c = none →
    (let d := s.dev.takeEntry c 0x030A
     (tblGet s.dev.skid.ahs (c.w 0) = none → exec (.ahDestroy c) s = .next ⟨replied d c 0x030A stRefused rsWrongState [], s.pending⟩) ∧
     (∀ a, tblGet s.dev.skid.ahs (c.w 0) = some a → a.slice ≠ c.target → exec (.ahDestroy c) s = .next ⟨replied d c 0x030A stRefused rsNotPermitted [], s.pending⟩) ∧
     (∀ a, tblGet s.dev.skid.ahs (c.w 0) = some a → a.slice = c.target → exec (.ahDestroy c) s = .next ⟨replied
       { d with skid := { d.skid with ahs := tblDel d.skid.ahs (c.w 0) } } c 0x030A stOk 0 [], s.pending⟩)))

/-- Served QP_CREATE with a usable template gives the lowest free QPN from 2 on a context in RESET with the fields
of the template, at line rate, and answers it. QP_MODIFY of a cached queue pair of the slice, by a transition
of R184, sets the fields whose words the mask names and the state; RESET starts the sequence state over and
ERR ends what is queued. QP_QUERY reports the context, without addresses and keys to a manager of a tenant
slice. QP_DESTROY leaves no queue pair and no miss chain. For an uncached queue pair the context is fetched
first: without it MODIFY and DESTROY are REFUSED, and one whose entry is not authentic does not exist. A queue
pair of another slice or of a plan, or a wrong transition, is REFUSED. Each command completes. Commands for
which it says that exec answers a next state with their effect, under conditions on the state and the operands
alone: qpCreate, qpModify, qpDestroy, qpQuery. (R184, R190, R191, R193, R213, R281, R377, 06_skid_transport) -/
def Obligations.QueuePairCommandsActOnContexts : Prop :=
  (∀ (s : State) (c : Cmd) (b : List Byte) (n : Nat), Served s.dev c 0x0301 [.m, .s] → zeroFrom c 1 = true → s.dev.objectSlice c = none →
    (s.dev.slice c.target).state = .active →
    (let t := unle (bytesAt b 0 256)
     let mode := modeOf t c.mgrPort.isSome
     let q := (((Qp.of 0).put cMode mode).put cSlice c.target).copyFrom t (2 ^ 64 - 1)
     let d := s.dev.takeEntry c 0x0301
     ((bit mode 2 = false ∨ q.fieldsOk = false) → exec (.qpCreate c (some b)) s = .next ⟨replied d c 0x0301 stRefused rsBadField [], s.pending⟩) ∧
     (bit mode 2 = true → q.fieldsOk = true → s.dev.namesOk c q = false → exec (.qpCreate c (some b)) s = .next ⟨replied d c 0x0301 stRefused rsNotPermitted [], s.pending⟩) ∧
     (bit mode 2 = true → q.fieldsOk = true → s.dev.namesOk c q = true → s.dev.freeQpn = some n → s.dev.qpCount c.target ≥ (s.dev.slice c.target).qpQuota →
       exec (.qpCreate c (some b)) s = .next ⟨replied d c 0x0301 stRefused 0x42 [], s.pending⟩) ∧
     (bit mode 2 = true → q.fieldsOk = true → s.dev.namesOk c q = true → s.dev.freeQpn = some n → s.dev.qpCount c.target < (s.dev.slice c.target).qpQuota →
       (s.dev.cacheSlot q.die).isSome = true →
       ∃ (e : Dev) (x : Qp), exec (.qpCreate c (some b)) s = .next ⟨replied e c 0x0301 stOk 0 (le 3 n), s.pending⟩ ∧ e.qp n = some x ∧
         2 ≤ n ∧ s.dev.qp n = none ∧ (∀ m, 2 ≤ m → m < n → (s.dev.qp m).isSome = true) ∧ x.f cVersion = 0x0100 ∧ x.f cState = qsReset ∧ x.f cMode = mode ∧
         x.f cQpn = n % 2 ^ 24 ∧ x.f cSlice = c.target % 512 ∧ x.f cRc = s.dev.portRate (q.f cPort) % 2 ^ 32 ∧ (∀ f ∈ templateFields, x.f f = bits t f.lo f.w) ∧
         x.cache.isSome = true ∧ x.sq = [] ∧ x.sent = [] ∧ (∀ m, m ≠ n → e.qp m = s.dev.qp m) ∧ e.skid.cqs = s.dev.skid.cqs ∧ e.mem = s.dev.mem))) ∧
  (∀ (s : State) (c : Cmd) (tpl : Option (List Byte)) (q : Qp), Served s.dev c 0x0302 [.m, .s] → zeroFrom c 3 = true → c.w 0 < 2 ^ 27 → s.dev.objectSlice c = none →
    s.dev.qp (c.w 0 % 2 ^ 24) = some q → q.cache.isSome = true →
    (let n := c.w 0 % 2 ^ 24
     let st := c.w 0 / 2 ^ 24
     let d := s.dev.takeEntry c 0x0302
     (st ≠ 7 → st ≠ qsSqe → q.f cSlice ≠ c.target → exec (.qpModify c tpl none) s = .next ⟨replied d c 0x0302 stRefused rsNotPermitted [], s.pending⟩) ∧
     (st ≠ 7 → st ≠ qsSqe → q.f cSlice = c.target → q.isColl = true → exec (.qpModify c tpl none) s = .next ⟨replied d c 0x0302 stRefused rsNotPermitted [], s.pending⟩) ∧
     (st ≠ 7 → st ≠ qsSqe → q.f cSlice = c.target → q.isColl = false → transitionOk (q.f cState) st = false →
       exec (.qpModify c tpl none) s = .next ⟨replied d c 0x0302 stRefused rsWrongState [], s.pending⟩) ∧
     (q.f cSlice = c.target → q.isColl = false → transitionOk (q.f cState) st = true → c.w 1 = 0 → q.fieldsOk = true → q.isSkid = true → s.dev.namesOk c q = true → q.sq = [] →
       (st = qsInit ∨ st = qsRtr ∨ st = qsRts ∨ st = qsSqd ∨ (st = qsErr ∧ s.dev.waitersOf n = []) ∨ st = qsReset) →
       ∃ (e : Dev) (x : Qp), exec (.qpModify c tpl none) s = .next ⟨replied e c 0x0302 stOk 0 [], s.pending⟩ ∧ e.qp n = some x ∧ x.f cState = st ∧
         (∀ f ∈ templateFields, x.f f = q.f f) ∧ (st = qsReset → x.f cSqPsn = 0 ∧ x.f cEpsn = 0 ∧ x.f cSqMsn = 0 ∧ x.f cRqMsn = 0 ∧ x.sent = [] ∧ x.rq = []) ∧
         (st = qsRtr → x.rq = [] ∧ x.rqNext = q.f cRqMsn)) ∧
     (∀ b, q.f cSlice = c.target → q.isColl = false → transitionOk (q.f cState) st = true → tpl = some b → bit (c.w 1) 0 = false → (st = qsInit ∨ st = qsRtr) →
       (let q' := (q.put cMode (q.f cMode)).copyFrom (unle (bytesAt b 0 256)) (c.w 1)
        q'.fieldsOk = true → q'.isSkid = true → s.dev.namesOk c q' = true → q'.f cPort = q.f cPort → q'.f cTc = q.f cTc →
        ∃ (e : Dev) (x : Qp), exec (.qpModify c tpl none) s = .next ⟨replied e c 0x0302 stOk 0 [], s.pending⟩ ∧ e.qp n = some x ∧ (st = qsRtr → x.f cState = st) ∧
          (∀ f ∈ templateFields, x.f f = if bit (c.w 1) (f.lo / 32) then bits (unle (bytesAt b 0 256)) f.lo f.w else q.f f))))) ∧
  (∀ (s : State) (c : Cmd) (tpl : Option (List Byte)) (q : Qp), s.dev.objectSlice c = none → s.dev.qp (c.w 0 % 2 ^ 24) = some q → q.cache = none →
    (let n := c.w 0 % 2 ^ 24
     (Served s.dev c 0x0302 [.m, .s] → zeroFrom c 3 = true → c.w 0 < 2 ^ 27 → c.w 0 / 2 ^ 24 ≠ 7 → c.w 0 / 2 ^ 24 ≠ qsSqe →
       (let d := s.dev.takeEntry c 0x0302
        exec (.qpModify c tpl none) s = .next ⟨replied (d.fetchCtx n) c 0x0302 stRefused rsFetchFailed [], s.pending⟩ ∧
        exec (.qpModify c tpl (some .failed)) s = .next ⟨replied (d.fetchDone n .failed) c 0x0302 stRefused rsFetchFailed [], s.pending⟩ ∧
        ∀ bs, d.openEntry n bs = none → exec (.qpModify c tpl (some (.entry bs))) s =
          .next ⟨replied (d.fetchDone n (.entry bs)) c 0x0302 stRefused rsWrongState [], s.pending⟩)) ∧
     (Served s.dev c 0x0304 [.m, .s] → zeroFrom c 1 = true → c.w 0 < 2 ^ 24 →
       (let d := s.dev.takeEntry c 0x0304
        exec (.qpDestroy c none) s = .next ⟨replied (d.fetchCtx n) c 0x0304 stRefused rsFetchFailed [], s.pending⟩ ∧
        exec (.qpDestroy c (some .failed)) s = .next ⟨replied (d.fetchDone n .failed) c 0x0304 stRefused rsFetchFailed [], s.pending⟩ ∧
        ∀ bs, d.openEntry n bs = none → exec (.qpDestroy c (some (.entry bs))) s =
          .next ⟨replied (d.fetchDone n (.entry bs)) c 0x0304 stRefused rsWrongState [], s.pending⟩)) ∧
     (Served s.dev c 0x0303 [.m, .s] → zeroFrom c 2 = true → c.w 0 < 2 ^ 24 → n ∈ s.dev.skid.absent →
       exec (.qpQuery c) s = .next ⟨replied (s.dev.takeEntry c 0x0303) c 0x0303 stRefused rsWrongState [], s.pending⟩))) ∧
  (∀ (s : State) (c : Cmd) (q : Qp), Served s.dev c 0x0303 [.m, .s] → zeroFrom c 2 = true → c.w 0 < 2 ^ 24 → s.dev.objectSlice c = none → s.dev.qp (c.w 0) = some q →
    (q.cache.isSome = true ∨ c.w 0 ∉ s.dev.skid.absent) →
    (q.f cSlice ≠ c.target → exec (.qpQuery c) s = .next ⟨replied (s.dev.takeEntry c 0x0303) c 0x0303 stRefused rsNotPermitted [], s.pending⟩) ∧
    (q.f cSlice = c.target → ∃ ctx, exec (.qpQuery c) s = .next ⟨replied ((s.dev.takeEntry c 0x0303).report (s.dev.ownerOf c 0x0303) (c.w 1) (le 256 (BitVec.toNat ctx)))
        c 0x0303 stOk 0 [], s.pending⟩ ∧
      ((c.mgrPort = none ∨ (s.dev.slice c.target).kind = .pf0) → ctx = q.ctx) ∧
      (c.mgrPort.isSome = true → (s.dev.slice c.target).kind = .tenant →
        (∀ f ∈ [cSqAddr, cRqAddr, cQkey, cPd, cKeySlot], bits ctx.toNat f.lo f.w = 0) ∧ (∀ f ∈ [cState, cQpn, cDestQpn, cSqPsn, cEpsn, cRc], bits ctx.toNat f.lo f.w = q.f f)))) ∧
  (∀ (s : State) (c : Cmd) (q : Qp), Served s.dev c 0x0304 [.m, .s] → zeroFrom c 1 = true → c.w 0 < 2 ^ 24 → s.dev.objectSlice c = none → s.dev.qp (c.w 0) = some q →
    q.cache.isSome = true →
    ((q.f cSlice ≠ c.target ∨ q.isColl = true) → exec (.qpDestroy c none) s = .next ⟨replied (s.dev.takeEntry c 0x0304) c 0x0304 stRefused rsNotPermitted [], s.pending⟩) ∧
    (q.f cSlice = c.target → q.isColl = false → ∃ e : Dev, exec (.qpDestroy c none) s = .next ⟨replied e c 0x0304 stOk 0 [], s.pending⟩ ∧ e.qp (c.w 0) = none ∧
      (∀ die, e.chain die (c.w 0) = []) ∧ c.w 0 ∉ e.skid.absent ∧ (s.dev.waitersOf (c.w 0) = [] → ∀ m, m ≠ c.w 0 → e.qp m = s.dev.qp m))) ∧
  (∀ (s : State) (c : Cmd), Served s.dev c 0x0304 [.m, .s] → zeroFrom c 1 = true → c.w 0 < 2 ^ 24 → s.dev.objectSlice c = none → s.dev.qp (c.w 0) = none →
    exec (.qpDestroy c none) s = .next ⟨replied (s.dev.takeEntry c 0x0304) c 0x0304 stRefused rsWrongState [], s.pending⟩)

/-- A doorbell that the page rules refuse, with a set reserved bit, or that names no queue of that slice, is
discarded and counted. A send doorbell of a cached queue pair sets the tail; a receive doorbell posts the
receive entries between the indexes, in order of the MSN that selects them, and an entry whose ring address is
in no window of the slice puts the queue pair in ERR; in RESET and INIT nothing is posted. One for an uncached
queue pair is kept, in place of an older one of its kind, and fetches the context. A completion queue doorbell
sets the head and arms the vector. Other queue pairs stay. Commands for which it says that exec answers a next
state with their effect, under conditions on the state and the operands alone: qpDoorbellWrite,
cqDoorbellWrite. (R185, R192, R208, R256, R257, 06_skid_transport) -/
def Obligations.DoorbellsMoveIndexes : Prop :=
  (∀ (s : State) (via : Via) (size : Nat) (v : W64) (poisoned : Bool) (rqes : List Rqe),
    (s.dev.pageOk via size 8 poisoned = none → exec (.qpDoorbellWrite via size v poisoned rqes) s = .next ⟨(s.dev.bellLost via).notePoison via poisoned, s.pending⟩ ∧
      exec (.cqDoorbellWrite via size v poisoned) s = .next ⟨(s.dev.bellLost via).notePoison via poisoned, s.pending⟩) ∧
    ((bits v.toNat 25 7 ≠ 0 ∨ bits v.toNat 48 16 ≠ 0) → poisoned = false → exec (.qpDoorbellWrite via size v poisoned rqes) s = .next ⟨s.dev.bellLost via, s.pending⟩) ∧
    ((bits v.toNat 20 4 ≠ 0 ∨ bits v.toNat 25 7 ≠ 0) → poisoned = false → exec (.cqDoorbellWrite via size v poisoned) s = .next ⟨s.dev.bellLost via, s.pending⟩) ∧
    (∀ sl, s.dev.pageOk via size 8 poisoned = some sl →
      (s.dev.qp (v.toNat % 2 ^ 24) = none → exec (.qpDoorbellWrite via size v poisoned rqes) s = .next ⟨s.dev.bellLost via, s.pending⟩) ∧
      (tblGet s.dev.skid.cqs (v.toNat % 2 ^ 20) = none → exec (.cqDoorbellWrite via size v poisoned) s = .next ⟨s.dev.bellLost via, s.pending⟩) ∧
      (∀ q, s.dev.qp (v.toNat % 2 ^ 24) = some q → bits v.toNat 25 7 = 0 → bits v.toNat 48 16 = 0 →
        (let n := v.toNat % 2 ^ 24
         let ix := bits v.toNat 32 16
         ((q.f cSlice ≠ sl ∨ q.isColl = true) → exec (.qpDoorbellWrite via size v poisoned rqes) s = .next ⟨s.dev.bellLost via, s.pending⟩) ∧
         (q.cache = none → v.toNat % 2 ^ 24 ∈ s.dev.skid.absent → exec (.qpDoorbellWrite via size v poisoned rqes) s = .next ⟨s.dev.bellLost via, s.pending⟩) ∧
         (q.f cSlice = sl → q.isColl = false → q.cache = none → v.toNat % 2 ^ 24 ∉ s.dev.skid.absent → exec (.qpDoorbellWrite via size v poisoned rqes) s = .next ⟨
           (s.dev.modQp n (fun q => { q with bells := q.bells.filter (fun b => b.1 != v.getLsbD 24) ++ [(v.getLsbD 24, ix, rqes)] })).fetchCtx n, s.pending⟩) ∧
         (q.f cSlice = sl → q.isColl = false → q.cache.isSome = true → v.getLsbD 24 = false → q.sq = [] →
           exec (.qpDoorbellWrite via size v poisoned rqes) s = .next ⟨s.dev.modQp n (fun q => { q with sqTail := ix }), s.pending⟩) ∧
         (q.f cSlice = sl → q.isColl = false → q.cache.isSome = true → v.getLsbD 24 = true → (q.f cState = qsReset ∨ q.f cState = qsInit) →
           exec (.qpDoorbellWrite via size v poisoned rqes) s = .next ⟨s.dev.modQp n (fun q => { q with rqTail := ix }), s.pending⟩) ∧
         (q.f cSlice = sl → q.isColl = false → q.cache.isSome = true → v.getLsbD 24 = true → (q.f cState = qsRtr ∨ q.f cState = qsRts) →
           (let ahead := (ix + 65536 - q.f cRqIdx) % 65536
            let k := if ahead > 2 ^ q.f cRqLog2 - 1 then 0 else min rqes.length (ahead - q.rq.length)
            (∀ i < k, (s.dev.iovaPort (q.f cSlice) (q.rqEntry i) 32 false).isSome = true) →
            ∃ t x, exec (.qpDoorbellWrite via size v poisoned rqes) s = .next t ∧ t.pending = s.pending ∧ t.dev.qp n = some x ∧ x.rqTail = ix ∧
              (let at_ := fun i => if i = 0 then q.rqNext else (q.rqNext + i) % 2 ^ 24
               x.rqNext = at_ k ∧ (∀ i < k, tblGet x.rq (at_ i) = rqes[i]?) ∧ (∀ m, (∀ i < k, m ≠ at_ i) → tblGet x.rq m = tblGet q.rq m)) ∧ x.ctx = q.ctx ∧ x.sq = q.sq ∧
              (∀ m, m ≠ n → t.dev.qp m = s.dev.qp m) ∧ t.dev = { s.dev with skid := { s.dev.skid with qps := t.dev.skid.qps } })) ∧
         (∀ i, q.f cSlice = sl → q.isColl = false → q.isDiag = false → q.cache.isSome = true → v.getLsbD 24 = true → (q.f cState = qsRtr ∨ q.f cState = qsRts) → s.dev.waitersOf n = [] →
           (ix + 65536 - q.f cRqIdx) % 65536 ≤ 2 ^ q.f cRqLog2 - 1 → i < min rqes.length ((ix + 65536 - q.f cRqIdx) % 65536 - q.rq.length) →
           s.dev.iovaPort (q.f cSlice) (q.rqEntry i) 32 false = none →
           ∃ t x, exec (.qpDoorbellWrite via size v poisoned rqes) s = .next t ∧ t.pending = s.pending ∧ t.dev.qp n = some x ∧ x.f cState = qsErr ∧ x.rq = [] ∧ x.sq = []))) ∧
      (∀ c, tblGet s.dev.skid.cqs (v.toNat % 2 ^ 20) = some c → bits v.toNat 20 4 = 0 → bits v.toNat 25 7 = 0 →
        (c.slice ≠ sl → exec (.cqDoorbellWrite via size v poisoned) s = .next ⟨s.dev.bellLost via, s.pending⟩) ∧
        (c.slice = sl → c.held = [] → exec (.cqDoorbellWrite via size v poisoned) s = .next ⟨{ s.dev with skid := { s.dev.skid with
          cqs := tblPut s.dev.skid.cqs (v.toNat % 2 ^ 20) { c with head := bits v.toNat 32 32, armed := c.armed || v.getLsbD 24 } } }, s.pending⟩)))) ∧
  (∀ (d : Dev) (port : Nat) (kind : FnKind) (sl size want : Nat) (poisoned : Bool), d.pageOk (.page port kind sl) size want poisoned = some sl ↔
    size = want ∧ poisoned = false ∧ d.fatal = false ∧ (d.slice sl).kind = kind ∧ (d.slice sl).ports.getLsbD port = true ∧ ((d.slice sl).home = port ∨ ((d.port port).fn kind).wasReset = false) ∧ (d.slice sl).state = .active)

/-- Without a posted entry, room in the completion queue or a cached context nothing is fetched. An entry whose
ring address is in no window puts the queue pair in ERR. In SQD an entry waits. In RTS with an empty queue an
admissible entry of one packet takes SQ_MSN and the next PSNs and its packet is sealed, tracked and queued;
NOP is done at once; WAIT is done or held by the count it names; a malformed entry, or one whose local address
fails, puts the queue pair in ERR; in ERR an entry completes with FLUSH_ERR and sends nothing. A complete
front entry leaves the queue, advances the ring index and, if OK, the completion count; otherwise WQE_COMPLETE
does nothing. Commands for which it says that exec answers a next state with their effect, under conditions on
the state and the operands alone: wqeSend, wqeSendImm, wqeWrite, wqeWriteImm, wqeRead, wqeCmpSwap,
wqeFetchAdd, wqeAtomicWrite, wqeFlush, wqeWait, wqeNop, wqeComplete. (R185, R189, R194, R202, R205, R206,
R208, R210, R213, 06_skid_transport) -/
def Obligations.SendEntriesStartAndComplete : Prop :=
  (∀ (s : State) (n op : Nat) (w : Wqe) (src : SrcData) (i : Instr) (q : Qp), s.dev.qp n = some q → q.isColl = false →
    (i, op) ∈ [(Instr.wqeSend n w src, 0x00), (Instr.wqeSendImm n w src, 0x01), (Instr.wqeWrite n w src, 0x08), (Instr.wqeWriteImm n w src, 0x09), (Instr.wqeRead n w src, 0x10), (Instr.wqeCmpSwap n w src, 0x18), (Instr.wqeFetchAdd n w src, 0x19), (Instr.wqeAtomicWrite n w src, 0x1A), (Instr.wqeFlush n w src, 0x20), (Instr.wqeWait n w src, 0x30), (Instr.wqeNop n w src, 0x31)] →
    ((q.posted = 0 ∨ s.dev.sliceFetches (q.f cSlice) = false ∨ s.dev.cqRoom (q.f cScqn) = false ∨ s.dev.cellRoom q.die (q.f cSlice) = false ∨ q.cache = none) → exec i s = .next s) ∧
    (q.posted > 0 → s.dev.sliceFetches (q.f cSlice) = true → s.dev.cqRoom (q.f cScqn) = true → s.dev.cellRoom q.die (q.f cSlice) = true → q.cache.isSome = true →
      s.dev.iovaPort (q.f cSlice) q.sqEntry 64 false = none → (q.f cState = qsRts ∨ q.f cState = qsSqd) → q.isDiag = false → s.dev.waitersOf n = [] →
      ∃ t x, exec i s = .next t ∧ t.pending = s.pending ∧ t.dev.qp n = some x ∧ x.f cState = qsErr ∧ x.sq = [] ∧ x.sent = [] ∧ t.dev.path = s.dev.path) ∧
    (q.posted > 0 → s.dev.sliceFetches (q.f cSlice) = true → s.dev.cqRoom (q.f cScqn) = true → s.dev.cellRoom q.die (q.f cSlice) = true → q.cache.isSome = true →
      q.f cState ∉ [qsRts, qsSqd, qsErr] → exec i s = .next s) ∧
    (q.posted > 0 → s.dev.sliceFetches (q.f cSlice) = true → s.dev.cqRoom (q.f cScqn) = true → s.dev.cellRoom q.die (q.f cSlice) = true → q.cache.isSome = true →
      (s.dev.iovaPort (q.f cSlice) q.sqEntry 64 false).isSome = true →
      (let e : SqEnt := ⟨if wqeOpcodes.contains w.opcode then op else w.opcode, w, src, .held, 0, 0, 0, 0, 0, 0, [], src.poison.any (fun b => b), stOk, false⟩
       (q.f cState = qsSqd → exec i s = .next ⟨s.dev.modQp n (fun q => { q with sq := q.sq ++ [e] }), s.pending⟩) ∧
       (q.f cState = qsErr → exec i s = .next ⟨s.dev.sqComplete n { e with status := stFlush }, s.pending⟩) ∧
       (q.f cState = qsRts → q.rnr = none → q.sq = [] → q.isUd = false → q.isDiag = false →
         ((q.malformed e.op w = true ∨ (q.malformed e.op w = false ∧ w.disarmed = false ∧ needsLocal e.op = true ∧ s.dev.localOk q e = false)) →
           s.dev.waitersOf n = [] → ∃ t x, exec i s = .next t ∧ t.pending = s.pending ∧ t.dev.qp n = some x ∧ x.f cState = qsErr ∧ x.sq = [] ∧ x.sent = [] ∧ t.dev.path = s.dev.path) ∧
         (q.malformed e.op w = false → w.disarmed = false → e.op = 0x31 → ∃ t, exec i s = .next t ∧ t.pending = s.pending ∧ t.dev.qp n = some { q with sq := [{ e with st := .done }] } ∧ (∀ m, m ≠ n → t.dev.qp m = s.dev.qp m) ∧ t.dev = { s.dev with skid := { s.dev.skid with qps := t.dev.skid.qps } }) ∧
         (q.malformed e.op w = false → w.disarmed = false → e.op = 0x30 → s.dev.waitReady q w = some true →
           ∃ t, exec i s = .next t ∧ t.pending = s.pending ∧ t.dev.qp n = some { q with sq := [{ e with st := .done }] } ∧ (∀ m, m ≠ n → t.dev.qp m = s.dev.qp m) ∧ t.dev = { s.dev with skid := { s.dev.skid with qps := t.dev.skid.qps } }) ∧
         (q.malformed e.op w = false → w.disarmed = false → e.op = 0x30 → s.dev.waitReady q w = some false →
           ∃ t, exec i s = .next t ∧ t.pending = s.pending ∧ t.dev.qp n = some { q with sq := [e] } ∧ (∀ m, m ≠ n → t.dev.qp m = s.dev.qp m) ∧ t.dev = { s.dev with skid := { s.dev.skid with qps := t.dev.skid.qps } }) ∧
         (∀ k v k', q.malformed e.op w = false → w.disarmed = false → e.op ≠ 0x30 → e.op ≠ 0x31 → (needsLocal e.op = true → s.dev.localOk q e = true) →
           q.isSkid = true → s.dev.mayTrack q (q.f cSqPsn) = true → s.dev.key (q.f cKeySlot) = some k → k.state = .loaded → useAllows k.use 1 = true →
           k.take q.die = some (v, k') → (isData e.op = true → q.psnsOf e.op w.len = 1) →
           ∃ t x y z, exec i s = .next t ∧ t.pending = s.pending ∧ t.dev.qp n = some x ∧ x.sq = [y] ∧ y.op = e.op ∧ y.w = w ∧ y.st = .active ∧ y.msn = q.f cSqMsn ∧
             y.psn = q.f cSqPsn ∧ y.npkt = q.psnsOf e.op w.len ∧ y.assigned = 1 ∧ y.status = stOk ∧ x.f cSqPsn = (q.f cSqPsn + q.psnsOf e.op w.len) % 2 ^ 24 ∧
             x.f cSqMsn = (q.f cSqMsn + 1) % 2 ^ 24 ∧ x.f cUna = q.f cUna ∧ x.f cState = qsRts ∧ x.sent = q.sent ++ [z] ∧ z.psn = q.f cSqPsn ∧ z.times = 1 ∧ z.sacked = false ∧
             t.dev.key (q.f cKeySlot) = some k' ∧ (∀ m, m ≠ n → t.dev.qp m = s.dev.qp m) ∧ t.dev.skid.cqs = s.dev.skid.cqs ∧ t.dev.mem = s.dev.mem))))) ∧
  (∀ (s : State) (n : Nat) (q : Qp), s.dev.qp n = some q →
    (q.sq = [] → exec (.wqeComplete n) s = .next s) ∧
    (∀ e rest, q.sq = e :: rest → e.complete = false → exec (.wqeComplete n) s = .next s) ∧
    (∀ e, q.sq = [e] → e.complete = true → (∀ x ∈ s.dev.skid.qps, x.1 ≠ n → ∀ y ∈ x.2.sq, y.op ≠ 0x30) →
      ∃ t x, exec (.wqeComplete n) s = .next t ∧ t.pending = s.pending ∧ t.dev.qp n = some x ∧ x.sq = [] ∧ x.sent = q.sent ∧
        x.f cSqIdx = (q.f cSqIdx + 1) % 65536 ∧ x.f cSqComp = (if e.status = stOk then (q.f cSqComp + 1) % 2 ^ 32 else q.f cSqComp) ∧
        (e.st = .active → (∃ y ∈ q.sent, y.psn = (e.psn + max 1 e.npkt - 1) % 2 ^ 24) → x.late = q.late ++ [⟨e.w.wrId, e.psn, (e.psn + max 1 e.npkt - 1) % 2 ^ 24, e.op⟩]) ∧
        (e.w.signaled = false → e.status = stOk → t.dev.skid.cqs = s.dev.skid.cqs ∧ t.dev.out = s.dev.out) ∧
        (∀ c, q.isColl = false → (e.w.signaled = true ∨ e.status ≠ stOk) → tblGet s.dev.skid.cqs (q.f cScqn) = some c → c.full = false → c.held = [] →
          ∃ c', tblGet t.dev.skid.cqs (q.f cScqn) = some c' ∧ c'.written = (c.written + 1) % 2 ^ 32 ∧ c'.head = c.head) ∧
        (∀ m, m ≠ n → t.dev.qp m = s.dev.qp m) ∧ t.dev.mem = s.dev.mem ∧ t.dev.path = s.dev.path))

/-- For each of the ten packet commands: a packet for no queue pair is dropped and counted while no backing store
is in use, a report in its own count. One of another slice, of a slice that is neither ACTIVE nor QUIESCING,
or after a fatal fault is dropped. For a context that is not cached, or that only the backing store may hold,
it joins the chain of its QPN on the die that it came to, in order, while CHAIN_MAX, the cells and the pool
allow, and the first one fetches the context. In the wrong mode, with an opcode that its kind does not have,
with a bad ICRC or SXH, without its session or with a bad tag it is dropped, a bad tag also counted in
AUTH_FAIL; in RESET, INIT or ERR it is dropped. Nothing else changes. A sealed packet without such a session
is dropped as a bad tag is (the choice of log 67). Commands for which it says that exec answers a next state
with their effect, under conditions on the state and the operands alone: rxDataPacket, rxReadRequest,
rxAtomicRequest, rxFlushRequest, rxSack, rxNak, rxReadResponse, rxAtomicResponse, rxCnp, rxRcReport. (R182,
R189, R192, R193, R195, R200, R235, R401, 06_skid_transport) -/
def Obligations.ReceivedPacketsAreCheckedFirst : Prop :=
  ∀ (s : State) (i : Instr) (p : RxPkt),
    ((∃ x, i = Instr.rxDataPacket x ∧ p = .data x) ∨ (∃ x, i = Instr.rxReadRequest x ∧ p = .read x) ∨ (∃ o x, i = Instr.rxAtomicRequest o x ∧ p = .atomic o x) ∨
     (∃ x b, i = Instr.rxFlushRequest x b ∧ p = .flush x b) ∨ (∃ h a r, i = Instr.rxSack h a r ∧ p = .sack { h with aeth := a } r) ∨ (∃ h a, i = Instr.rxNak h a ∧ p = .nak { h with aeth := a }) ∨
     (∃ h b m, i = Instr.rxReadResponse h b m ∧ p = .readResp h b m) ∨ (∃ h v, i = Instr.rxAtomicResponse h v ∧ p = .atomicResp h v) ∨
     (∃ h, i = Instr.rxCnp h ∧ p = .cnp h) ∨ (∃ h a, i = Instr.rxRcReport h a ∧ p = .report { h with aeth := a })) →
    (let h := rxHdr p
     let n := h.qpn
     let chain := s.dev.chain h.die n
     let isReport := match p with | .report _ => true | _ => false
     let drop := fun (why : Nat) => s.dev.count (4096 + 0x200 + 128 * h.die.num + why)
     let takes := (s.dev.slice h.slice).state = .active ∨ (s.dev.slice h.slice).state = .quiescing
     let parks := (s.dev.qp n = none ∧ isReport = false ∧ s.dev.bsEn = true) ∨
       (∃ q, s.dev.qp n = some q ∧ q.f cSlice = h.slice ∧ takes ∧ s.dev.fatal = false ∧ (q.cache = none ∨ chain ≠ []))
     let known := s.dev.bsEn = true ∧ n < s.dev.fld F.SKD_BS_CTRL_COUNT 0 ∧ n ∉ s.dev.skid.absent
     let full := chain.length ≥ max 1 (s.dev.fld F.SKD_MISS_CFG_CHAIN_MAX 0) ∨ (chain = [] ∧ s.dev.chainsOn h.die ≥ 2048) ∨
       s.dev.missCells h.die + p.cells > s.dev.fld F.SKD_MISS_CFG_CELLS 0
     (s.dev.qp n = none → (isReport = true ∨ s.dev.bsEn = false) → exec i s = .next ⟨drop (if isReport then skReportLost else skDropAbsent), s.pending⟩) ∧
     (parks → ¬ known → exec i s = .next ⟨drop skDropAbsent, s.pending⟩) ∧
     (parks → known → full → exec i s = .next ⟨drop skDropChain, s.pending⟩) ∧
     (parks → known → ¬ full → p.cells > s.dev.boomFree h.die → exec i s = .next ⟨s.dev.count (itBoomDrop h.die 3), s.pending⟩) ∧
     (parks → known → ¬ full → p.cells ≤ s.dev.boomFree h.die →
       (let d := ({ s.dev with skid := { s.dev.skid with chains := tblPut s.dev.skid.chains (chainKey h.die n) (chain ++ [p]) } }).noteFree h.die
        (chain ≠ [] → exec i s = .next ⟨d, s.pending⟩) ∧ (chain = [] → exec i s = .next ⟨d.fetchCtx n, s.pending⟩))) ∧
     (∀ q, s.dev.qp n = some q →
       ((q.f cSlice ≠ h.slice ∨ s.dev.fatal = true) → exec i s = .next ⟨drop skDropHdr, s.pending⟩) ∧
       (q.f cSlice = h.slice → ¬ takes → s.dev.fatal = false → exec i s = .next ⟨drop skDropSlice, s.pending⟩) ∧
       (q.f cSlice = h.slice → takes → s.dev.fatal = false → q.cache.isSome = true → chain = [] →
         (let plain := h.bth ++ p.body
          let shut := q.f cState < 2 ∨ q.f cState = qsErr
          let badTag := (drop skDropTag).bumpFld (F.BRK_DIE_ERR_AUTH_FAIL h.die.num) 0 1
          (h.skid ≠ q.isSkid → exec i s = .next ⟨drop skDropHdr, s.pending⟩) ∧
          (h.skid = q.isSkid → h.op ∉ p.ops → exec i s = .next ⟨drop skDropOption, s.pending⟩) ∧
          (h.skid = q.isSkid → h.op ∈ p.ops →
            (q.isSkid = false → (h.op = 0xC0 ∨ h.op = 0xC1) → exec i s = .next ⟨drop skDropHdr, s.pending⟩) ∧
            (q.isSkid = false → h.op ≠ 0xC0 → h.op ≠ 0xC1 → h.icrc ≠ icrcOf h.net plain → exec i s = .next ⟨drop skDropIcrc, s.pending⟩) ∧
            (q.isSkid = false → h.op ≠ 0xC0 → h.op ≠ 0xC1 → h.icrc = icrcOf h.net plain → shut → exec i s = .next ⟨drop skDropState, s.pending⟩) ∧
            (q.isSkid = true → h.sxhOk = false → exec i s = .next ⟨drop skDropHdr, s.pending⟩) ∧
            (q.isSkid = true → h.sxhOk = true → s.dev.rxSession q h = none → exec i s = .next ⟨badTag, s.pending⟩) ∧
            (∀ id k, q.isSkid = true → h.sxhOk = true → s.dev.rxSession q h = some id → s.dev.key h.session = some k →
              (let x := gcmSeal k.bytes (nonce k.salt h.ivctr) (h.bth ++ h.sxh) p.body
               let good := h.icrc = icrcOf h.net (h.bth ++ h.sxh ++ x.1 ++ h.icv)
               (¬ good → exec i s = .next ⟨drop skDropIcrc, s.pending⟩) ∧
               (good → x.2 ≠ h.icv → exec i s = .next ⟨badTag, s.pending⟩) ∧
               (good → x.2 = h.icv → shut → exec i s = .next ⟨(s.dev.noteIv id h.ivctr).count (4096 + 0x200 + 128 * h.die.num + skDropState), s.pending⟩))))))))

/-- For an accepted packet that is next in PSN and message order: a WRITE places its payload where its RETH and
key allow, or is answered with a NAK and changes nothing; a SEND places it at the posted entry, consumes the
entry and completes once, after zero-length reads when its data went to another port, or without an entry is
answered RNR; READ and FLUSH change no memory; an atomic writes the new value and keeps the old one for
duplicates. Each moves EPSN by its PSNs and RQ_MSN by one. A duplicate is only acknowledged. A datagram
without a posted entry is dropped. A report completes on the receive queue without an entry. Commands for
which it says that exec answers a next state with their effect, under conditions on the state and the operands
alone: rxDataPacket, rxReadRequest, rxAtomicRequest, rxFlushRequest, rxRcReport. (R186, R187, R196, R200,
R201, R204, R206, R207, R208, R215, 06_skid_transport) -/
def Obligations.ReceivedDataAndRequestsAreServed : Prop :=
  ∀ (s : State) (q : Qp) (p : RxPkt) (d : Dev), Accepted s.dev q p d → NoWaits s.dev →
    (let h := rxHdr p
     let msn := q.msnOf h
     let next := h.psn = q.f cEpsn ∧ msn = q.f cRqMsn ∧ q.msgs = [] ∧ q.reqs = [] ∧ q.held = [] ∧ q.fence = none ∧ h.ackreq = false ∧
       q.unacked + 1 < max 1 (s.dev.fld F.SKD_RETX_ACK_COALESCE 0)
     let off := if q.isSkid then h.offset else 0
     let moved := fun (x : Qp) (span : Nat) => x.f cEpsn = (h.psn + span) % 2 ^ 24 ∧ x.f cRqMsn = (q.f cRqMsn + 1) % 2 ^ 24 ∧ x.msgs = [] ∧ x.reqs = [] ∧ x.held = [] ∧
       x.fence = none ∧ x.f cState = q.f cState ∧ x.sq = q.sq ∧ x.sent = q.sent
     let others := fun (t : Dev) => (∀ m, m ≠ h.qpn → t.qp m = s.dev.qp m) ∧ t.mill = s.dev.mill ∧ t.slices = s.dev.slices
     (q.isUd = true → ∀ (x : DataPkt), p = .data x → h.ce = false → udOps.contains h.op = true → (∀ e ∈ q.rq, q.msgs.any (fun m => m.msn == e.1) = true) →
       exec (.rxDataPacket x) s = .next ⟨d.rxDrop q.die skDropState, s.pending⟩) ∧
     (q.isUd = false →
      (∀ (x : DataPkt), p = .data x → h.ce = false → udOps.contains h.op = false →
       (let whole := (q.isSkid = true → h.msgLen = off + x.payload.length ∧ off = 0) ∧ (q.isSkid = false → x.last = true)
        (∀ parts, x.isWrite = true → x.imm = none → next → whole → rethOps.contains h.op = true → x.payload ≠ [] → off + x.payload.length ≤ x.reth.len →
          (d.remotePlace q x.reth.rkey x.reth.va x.reth.len 0).isSome = true → d.remotePlace q x.reth.rkey (x.reth.va + off) x.payload.length 0 = some (.mem parts) →
          ∃ t y, exec (.rxDataPacket x) s = .next t ∧ t.pending = s.pending ∧ t.dev.qp h.qpn = some y ∧ moved y 1 ∧ others t.dev ∧
            t.dev.mem = (d.memPlace parts x.payload x.marks).mem ∧ t.dev.skid.cqs = s.dev.skid.cqs) ∧
        (x.isWrite = true → x.imm = none → h.psn = q.f cEpsn → rethOps.contains h.op = true → (q.isSkid = true ∨ q.msgs = []) → x.payload ≠ [] →
          (off + x.payload.length > x.reth.len ∨ d.remotePlace q x.reth.rkey x.reth.va x.reth.len 0 = none ∨ d.remotePlace q x.reth.rkey (x.reth.va + off) x.payload.length 0 = none) →
          exec (.rxDataPacket x) s = .next ⟨d.sendNak h.qpn h.psn h.path .remAccess, s.pending⟩) ∧
        (∀ r port a, x.isWrite = false → next → whole → q.isColl = false → x.payload ≠ [] → tblGet q.rq msn = some r → off + x.payload.length ≤ r.len →
          d.localPlace q (r.addr + off) x.payload.length = some (.pcie port a) → d.cqRoom (q.f cRcqn) = true →
          (d.canIssue port (d.slice (q.f cSlice)).kind = false → exec (.rxDataPacket x) s = .next ⟨d.rxDrop h.die skDropHeld, s.pending⟩) ∧
          (d.canIssue port (d.slice (q.f cSlice)).kind = true → ∃ t y, exec (.rxDataPacket x) s = .next t ∧ t.pending = s.pending ∧ t.dev.qp h.qpn = some y ∧ others t.dev ∧ t.dev.mem = s.dev.mem ∧
            y.f cEpsn = (h.psn + 1) % 2 ^ 24 ∧
            (y.fence.isSome = true → y.msgs ≠ [] ∧ y.f cRqMsn = q.f cRqMsn ∧ y.rq = q.rq ∧ t.dev.skid.cqs = s.dev.skid.cqs) ∧
            (d.rcqPort q = some port → moved y 1 ∧ y.rq = tblDel q.rq msn ∧ y.f cRqIdx = (q.f cRqIdx + 1) % 65536 ∧ y.f cRqComp = (q.f cRqComp + 1) % 2 ^ 32 ∧
              (∀ c, tblGet s.dev.skid.cqs (q.f cRcqn) = some c → ∃ c', tblGet t.dev.skid.cqs (q.f cRcqn) = some c' ∧ c'.written = (c.written + 1) % 2 ^ 32)))) ∧
        (x.isWrite = false → h.psn = q.f cEpsn → tblGet q.rq msn = none → exec (.rxDataPacket x) s = .next ⟨d.sendNak h.qpn h.psn h.path .rnr, s.pending⟩) ∧
        (q.psnClass h.psn = .dup → exec (.rxDataPacket x) s = .next ⟨d.sendAck h.qpn h.path, s.pending⟩))) ∧
      (∀ (x : ReqPkt) parts, p = .read x → next → d.remotePlace q x.rkey x.va x.len 1 = some (.mem parts) → (q.isSkid = true ∨ (d.memMarks parts).any (fun b => b) = false) →
        ∃ t y, exec (.rxReadRequest x) s = .next t ∧ t.pending = s.pending ∧ t.dev.qp h.qpn = some y ∧ moved y (max 1 ((x.len + q.mtu - 1) / q.mtu)) ∧ others t.dev ∧
          t.dev.mem = s.dev.mem ∧ t.dev.skid.cqs = s.dev.skid.cqs) ∧
      (∀ (op : AtomicOp) (x : ReqPkt) parts, p = .atomic op x → next → x.va % 8 = 0 → d.remotePlace q x.rkey x.va 8 2 = some (.mem parts) →
        (let old : W64 := BitVec.ofNat 64 (unle (d.memBytes parts))
         let new := match op with | .cmpSwap => if old = x.a then x.b else old | .fetchAdd => old + x.a | .write => x.a
         ∃ t y, exec (.rxAtomicRequest op x) s = .next t ∧ t.pending = s.pending ∧ t.dev.qp h.qpn = some y ∧ moved y 1 ∧ others t.dev ∧
           y.atomics = ((h.psn, old) :: q.atomics).take 128 ∧ t.dev.mem = (d.memPlace parts (le 8 new.toNat) []).mem ∧ t.dev.skid.cqs = s.dev.skid.cqs)) ∧
      (∀ (x : ReqPkt) (persist : Bool) (m : Mr), p = .flush x persist → next → bit (q.f cAccess) 3 = true → s.dev.region (q.f cSlice) x.rkey (q.f cPd) x.va x.len 3 = some m →
        (persist = true → m.persist = true) → ∃ t y, exec (.rxFlushRequest x persist) s = .next t ∧ t.pending = s.pending ∧ t.dev.qp h.qpn = some y ∧ others t.dev ∧
          t.dev.mem = s.dev.mem ∧ t.dev.skid.cqs = s.dev.skid.cqs ∧ (y.fence.isSome = true → y.reqs ≠ [] ∧ y.f cRqMsn = q.f cRqMsn ∧ y.placed = q.placed) ∧
          (q.placed = [] → (persist = false ∨ m.lpddr = true) → moved y 1)) ∧
      (∀ g : PktHdr, { g with aeth := h.aeth } = h → p = .report h → ∃ t, exec (.rxRcReport g h.aeth) s = .next t ∧ t.pending = s.pending ∧ t.dev.qp h.qpn = some q ∧ others t.dev ∧ t.dev.mem = s.dev.mem ∧
        (∀ c, q.isColl = false → tblGet s.dev.skid.cqs (q.f cRcqn) = some c → c.full = false → c.held = [] →
          ∃ c', tblGet t.dev.skid.cqs (q.f cRcqn) = some c' ∧ c'.written = (c.written + 1) % 2 ^ 32))))

/-- An accepted acknowledgement within what was sent moves UNA_PSN past its PSN, frees the tracked packets up to
it, but not a request whose answer is due, and restores the retry count; one outside moves nothing. A NAK with
an access, invalid or operational error puts the queue pair of that entry in ERR; RNR keeps the PSN that
waits. A READ response places its bytes and ends the entry when all arrived, and one that brings bytes again
changes nothing; an atomic response places the original value, the answer of a FLUSH ends its entry; a
response that no entry awaits changes nothing. A CNP raises the pressure and cuts the rate by pressure times
CUT_STEP in 256, at least 100, at most once per CUT_INT, and holds its path. Commands for which it says that
exec answers a next state with their effect, under conditions on the state and the operands alone: rxSack,
rxNak, rxReadResponse, rxAtomicResponse, rxCnp. (R182, R201, R202, R203, R205, R206, R213, R216, R217,
06_skid_transport) -/
def Obligations.AcknowledgementsAndResponsesEndEntries : Prop :=
  ∀ (s : State) (q : Qp) (p : RxPkt) (d : Dev), Accepted s.dev q p d → q.isUd = false → s.dev.storeRoom q.die 4096 = true →
    (let h := rxHdr p
     let others := fun (t : Dev) => (∀ m, m ≠ h.qpn → t.qp m = s.dev.qp m) ∧ t.mill = s.dev.mill ∧ t.skid.cqs = s.dev.skid.cqs
     ∀ (g : PktHdr), { g with aeth := h.aeth } = h →
     (∀ rs, p = .sack h rs → h.syndrome / 32 ≠ 0 → exec (.rxSack g h.aeth rs) s = .next ⟨d.rxDrop h.die skDropOption, s.pending⟩) ∧
     (∀ rs, p = .sack h rs → h.syndrome / 32 = 0 → (rs = [] ∨ h.op = 0x11) → q.sq = [] → q.probes = [] →
       (let cum := if h.op = 0xC1 then h.aethNum else h.psn
        let fwd := ((cum + 1) % 2 ^ 24 + 2 ^ 24 - q.f cUna) % 2 ^ 24
        let adv := 0 < fwd ∧ fwd ≤ (q.f cSqPsn + 2 ^ 24 - q.f cUna) % 2 ^ 24
        ∃ t x, exec (.rxSack g h.aeth rs) s = .next t ∧ t.pending = s.pending ∧ t.dev.qp h.qpn = some x ∧ others t.dev ∧ t.dev.mem = s.dev.mem ∧ x.f cSqPsn = q.f cSqPsn ∧
          (adv → x.f cUna = (cum + 1) % 2 ^ 24 ∧ x.sent = q.sent.filter (fun y => !atOrBefore y.psn cum) ∧ x.late = q.late.filter (fun e => !atOrBefore e.last cum) ∧
            x.f cRetryLeft = q.f cRetry ∧ x.f cBackoff = 0) ∧
          (¬ adv → x.f cUna = q.f cUna ∧ x.sent = q.sent ∧ x.late = q.late ∧ x.f cRetryLeft = q.f cRetryLeft))) ∧
     (∀ rs, p = .sack h rs → h.syndrome / 32 = 0 → h.op = 0xC1 → q.sq = [] → q.probes = [] → ∃ t x, exec (.rxSack g h.aeth rs) s = .next t ∧ t.pending = s.pending ∧ t.dev.qp h.qpn = some x ∧
       (∀ y ∈ x.sent, y.sacked = false → ∀ r ∈ rs, ¬ (atOrBefore r.1 y.psn = true ∧ atOrBefore y.psn r.2 = true))) ∧
     (∀ rs e, p = .sack h rs → h.syndrome / 32 = 0 → q.sq = [e] → e.st = .active → e.assigned ≥ e.packets → q.probes = [] →
       ∃ t x, exec (.rxSack g h.aeth rs) s = .next t ∧ t.pending = s.pending ∧ t.dev.qp h.qpn = some x ∧ x.sq = [e] ∧ (∀ y ∈ q.sent, q.awaits y = true → ∃ z ∈ x.sent, z.psn = y.psn ∧ z.pkt = y.pkt)) ∧
     (p = .nak h → nakKind h.syndrome = none → exec (.rxNak g h.aeth) s = .next ⟨d.rxDrop h.die skDropOption, s.pending⟩) ∧
     (∀ k, p = .nak h → nakKind h.syndrome = some k → (k = .remAccess ∨ k = .remInv ∨ k = .remOp) → q.entryOf h.psn < q.sq.length → q.isDiag = false → s.dev.waitersOf h.qpn = [] → q.isColl = false →
       ∃ t x, exec (.rxNak g h.aeth) s = .next t ∧ t.pending = s.pending ∧ t.dev.qp h.qpn = some x ∧ x.f cState = qsErr ∧ x.sq = [] ∧ x.sent = [] ∧
         (∀ m, m ≠ h.qpn → t.dev.qp m = s.dev.qp m) ∧ t.dev.mem = s.dev.mem) ∧
     (p = .nak h → nakKind h.syndrome = some .rnr → q.isMp = true → exec (.rxNak g h.aeth) s = .next ⟨d.modQp h.qpn (fun q => { q with rnr := some h.psn }), s.pending⟩) ∧
     (q.answering h.psn = none → (∀ bs ms, p = .readResp h bs ms → exec (.rxReadResponse h bs ms) s = .next ⟨d, s.pending⟩) ∧
       (∀ v, p = .atomicResp h v → exec (.rxAtomicResponse h v) s = .next ⟨d, s.pending⟩)) ∧
     (∀ k e bs ms, p = .readResp h bs ms → q.answering h.psn = some (k, e) → e.op = 0x10 →
       (let off := if q.isSkid then h.offset else (h.psn + 2 ^ 24 - e.psn) % 2 ^ 24 * q.mtu
        ((off ∈ e.seen ∨ off + bs.length > e.w.len) → exec (.rxReadResponse h bs ms) s = .next ⟨d, s.pending⟩) ∧
        (∀ pl, off ∉ e.seen → off + bs.length ≤ e.w.len → bs ≠ [] → d.localPlace q (e.w.laddr + off) bs.length = some pl → d.placeHeld (q.f cSlice) pl = false →
          (e.got + bs.length < e.w.len → ∃ t x, exec (.rxReadResponse h bs ms) s = .next t ∧ t.pending = s.pending ∧ t.dev.qp h.qpn = some x ∧ others t.dev ∧
            x.sq = q.sq.set k { e with got := e.got + bs.length, seen := off :: e.seen, poison := e.poison || (pxhMarks h ms).any (fun b => b) } ∧ x.ctx = q.ctx ∧
            t.dev.mem = (d.placeAt (q.f cSlice) pl bs (pxhMarks h ms)).mem) ∧
          (e.got + bs.length ≥ e.w.len → q.sq = [e] → k = 0 → ∃ t x y, exec (.rxReadResponse h bs ms) s = .next t ∧ t.pending = s.pending ∧ t.dev.qp h.qpn = some x ∧ others t.dev ∧
            x.sq = [y] ∧ y.st = .done ∧ y.got = e.got + bs.length ∧ y.op = 0x10 ∧ t.dev.mem = (d.placeAt (q.f cSlice) pl bs (pxhMarks h ms)).mem)))) ∧
     (∀ e bs ms, p = .readResp h bs ms → q.answering h.psn = some (0, e) → e.op = 0x20 → q.sq = [e] →
       ∃ t x y, exec (.rxReadResponse h bs ms) s = .next t ∧ t.pending = s.pending ∧ t.dev.qp h.qpn = some x ∧ others t.dev ∧ x.sq = [y] ∧ y.st = .done ∧ y.op = 0x20 ∧ t.dev.mem = s.dev.mem) ∧
     (∀ e v pl, p = .atomicResp h v → q.answering h.psn = some (0, e) → (e.op = 0x18 ∨ e.op = 0x19) → q.sq = [e] → d.localPlace q e.w.laddr 8 = some pl → d.placeHeld (q.f cSlice) pl = false →
       ∃ t x y, exec (.rxAtomicResponse h v) s = .next t ∧ t.pending = s.pending ∧ t.dev.qp h.qpn = some x ∧ others t.dev ∧ x.sq = [y] ∧ y.st = .done ∧
         t.dev.mem = (d.placeAt (q.f cSlice) pl (le 8 v.toNat) []).mem) ∧
     (p = .cnp h →
       (let far := ∀ t, q.cutAt = some t → s.dev.clk - t ≥ usTicks (s.dev.fld F.SKD_CC_CUT_CUT_INT 0)
        ∃ t x, exec (.rxCnp h) s = .next t ∧ t.pending = s.pending ∧ t.dev.qp h.qpn = some x ∧ others t.dev ∧ t.dev.mem = s.dev.mem ∧
          x.f cCnpLast = s.dev.ns32 ∧ (q.isSkid = true → bit (x.f cPathHold) (h.path % 128) = true) ∧ x.sq = q.sq ∧ x.f cState = q.f cState ∧
          (far → (let pr := min (q.f cPress + 1) 15
                  x.f cPress = pr ∧ x.f cRt = q.f cRc ∧ x.f cSg = 0 ∧ x.f cCcBytes = 0 ∧
                  x.f cRc = max (q.f cRc - q.f cRc * min (pr * max 1 (s.dev.fld F.SKD_CC_CUT_CUT_STEP 0)) 128 / 256) 100 ∧ x.cutAt = some s.dev.clk)) ∧
          (¬ far → x.f cPress = q.f cPress ∧ x.f cRc = q.f cRc ∧ x.f cRt = q.f cRt))))

/-- A timer for no queue pair, or with nothing to do, changes nothing. ACK_DELAY acknowledges what is
unacknowledged. REORDER_WIN sends a lost packet again on the next path. A retransmit timeout, once
max(RTO_MIN, SRTT + 4 RTTVAR) times 2^BACKOFF has passed, takes one retry and doubles the backoff, and with
none left ends in ERR; three in a row mark a path down. The RNR timer likewise. A probe marks its path; the
hold of a path ends; pressure falls by one; recovery raises the rate by R217. A failed fetch drops the chain
with a contained event; an entry not authentic makes the QPN absent; a good one is cached, or fetched again
while no slot is free. A write-back ends, and a fetch that waited is issued. Commands for which it says that
exec answers a next state with their effect, under conditions on the state and the operands alone:
ackDelayExpiry, reorderWinExpiry, retransmitTimeout, pathProbe, recoveryEvent, rnrTimerExpiry,
contextWritebackDone, pathHoldExpiry, pressureDecay, contextFetchDone, absentQpnExpiry. (R182, R192, R193,
R199, R201, R202, R203, R217, 06_skid_transport) -/
def Obligations.TransportTimersAndContextFetches : Prop :=
  (∀ (s : State) (n : Nat), s.dev.qp n = none → exec (.ackDelayExpiry n) s = .next s ∧ exec (.reorderWinExpiry n) s = .next s ∧ exec (.retransmitTimeout n) s = .next s ∧
    (∀ p, exec (.pathProbe n p) s = .next s) ∧ exec (.recoveryEvent n) s = .next s ∧ exec (.rnrTimerExpiry n) s = .next s ∧ exec (.contextWritebackDone n) s = .next s) ∧
  (∀ (s : State) (n : Nat) (q : Qp), s.dev.qp n = some q →
    (let others := fun (t : Dev) => (∀ m, m ≠ n → t.qp m = s.dev.qp m) ∧ t.mem = s.dev.mem ∧ t.skid.cqs = s.dev.skid.cqs
     let fails := fun (i : Instr) => ∃ t x, exec i s = .next t ∧ t.pending = s.pending ∧ t.dev.qp n = some x ∧ x.f cState = qsErr ∧ x.sq = [] ∧ x.sent = [] ∧ (∀ m, m ≠ n → t.dev.qp m = s.dev.qp m)
     (q.unacked = 0 → exec (.ackDelayExpiry n) s = .next s) ∧
     (q.unacked > 0 → ∃ t, exec (.ackDelayExpiry n) s = .next t ∧ t.pending = s.pending ∧ t.dev.qp n = some { q with unacked := 0 } ∧ others t.dev) ∧
     (let lost := q.sent.filter (fun y => !y.sacked && s.dev.clk - y.at_ ≥ usTicks (max 1 (s.dev.fld F.SKD_RETX_REORDER_WIN 0)) && y.times = 1 &&
        q.sent.any (fun t => t.sacked && t.psn != y.psn && atOrBefore y.psn t.psn))
      ((q.isSkid = false ∨ lost = []) → exec (.reorderWinExpiry n) s = .next s) ∧
      (∀ y v k', q.isSkid = true → lost = [y] → q.cache.isSome = true → CanSeal s.dev q v k' → ∃ t x, exec (.reorderWinExpiry n) s = .next t ∧ t.pending = s.pending ∧
        t.dev.qp n = some x ∧ x.ctx = q.ctx ∧ x.sq = q.sq ∧ others t.dev ∧
        x.sent = q.sent.map (fun t => if t.psn = y.psn then { t with path := q.after y.path, at_ := s.dev.clk, stamp := s.dev.dieStamp (.io q.die), times := t.times + 1 } else t))) ∧
     ((∀ y ∈ q.sent, q.unanswered y = false) → exec (.retransmitTimeout n) s = .next s) ∧
     (∀ y, q.sent.find? q.unanswered = some y →
       (((q.f cState ≠ qsRts ∧ q.f cState ≠ qsSqd) ∨ (s.dev.clk - y.at_) * 4 < max (q.f cRtoMin * 1000) (q.f cSrtt + 4 * q.f cRttvar) * 2 ^ q.f cBackoff) → exec (.retransmitTimeout n) s = .next s) ∧
       ((q.f cState = qsRts ∨ q.f cState = qsSqd) → (s.dev.clk - y.at_) * 4 ≥ q.rto → q.f cRetryLeft = 0 → q.isDiag = false → q.isColl = false → s.dev.waitersOf n = [] → fails (.retransmitTimeout n)) ∧
       (∀ v k', (q.f cState = qsRts ∨ q.f cState = qsSqd) → (s.dev.clk - y.at_) * 4 ≥ q.rto → q.f cRetryLeft ≠ 0 → q.isSkid = true → q.cache.isSome = true → CanSeal s.dev q v k' →
         ∃ t x, exec (.retransmitTimeout n) s = .next t ∧ t.pending = s.pending ∧ t.dev.qp n = some x ∧ others t.dev ∧ x.f cRetryLeft = q.f cRetryLeft - 1 ∧
           x.f cBackoff = min 7 (q.f cBackoff + 1) ∧ tblGetD x.tmos y.path 0 = tblGetD q.tmos y.path 0 + 1 ∧ x.f cUna = q.f cUna ∧ x.sq = q.sq ∧
           (y.path < 128 → tblGetD q.tmos y.path 0 ≥ 2 → bit (x.f cPathDown) y.path = true) ∧
           (∀ z ∈ x.sent, z.psn = y.psn → ∃ w ∈ q.sent, w.psn = y.psn ∧ z.times = w.times + 1))) ∧
     (q.rnr = none → exec (.rnrTimerExpiry n) s = .next s) ∧
     (∀ psn, q.rnr = some psn → q.f cRnrLeft = 0 → q.f cState ≠ qsErr → q.isDiag = false → q.isColl = false → s.dev.waitersOf n = [] → fails (.rnrTimerExpiry n)) ∧
     (∀ psn, q.rnr = some psn → q.f cRnrLeft ≠ 0 → q.sq = [] → q.sent = [] → ∃ t x, exec (.rnrTimerExpiry n) s = .next t ∧ t.pending = s.pending ∧ t.dev.qp n = some x ∧ x.rnr = none ∧
       x.f cRnrLeft = (if q.f cRnrRetry = 7 then q.f cRnrLeft else q.f cRnrLeft - 1) ∧ others t.dev) ∧
     (∀ p, (bit (q.f cPathDown) p = false ∨ q.f cState ≠ qsRts ∨ p ≥ q.f cPaths) → exec (.pathProbe n p) s = .next s) ∧
     (∀ p, bit (q.f cPathDown) p = true → q.f cState = qsRts → p < q.f cPaths → ∃ t, exec (.pathProbe n p) s = .next t ∧ t.pending = s.pending ∧
       t.dev.qp n = some { q with probes := addOnce q.probes p } ∧ others t.dev) ∧
     (∀ p, p < 128 → q.sq = [] → ∃ t x, exec (.pathHoldExpiry n p) s = .next t ∧ t.pending = s.pending ∧ t.dev.qp n = some x ∧ bit (x.f cPathHold) p = false ∧
       (∀ r, r < 128 → r ≠ p → bit (x.f cPathHold) r = bit (q.f cPathHold) r) ∧ x.f cState = q.f cState ∧ others t.dev) ∧
     (∃ t x, exec (.pressureDecay n) s = .next t ∧ t.pending = s.pending ∧ t.dev.qp n = some x ∧ x.f cPress = q.f cPress - 1 ∧ x.f cRc = q.f cRc ∧ others t.dev) ∧
     (let f := max 1 (s.dev.fld F.SKD_CC_RECOVER_F 0)
      let sg := min 255 (q.f cSg + 1)
      let port := s.dev.portRate (q.f cPort)
      ∃ t x, exec (.recoveryEvent n) s = .next t ∧ t.pending = s.pending ∧ t.dev.qp n = some x ∧ x.f cSg = sg ∧ x.f cCcBytes = 0 ∧ others t.dev ∧ x.sq = q.sq ∧
        (sg ≤ f → x.f cRt = q.f cRt ∧ x.f cRc = min (q.f cRc + (q.f cRt - q.f cRc) / 4) port % 2 ^ 32) ∧
        (f < sg → sg ≤ 2 * f → x.f cRt = min (q.f cRt + s.dev.fld F.SKD_CC_INC_R_AI 0 * 100) port % 2 ^ 32)) ∧
     (q.writeback = false → exec (.contextWritebackDone n) s = .next s) ∧
     (q.writeback = true → (s.dev.takeChains n).1 = [] → q.bells = [] → exec (.contextWritebackDone n) s = .next ⟨s.dev.modQp n (fun q => { q with writeback := false }), s.pending⟩) ∧
     (q.writeback = true → ((s.dev.takeChains n).1 ≠ [] ∨ q.bells ≠ []) → exec (.contextWritebackDone n) s = .next ⟨(s.dev.modQp n (fun q => { q with writeback := false })).fetchCtx n, s.pending⟩) ∧
     (∀ bs ctx, q.cache.isSome = true → s.dev.openEntry n bs = some ctx → exec (.contextFetchDone n (.entry bs)) s = .next s) ∧
     (∀ bs ctx, q.cache = none → s.dev.openEntry n bs = some ctx → s.dev.cacheSlot (Qp.of ctx).die = none → s.dev.bsEn = false →
       exec (.contextFetchDone n (.entry bs)) s = .next ⟨(s.dev.modQp n (fun q => { q with ctx := ctx, writeback := false })).fetchCtx n, s.pending⟩) ∧
     (∀ bs ctx, q.cache = none → s.dev.openEntry n bs = some ctx → q.bells = [] → (s.dev.takeChains n).1 = [] → (s.dev.cacheSlot (Qp.of ctx).die).isSome = true →
       ∃ t x, exec (.contextFetchDone n (.entry bs)) s = .next t ∧ t.pending = s.pending ∧ t.dev.qp n = some x ∧ x.ctx = ctx ∧ x.cache.isSome = true ∧ x.writeback = false ∧ others t.dev) ∧
     (∀ bs, s.dev.openEntry n bs = none → ∃ t, exec (.contextFetchDone n (.entry bs)) s = .next t ∧ t.pending = s.pending ∧ n ∈ t.dev.skid.absent ∧
       (t.dev.takeChains n).1 = [] ∧ t.dev.skid.qps = s.dev.skid.qps ∧ others t.dev) ∧
     (∃ t f l, exec (.contextFetchDone n .failed) s = .next t ∧ t.pending = s.pending ∧ (t.dev.takeChains n).1 = [] ∧ t.dev.flt.log = (s.dev.flt.next, f) :: l ∧
       f.src = 4 + q.die.num ∧ f.cls = .contained ∧ t.dev.skid.qps = s.dev.skid.qps ∧ others t.dev))) ∧
  (∀ (s : State) (n : Nat), exec (.absentQpnExpiry n) s = .next ⟨{ s.dev with skid := { s.dev.skid with absent := s.dev.skid.absent.filter (· != n) } }, s.pending⟩)

/-- A frame on a port that is down does nothing; one with a bad FCS, of a length outside 60 to 9,216 B, or of flow
control is counted; one of a die whose stamps are withheld waits; a parse error or a miss goes to the
exception path or is counted. An unpoliced entry decides it. The transmit command of a port that is down sends
nothing; of a strict class it sends the head frame of the smallest tag, with the egress stamp that its
descriptor asks for. A flush empties one queue. The sweep returns leaked cells of its die. The calendar
advances its die by one slot. The table port writes or reads the addressed word and advances it, an invalid
entry only. Seeds need an empty table. A policer commit takes the staged values with full buckets, or is
discarded and counted. Commands for which it says that exec answers a next state with their effect, under
conditions on the state and the operands alone: frameReceive, fragEntryTimeout, frameTransmit, calendarSlot,
cellSweep, bomQueueFlush, bkrTblDataWrite, bkrTblDataRead, bkrHashSeedWrite, fluPolCfgWrite,
queueSamplePeriod. (R40, R41, R222, R224, R226, R228, R229, R230, R239, R240, R242, R246) -/
def Obligations.FramesAreClassifiedPolicedAndSent : Prop :=
  (∀ (s : State) (port : Nat) (f : Frame),
    (port ∉ s.dev.lanes.up → exec (.frameReceive port f) s = .next s) ∧
    (port ∈ s.dev.lanes.up → f.fcsOk = false → exec (.frameReceive port f) s = .next ⟨s.dev.count (0x102 + 8 * port), s.pending⟩) ∧
    (port ∈ s.dev.lanes.up → f.fcsOk = true → (f.bytes.length < 60 ∨ f.bytes.length > 9216) → exec (.frameReceive port f) s = .next ⟨s.dev.count (itMac (portDie port)), s.pending⟩) ∧
    (port ∈ s.dev.lanes.up → f.fcsOk = true → 60 ≤ f.bytes.length → f.bytes.length ≤ 9216 → s.dev.stampHeld (.io (portDie port)) = true →
      exec (.frameReceive port f) s = .next ⟨{ s.dev with path := { s.dev.path with unstamped := s.dev.path.unstamped ++ [(port, f)] } }, s.pending⟩) ∧
    (port ∈ s.dev.lanes.up → f.fcsOk = true → 60 ≤ f.bytes.length → f.bytes.length ≤ 9216 → s.dev.stampHeld (.io (portDie port)) = false →
      (let p := parseFrame f.bytes (s.dev.flag F.BKR_CTRL_VXLAN_EN 0) (s.dev.fld F.BKR_CTRL_VXLAN_PORT 0)
       let mac := p.vxlan = false ∧ p.etype = 0x8808
       let trap := p.vxlan = false ∧ (p.etype = 0x88F7 ∨ (p.proto = 17 ∧ p.ports = true ∧ (p.dport = 319 ∨ p.dport = 320)) ∨ p.etype = 0x0806 ∨ p.etype = 0x88CC ∨ p.etype = 0x8809 ∨ (133 ≤ p.icmp ∧ p.icmp ≤ 137))
       let ms := s.dev.lookup (portDie port) p.ktype (p.key f.bytes)
       (p.perr ≠ 0 → exec (.frameReceive port f) s = .next ⟨s.dev.exception port 1 f.bytes p 0 0 0, s.pending⟩) ∧
       (p.perr = 0 → mac → exec (.frameReceive port f) s = .next ⟨s.dev.count (itBkrDrop (portDie port)), s.pending⟩) ∧
       (p.perr = 0 → ¬ mac → ¬ trap → p.roce = true → p.destQp = 1 → exec (.frameReceive port f) s = .next ⟨s.dev.exception port 3 f.bytes p 0 0 0, s.pending⟩) ∧
       (p.perr = 0 → ¬ mac → ¬ trap → (p.roce = false ∨ p.destQp ≠ 1) → p.frag = false → ms = [] → p.roce = true →
         exec (.frameReceive port f) s = .next ⟨s.dev.count (itBkrDrop (portDie port)), s.pending⟩) ∧
       (p.perr = 0 → ¬ mac → ¬ trap → p.frag = false → ms = [] → p.roce = false →
         exec (.frameReceive port f) s = .next ⟨s.dev.exception port 0 f.bytes p 0 0 (s.dev.bkrHash 0 (p.key f.bytes)).toNat, s.pending⟩) ∧
       (∀ e sl, p.perr = 0 → ¬ mac → ¬ trap → p.destQp ≠ 1 → p.frag = false → ms = [e] → entDisp e = (.skid sl, none) → p.roce = true →
         exec (.frameReceive port f) s = .next ⟨s.dev.emit (.toSkid (portDie port) sl ⟨f.bytes, true⟩ (s.dev.ingressStamp port)), s.pending⟩)))) ∧
  (∀ (s : State) (die : Die) (ix : Nat) (e : FragEnt), (s.dev.path.frags.filter (fun e => e.die = die))[ix]? = some e →
    exec (.fragEntryTimeout die ix) s = .next ⟨{ s.dev with path := { s.dev.path with frags := s.dev.path.frags.filter (fun f => f ≠ e) } }, s.pending⟩) ∧
  (∀ (s : State) (port : Nat) (e : BoomEcc), (∀ x ∈ s.dev.skid.qps, s.dev.moves x.2 = false) → (port ∉ s.dev.lanes.up → exec (.frameTransmit port e) s = .next s) ∧
    (s.dev.rawReady port = false → (∀ c < 8, s.dev.ready port c = []) → exec (.frameTransmit port e) s = .next s) ∧
    (∀ c k tag f, port ∈ s.dev.lanes.up → s.dev.rawReady port = false → s.dev.strictClass port = some c → smallest (s.dev.ready port c) = some (k, tag) →
      (s.dev.bq k).head = some f → (e = .clean ∨ e = .dataUe) →
      ∃ t, exec (.frameTransmit port e) s = .next t ∧ t.pending = s.pending ∧ (e = .clean → f.egress = none → t.dev.out = .frame port f :: s.dev.out) ∧
        (∀ r, e = .clean → f.egress = some r → (let at_ := s.dev.egressStamp port
          let g := { f with bytes := r.apply f.bytes at_ }
          t.dev.out = .egressStamp port g at_ :: .frame port g :: s.dev.out)) ∧
        (t.dev.bq k).frames = dropHead (s.dev.bq k).frames f ∧ (∀ m, m ≠ k → (t.dev.bq m).frames = (s.dev.bq m).frames) ∧ t.dev.mem = s.dev.mem ∧
        (e = .dataUe → t.dev.fld (F.BOM_DIE_ECC_UE (portDie port).num) 0 = satAdd (F.BOM_DIE_ECC_UE (portDie port).num).w (s.dev.fld (F.BOM_DIE_ECC_UE (portDie port).num) 0) 1 ∧
          t.dev.flt.next = (s.dev.flt.next + 1) % 2 ^ 32 ∧ ∀ x, Out.frame port x ∈ t.dev.out → Out.frame port x ∈ s.dev.out))) ∧
  (∀ (s : State) (die : Die), (∃ t, exec (.calendarSlot die) s = .next t ∧ t.pending = s.pending ∧ tblGetD t.dev.path.slot die.num 0 = tblGetD s.dev.path.slot die.num 0 + 1 ∧
      (∀ k, (t.dev.bq k).frames = (s.dev.bq k).frames ∧ (t.dev.bq k).bound = (s.dev.bq k).bound) ∧ t.dev = { s.dev with path := t.dev.path }) ∧
    exec (.cellSweep die) s = .next ⟨{ s.dev with path := { s.dev.path with leaked := tblDel s.dev.path.leaked die.num } }, s.pending⟩ ∧
    ((∀ x ∈ s.dev.skid.qps, s.dev.moves x.2 = false) → ∀ q, q < 65559 → ∃ t, exec (.bomQueueFlush die q) s = .next t ∧ t.pending = s.pending ∧ (t.dev.bq (queueKey die q)).frames = [] ∧
      t.dev.flag F.BOM_QCFG_FLUSH (queueKey die q) = true ∧ (∀ m, m ≠ queueKey die q → t.dev.bq m = s.dev.bq m) ∧ t.dev = { s.dev with regs := t.dev.regs, path := t.dev.path }) ∧
    ((∀ x ∈ s.dev.skid.qps, s.dev.moves x.2 = false) → ∀ q, q ≥ 65559 → exec (.bomQueueFlush die q) s = .next ⟨s.dev.count (itBoomDrop die 4), s.pending⟩)) ∧
  (∀ (s : State) (port : Nat), (let k := (s.dev.tblAddr port).1
      let w := s.dev.fld F.BKR_TBL_ADDR_WORD port
      let e := s.dev.bkrEnt k
      let adv := fun (d : Dev) => d.setFld F.BKR_TBL_ADDR_WORD port ((w + 1) % 16)
      (∀ v, (w = 15 ∨ bit (entWord e 15) 0 = false) → exec (.bkrTblDataWrite port v) s = .next ⟨adv { s.dev with path := { s.dev.path with table := tblPut s.dev.path.table k (e.set w v) } }, s.pending⟩) ∧
      (∀ v, w ≠ 15 → bit (entWord e 15) 0 = true → exec (.bkrTblDataWrite port v) s = .next ⟨adv (s.dev.count itBkrDiscard), s.pending⟩) ∧
      exec (.bkrTblDataRead port) s = .next ⟨adv (s.dev.emit (.regData (entWord e w))), s.pending⟩)) ∧
  (∀ (s : State) (k : Nat) (v : W32), (s.dev.flag F.BKR_CTRL_LOCK 0 = true → exec (.bkrHashSeedWrite k v) s = .next ⟨s.dev.count 1, s.pending⟩) ∧
    (s.dev.flag F.BKR_CTRL_LOCK 0 = false → (s.dev.tblUsed .west ≠ 0 ∨ s.dev.tblUsed .east ≠ 0 ∨ k ≥ 4) → exec (.bkrHashSeedWrite k v) s = .next ⟨s.dev.count itBkrDiscard, s.pending⟩) ∧
    (s.dev.flag F.BKR_CTRL_LOCK 0 = false → s.dev.tblUsed .west = 0 → s.dev.tblUsed .east = 0 → k < 4 →
      exec (.bkrHashSeedWrite k v) s = .next ⟨s.dev.setFld (F.BKR_HASH_SEED_SEED k) 0 v.toNat, s.pending⟩)) ∧
  (∀ (s : State) (port : Nat) (v : W32), (let k := s.dev.fld F.FLU_POL_SEL_DIE port * 16384 + s.dev.fld F.FLU_POL_SEL_POLICER port
      let cir := s.dev.fld F.FLU_POL_CIR_MBPS k
      let pir := s.dev.fld F.FLU_POL_PIR_MBPS k
      let cbs := s.dev.fld F.FLU_POL_CBS_BYTES k
      let ebs := s.dev.fld F.FLU_POL_EBS_BYTES k
      let mode := bit v.toNat 1
      let bad := (mode = true ∧ (pir < cir ∨ ebs = 0 ∨ cbs = 0)) ∨ (mode = false ∧ cbs = 0 ∧ ebs = 0)
      (bad → exec (.fluPolCfgWrite port v) s = .next ⟨s.dev.count itFluDiscard, s.pending⟩) ∧
      (¬ bad → ∃ t, exec (.fluPolCfgWrite port v) s = .next t ∧ t.pending = s.pending ∧ tblGet t.dev.path.policers k = some ⟨bit v.toNat 0, mode, bit v.toNat 2, bits v.toNat 3 2,
          bits v.toNat 5 2, bits v.toNat 7 6, bits v.toNat 13 6, cir, pir, cbs, ebs, cbs * 65536, ebs * 65536, s.dev.ns⟩ ∧
        (∀ m, m ≠ k → tblGet t.dev.path.policers m = tblGet s.dev.path.policers m) ∧ t.dev.fld F.FLU_POL_CFG_MODE k = b2n mode ∧
        t.dev = { s.dev with regs := t.dev.regs, path := { s.dev.path with policers := t.dev.path.policers } }))) ∧
  (∀ (s : State) (port : Nat), ((s.dev.boundTo port).length > 4096 → exec (.queueSamplePeriod port) s = .next ⟨{ s.dev with path :=
        { s.dev.path with notSampling := addOnce s.dev.path.notSampling port } }, s.pending⟩) ∧
    ((s.dev.boundTo port).length ≤ 4096 → ∃ t, exec (.queueSamplePeriod port) s = .next t ∧ t.pending = s.pending ∧ port ∉ t.dev.path.notSampling ∧ t.dev.path.queues = s.dev.path.queues ∧
      t.dev = { s.dev with path := { s.dev.path with notSampling := t.dev.path.notSampling }, flt := t.dev.flt, tel := t.dev.tel }))

/-- Where the slice has no controller on the port a write of CC has no effect. EN 1 on a controller that is not
ready gives it the two admin queues at AQA, ASQ and ACQ, if the quota and the sizes allow; EN 0 puts it back
in its state after reset once no write of it is left, and SHN ends with SHST 2, otherwise SHST 1. A tail
doorbell within the queue moves the tail, and the device fetches up to it unless the queue is frozen; a head
doorbell moves the head; others are discarded. An Asynchronous Event Request waits, or completes with the
oldest event. Other controllers and the volumes stay. Commands for which it says that exec answers a next
state with their effect, under conditions on the state and the operands alone: ccEnable, ccDisable,
ccShutdown, nvmeSqDoorbell, nvmeCqDoorbell, asyncEventRequest. (R273, R284, R285, R286, R287, R304,
09_storage) -/
def Obligations.NvmeControllersStartStopAndRing : Prop :=
  (∀ (s : State) (slice port : Nat) (cc : W32), s.dev.cord.phase = .idle →
    (let k := ctrlKey slice port
     let c := s.dev.ctrl k
     (s.dev.nvHere slice port = false → exec (.ccEnable slice port cc) s = .next s ∧ exec (.ccDisable slice port cc) s = .next s ∧ exec (.ccShutdown slice port cc) s = .next s) ∧
     (s.dev.nvHere slice port = true → c.disabling = false →
       (c.rdy = true → exec (.ccEnable slice port cc) s = .next ⟨s.dev.modCtrl k (fun c => { c with cc := cc }), s.pending⟩) ∧
       (c.rdy = false → ∀ sqd cqd, sqd = bits c.aqa.toNat 0 12 + 1 → cqd = bits c.aqa.toNat 16 12 + 1 →
         ∃ t, exec (.ccEnable slice port cc) s = .next t ∧ t.pending = s.pending ∧ (∀ j, j ≠ k → t.dev.ctrl j = s.dev.ctrl j) ∧ t.dev.nvm.vols = s.dev.nvm.vols ∧
           (t.dev.ctrl k).cc = cc ∧ (t.dev.ctrl k).aqa = c.aqa ∧ (t.dev.ctrl k).asq = c.asq ∧ (t.dev.ctrl k).acq = c.acq ∧ (t.dev.ctrl k).errors = c.errors ∧
           (t.dev.ctrl k).rdy = decide (s.dev.nvQueues slice + 2 ≤ (s.dev.slice slice).nvq ∧ 2 ≤ sqd ∧ 2 ≤ cqd) ∧
           ((t.dev.ctrl k).rdy = true → tblGet (t.dev.ctrl k).sqs 0 = some ⟨0, c.asq.toNat / 4096 * 4096, sqd, 0, 0, 0, false⟩ ∧
             tblGet (t.dev.ctrl k).cqs 0 = some ⟨c.acq.toNat / 4096 * 4096, cqd, true, 0, 0, 0, []⟩ ∧ (∀ n, n ≠ 0 → tblGet (t.dev.ctrl k).sqs n = none ∧ tblGet (t.dev.ctrl k).cqs n = none))) ∧
       (c.rdy = false → exec (.ccDisable slice port cc) s = .next ⟨s.dev.modCtrl k (fun c => { c with cc := cc }), s.pending⟩ ∧
         exec (.ccShutdown slice port cc) s = .next s) ∧
       (c.rdy = true →
         ∃ t u, exec (.ccDisable slice port cc) s = .next t ∧ t.pending = s.pending ∧ t.dev.nvm.vols = s.dev.nvm.vols ∧ (∀ j, j ≠ k → t.dev.ctrl j = s.dev.ctrl j) ∧
           exec (.ccShutdown slice port cc) s = .next u ∧ u.pending = s.pending ∧ u.dev.nvm.vols = s.dev.nvm.vols ∧ (∀ j, j ≠ k → u.dev.ctrl j = s.dev.ctrl j) ∧
           ((∀ e ∈ s.dev.nvm.vols, ∀ j ∈ e.2.jobs, j.ctrl ≠ k) → c.cmds = [] →
             t.dev.ctrl k = { Ctrl.init with cc := cc, aqa := c.aqa, asq := c.asq, acq := c.acq, errors := c.errors, errCount := c.errCount } ∧
             (bits cc.toNat 14 2 ≠ 0 → u.dev.ctrl k = { c with cc := cc, shst := 2 })) ∧
           ((∃ e ∈ s.dev.nvm.vols, ∃ j ∈ e.2.jobs, j.ctrl = k) → t.dev.ctrl k = { c with cc := cc, disabling := true, aers := [] } ∧
             (bits cc.toNat 14 2 ≠ 0 → u.dev.ctrl k = { c with cc := cc, shst := 1 })) ∧
           (bits cc.toNat 14 2 = 0 → u = s))))) ∧
  (∀ (s : State) (slice port n x : Nat),
    (let k := ctrlKey slice port
     ((s.dev.slice slice).state ≠ .active → exec (.nvmeSqDoorbell slice port n x) s = .next ⟨s.dev.count (0x084 + 32 * (port % 4)), s.pending⟩ ∧
       exec (.nvmeCqDoorbell slice port n x) s = .next ⟨s.dev.count (0x084 + 32 * (port % 4)), s.pending⟩) ∧
     (tblGet (s.dev.ctrl k).sqs n = none → (s.dev.slice slice).state = .active → exec (.nvmeSqDoorbell slice port n x) s = .next s) ∧
     (tblGet (s.dev.ctrl k).cqs n = none → (s.dev.slice slice).state = .active → exec (.nvmeCqDoorbell slice port n x) s = .next s) ∧
     (∀ q, tblGet (s.dev.ctrl k).sqs n = some q → (s.dev.slice slice).state = .active →
       (x ≥ q.depth → exec (.nvmeSqDoorbell slice port n x) s = .next s) ∧
       (x < q.depth → (q.frozen = true ∨ s.dev.nvFetches k = false) →
         exec (.nvmeSqDoorbell slice port n x) s = .next ⟨s.dev.modCtrl k (fun c => { c with sqs := tblPut c.sqs n { q with tail := x } }), s.pending⟩) ∧
       (x < q.depth → q.frozen = false → s.dev.nvFetches k = true →
         ∃ t, exec (.nvmeSqDoorbell slice port n x) s = .next t ∧ t.pending = s.pending ∧ tblGet (t.dev.ctrl k).sqs n = some { q with tail := x, head := x } ∧
           (∀ m, m ≠ n → tblGet (t.dev.ctrl k).sqs m = tblGet (s.dev.ctrl k).sqs m) ∧ (t.dev.ctrl k).cqs = (s.dev.ctrl k).cqs ∧ (∀ j, j ≠ k → t.dev.ctrl j = s.dev.ctrl j))) ∧
     (∀ q, tblGet (s.dev.ctrl k).cqs n = some q → (s.dev.slice slice).state = .active →
       (∀ adv, adv = (x + q.depth - q.head % q.depth) % q.depth →
         ((x ≥ q.depth ∨ q.head + adv > q.written) → exec (.nvmeCqDoorbell slice port n x) s = .next s) ∧
         (x < q.depth → q.head + adv ≤ q.written → q.held = [] →
           exec (.nvmeCqDoorbell slice port n x) s = .next ⟨s.dev.modCtrl k (fun c => { c with cqs := tblPut c.cqs n { q with head := q.head + adv } }), s.pending⟩))))) ∧
  (∀ (s : State) (slice port : Nat) (a : NvmeAdmin),
    (let k := ctrlKey slice port
     let c := s.dev.ctrl k
     ((tblGet c.sqs 0 = none ∨ c.rdy = false ∨ c.disabling = true) → exec (.asyncEventRequest slice port a) s = .next s) ∧
     (∀ q cq, Awaited s.dev k 0 q → NvRoom s.dev k q.cq cq → adminOpcodes.contains a.opcode = true →
       (c.events = [] → ∃ t, exec (.asyncEventRequest slice port a) s = .next t ∧ t.pending = s.pending ∧
         t.dev.ctrl k = { c with sqs := tblPut c.sqs 0 (taken q), aers := c.aers ++ [a.cid] } ∧ t.dev.out = s.dev.out ∧ (∀ j, j ≠ k → t.dev.ctrl j = s.dev.ctrl j)) ∧
       (∀ ty info page evs, c.aers = [] → c.events = (ty, info, page) :: evs → ∃ t, exec (.asyncEventRequest slice port a) s = .next t ∧ t.pending = s.pending ∧
         NvAnswered s.dev t.dev k q.cq cq ⟨BitVec.ofNat 32 (ty + 256 * info + 65536 * page), 0, a.cid, nvOk⟩ ∧ (t.dev.ctrl k).aers = [] ∧ (t.dev.ctrl k).events = evs ∧
         (t.dev.ctrl k).sqs = tblPut c.sqs 0 (taken q) ∧ (∀ j, j ≠ k → t.dev.ctrl j = s.dev.ctrl j)))))

/-- An admin command that no enabled controller awaits has no effect. Each writes one entry with its command ID
and the first failing check, or success, into the completion queue of the admin queue, where that has room.
Create I/O queues add a queue only on success; deleting removes it; QUEUE_RESTART thaws a frozen queue, with
bit 0 it skips the entries not yet fetched; Set Features keeps the value and feature 06h sets the volatile
write cache of the volumes of the slice; Get Log Page of 01h drops the entries read; Abort of a command that
cannot be caught answers 1 and changes nothing. Commands for which it says that exec answers a next state with
their effect, under conditions on the state and the operands alone: createIoSq, createIoCq, deleteIoSq,
deleteIoCq, getLogPage, nvmeIdentify, nvmeAbort, setFeatures, getFeatures, queueRestart. (R285, R286, R304,
R306, R307, R308, 09_storage) -/
def Obligations.NvmeAdminCommandsAnswer : Prop :=
  (∀ (s : State) (slice port : Nat) (a : NvmeAdmin) (cids : List (BitVec 16)) (i : Instr),
    i ∈ [Instr.createIoSq slice port a, Instr.createIoCq slice port a, Instr.deleteIoSq slice port a, Instr.deleteIoCq slice port a, Instr.getLogPage slice port a,
      Instr.nvmeIdentify slice port a, Instr.nvmeAbort slice port a, Instr.setFeatures slice port a, Instr.getFeatures slice port a, Instr.queueRestart slice port a cids] →
    (let k := ctrlKey slice port
     (tblGet (s.dev.ctrl k).sqs 0 = none ∨ (s.dev.ctrl k).rdy = false ∨ (s.dev.ctrl k).disabling = true) → exec i s = .next s)) ∧
  (∀ (s : State) (slice port : Nat) (a : NvmeAdmin) (cids : List (BitVec 16)) (q : NvSq) (cq : NvCq),
    (let k := ctrlKey slice port
     let c := s.dev.ctrl k
     let id := bits a.cdw10.toNat 0 16
     let depth := bits a.cdw10.toNat 16 16 + 1
     let base := (a.segs.getD 0 (0, 0)).1
     let fid := bits a.cdw10.toNat 0 8
     let sqs1 := tblPut c.sqs 0 (taken q)
     Awaited s.dev k 0 q → NvRoom s.dev k q.cq cq →
     (adminOpcodes.contains a.opcode = false → ∀ i ∈ [Instr.createIoSq slice port a, Instr.createIoCq slice port a, Instr.deleteIoSq slice port a, Instr.deleteIoCq slice port a,
       Instr.getLogPage slice port a, Instr.nvmeIdentify slice port a, Instr.nvmeAbort slice port a, Instr.setFeatures slice port a, Instr.getFeatures slice port a,
       Instr.queueRestart slice port a cids], ∃ t, exec i s = .next t ∧ t.pending = s.pending ∧ NvAnswered s.dev t.dev k q.cq cq ⟨0, 0, a.cid, nvBadOpcode⟩ ∧
       (t.dev.ctrl k).sqs = sqs1 ∧ t.dev.nvm.vols = s.dev.nvm.vols) ∧
     (adminOpcodes.contains a.opcode = true →
     (∃ t st, exec (.createIoSq slice port a) s = .next t ∧ t.pending = s.pending ∧ NvAnswered s.dev t.dev k q.cq cq ⟨0, 0, a.cid, st⟩ ∧
       st = (if id = 0 ∨ (tblGet c.sqs id).isSome ∨ s.dev.nvQueues slice + 1 > (s.dev.slice slice).nvq then nvBadQid
         else if bits a.cdw11.toNat 16 16 = 0 ∨ (tblGet c.cqs (bits a.cdw11.toNat 16 16)).isNone then nvBadCq
         else if depth < 2 then nvBadSize else if a.cdw11.getLsbD 0 = false then nvBadField
         else if (s.dev.slice slice).dmaOk (port % 4) base (64 * depth) false = false then nvTransfer else nvOk) ∧
       (st = nvOk → (t.dev.ctrl k).sqs = tblPut sqs1 id ⟨bits a.cdw11.toNat 16 16, base, depth, 0, 0, 0, false⟩) ∧ (st ≠ nvOk → (t.dev.ctrl k).sqs = sqs1) ∧
       (∀ j, j ≠ k → t.dev.ctrl j = s.dev.ctrl j) ∧ t.dev.nvm.vols = s.dev.nvm.vols) ∧
     (∃ t st, exec (.createIoCq slice port a) s = .next t ∧ t.pending = s.pending ∧ NvAnswered s.dev t.dev k q.cq cq ⟨0, 0, a.cid, st⟩ ∧
       st = (if id = 0 ∨ (tblGet c.cqs id).isSome ∨ s.dev.nvQueues slice + 1 > (s.dev.slice slice).nvq then nvBadQid
         else if depth < 2 then nvBadSize else if a.cdw11.getLsbD 0 = false then nvBadField
         else if bits a.cdw11.toNat 16 16 ≥ (s.dev.slice slice).vecCount ∧ a.cdw11.getLsbD 1 = true then nvBadVector
         else if (s.dev.slice slice).dmaOk (port % 4) base (16 * depth) true = false then nvTransfer else nvOk) ∧
       (st = nvOk → tblGet (t.dev.ctrl k).cqs id = some ⟨base, depth, a.cdw11.getLsbD 1, bits a.cdw11.toNat 16 16, 0, 0, []⟩) ∧
       (∀ m, m ≠ q.cq → (m ≠ id ∨ st ≠ nvOk) → tblGet (t.dev.ctrl k).cqs m = tblGet c.cqs m) ∧ (t.dev.ctrl k).sqs = sqs1) ∧
     (∃ t st, exec (.deleteIoCq slice port a) s = .next t ∧ t.pending = s.pending ∧ NvAnswered s.dev t.dev k q.cq cq ⟨0, 0, a.cid, st⟩ ∧
       st = (if id = 0 ∨ (tblGet c.cqs id).isNone then nvBadQid else if sqs1.any (fun e => e.2.cq == id) = true then nvBadDelete else nvOk) ∧
       (st = nvOk → tblGet (t.dev.ctrl k).cqs id = none) ∧ (∀ m, m ≠ q.cq → (m ≠ id ∨ st ≠ nvOk) → tblGet (t.dev.ctrl k).cqs m = tblGet c.cqs m) ∧ (t.dev.ctrl k).sqs = sqs1) ∧
     (NvCalm s.dev → ∃ t st, exec (.deleteIoSq slice port a) s = .next t ∧ t.pending = s.pending ∧ NvAnswered s.dev t.dev k q.cq cq ⟨0, 0, a.cid, st⟩ ∧
       st = (if id = 0 ∨ (tblGet c.sqs id).isNone then nvBadQid else nvOk) ∧
       (st = nvOk → tblGet (t.dev.ctrl k).sqs id = none ∧ (∀ e ∈ t.dev.nvm.vols, ∀ j ∈ e.2.jobs, j.ctrl = k → j.sq = id → j.done = true)) ∧
       (∀ m, m ≠ 0 → (m ≠ id ∨ st ≠ nvOk) → tblGet (t.dev.ctrl k).sqs m = tblGet c.sqs m)) ∧
     (∃ t st, exec (.getLogPage slice port a) s = .next t ∧ t.pending = s.pending ∧ NvAnswered s.dev t.dev k q.cq cq ⟨0, 0, a.cid, st⟩ ∧
       (let n := 4 * (bits a.cdw10.toNat 16 16 + bits a.cdw11.toNat 0 16 * 65536 + 1)
        st = (if fid ≠ 1 ∧ fid ≠ 2 ∧ fid ≠ 5 then nvBadLog else if segBytes a.segs < n then nvBadField else if s.dev.segsOk k a.segs true = false then nvTransfer else nvOk) ∧
        (t.dev.ctrl k).errors = (if st = nvOk ∧ fid = 1 then c.errors.drop (n / 64) else c.errors)) ∧ (t.dev.ctrl k).sqs = sqs1 ∧ t.dev.nvm.vols = s.dev.nvm.vols) ∧
     (∃ t st, exec (.nvmeIdentify slice port a) s = .next t ∧ t.pending = s.pending ∧ NvAnswered s.dev t.dev k q.cq cq ⟨0, 0, a.cid, st⟩ ∧
       st = (if fid > 3 ∨ segBytes a.segs < 4096 then nvBadField else if s.dev.segsOk k a.segs true = false then nvTransfer
         else if fid = 0 ∧ (a.nsid = 0 ∨ a.nsid > 64) then nvBadNs else if fid = 3 ∧ s.dev.volOf slice a.nsid = none then nvBadNs else nvOk) ∧
       (t.dev.ctrl k).sqs = sqs1 ∧ (t.dev.ctrl k).errors = c.errors ∧ t.dev.nvm.vols = s.dev.nvm.vols) ∧
     (s.dev.catchable k id (BitVec.ofNat 16 (bits a.cdw10.toNat 16 16)) = false → ∃ t, exec (.nvmeAbort slice port a) s = .next t ∧ t.pending = s.pending ∧
       NvAnswered s.dev t.dev k q.cq cq ⟨1, 0, a.cid, nvOk⟩ ∧ (t.dev.ctrl k).sqs = sqs1 ∧ (t.dev.ctrl k).cmds = c.cmds ∧ t.dev.nvm.vols = s.dev.nvm.vols) ∧
     (s.dev.catchable k id (BitVec.ofNat 16 (bits a.cdw10.toNat 16 16)) = true → ∃ t, exec (.nvmeAbort slice port a) s = .next t ∧ t.pending = s.pending ∧
       (∀ e ∈ t.dev.nvm.vols, ∀ j ∈ e.2.jobs, j.ofCmd k id (BitVec.ofNat 16 (bits a.cdw10.toNat 16 16)) = false)) ∧
     (featureOk fid = false → ∃ t u, exec (.setFeatures slice port a) s = .next t ∧ NvAnswered s.dev t.dev k q.cq cq ⟨0, 0, a.cid, nvBadField⟩ ∧ (t.dev.ctrl k).features = c.features ∧
       exec (.getFeatures slice port a) s = .next u ∧ NvAnswered s.dev u.dev k q.cq cq ⟨0, 0, a.cid, nvBadField⟩) ∧
     (featureOk fid = true → NvCalm s.dev → ∃ t, exec (.setFeatures slice port a) s = .next t ∧ t.pending = s.pending ∧
       NvAnswered s.dev t.dev k q.cq cq ⟨BitVec.ofNat 32 (if fid = 7 then s.dev.feature k 7 else 0), 0, a.cid, nvOk⟩ ∧ tblGet (t.dev.ctrl k).features fid = some a.cdw11 ∧
       (∀ f, f ≠ fid → tblGet (t.dev.ctrl k).features f = tblGet c.features f) ∧
       (∀ n v, t.dev.vol n = some v → ∃ w, s.dev.vol n = some w ∧ v = { w with wce := if fid = 6 ∧ w.desc.slice = slice then a.cdw11.getLsbD 0 else w.wce })) ∧
     (featureOk fid = true → ∃ t, exec (.getFeatures slice port a) s = .next t ∧ t.pending = s.pending ∧
       NvAnswered s.dev t.dev k q.cq cq ⟨BitVec.ofNat 32 (s.dev.feature k fid), 0, a.cid, nvOk⟩ ∧ (t.dev.ctrl k).features = c.features ∧ t.dev.nvm.vols = s.dev.nvm.vols ∧
       (fid = 7 → s.dev.feature k fid = ((((s.dev.slice slice).nvq - 2) / 2 - 1) + (((s.dev.slice slice).nvq - 2) / 2 - 1) * 65536)) ∧
       (fid = 8 ∨ fid = 11 → s.dev.feature k fid = ((tblGet c.features fid).getD 0).toNat)) ∧
     (id ≠ 0 → (tblGet c.sqs id = none → ∃ t, exec (.queueRestart slice port a cids) s = .next t ∧ t.pending = s.pending ∧ NvAnswered s.dev t.dev k q.cq cq ⟨0, 0, a.cid, nvBadQid⟩) ∧
       (∀ x, tblGet c.sqs id = some x →
         (x.frozen = false → ∃ t, exec (.queueRestart slice port a cids) s = .next t ∧ t.pending = s.pending ∧ NvAnswered s.dev t.dev k q.cq cq ⟨0, 0, a.cid, nvSequence⟩ ∧ (t.dev.ctrl k).sqs = sqs1) ∧
         (x.frozen = true → x.tail = x.head → ∃ t, exec (.queueRestart slice port a cids) s = .next t ∧ t.pending = s.pending ∧
           (a.cdw11.getLsbD 0 = false → tblGet (t.dev.ctrl k).sqs id = some { x with frozen := false } ∧ NvAnswered s.dev t.dev k q.cq cq ⟨0, 0, a.cid, nvOk⟩)) ∧
         (x.frozen = true → a.cdw11.getLsbD 0 = true → ∃ t, exec (.queueRestart slice port a cids) s = .next t ∧ t.pending = s.pending ∧
           tblGet (t.dev.ctrl k).sqs id = some { x with frozen := false, head := x.tail, arrived := (x.arrived + (x.tail + x.depth - x.head) % x.depth) % x.depth }))))))

/-- An I/O command that is not awaited has no effect. One that fails a check completes with that status, freezes
its queue and adds an entry to the error log; no volume changes. Write, Write Zeroes and Deallocate that pass
add one unit job per part, and complete at once when the write cache has room for their blocks, otherwise when
their jobs end. Flush completes when no job of its controller is left in the volumes it names. Read of units
never written or cached completes at once; otherwise it reads its targets, and completes when they answered,
with 2h/81h if a tag fails; a target that does not answer is read again, and at last the command fails with
3h/00h. Commands for which it says that exec answers a next state with their effect, under conditions on the
state and the operands alone: nvmeWrite, nvmeRead, nvmeFlush, writeZeroes, datasetManagement, targetReadDone,
targetOpTimeout. (R285, R292, R298, R299, R300, R301, R302, R303, R304, R305, R306, 09_storage) -/
def Obligations.NvmeIoCommandsRunOrFail : Prop :=
  (∀ (s : State) (slice port sq : Nat) (io : NvmeIo) (ranges : List (Nat × Nat)), s.dev.cord.phase = .idle →
    (let k := ctrlKey slice port
     let c := s.dev.ctrl k
     let parts := unitParts (io.nlb + 1) io.slba io.nlb
     let known := ioOpcodes.contains io.opcode
     let common := fun (rest : Nat → Volume → Option NvStatus) => if known = false then some nvBadOpcode else match s.dev.volOf slice io.nsid with
       | none => some nvBadNs
       | some (n, v) => if io.slba + io.nlb > 64 * v.desc.units then some nvRange else if io.fieldsOk = false ∨ io.nlb = 0 then some nvBadField else rest n v
     let units := (ranges.map (fun r => ((unitParts (r.2 + 1) r.1 r.2).filter (fun p => p.2.2 = 64)).map (·.1))).flatten
     let chkW := common (fun _ v => if segBytes io.segs ≠ 4096 * io.nlb ∨ io.nlb > 256 then some nvBadField
       else if s.dev.segsOk k io.segs false = false ∨ io.poisoned = true then some nvTransfer else s.dev.writeCheck v (parts.map (·.1)))
     let chkZ := common (fun _ v => s.dev.writeCheck v (parts.map (·.1)))
     let chkR := common (fun _ _ => if segBytes io.segs ≠ 4096 * io.nlb ∨ io.nlb > 256 then some nvBadField else if s.dev.segsOk k io.segs true = false then some nvTransfer else none)
     let chkD := if known = false then some nvBadOpcode else match s.dev.volOf slice io.nsid with
       | none => some nvBadNs
       | some (_, v) => if io.fieldsOk = false then some nvBadField else if ranges.any (fun r => r.1 + r.2 > 64 * v.desc.units) = true then some nvRange
         else if s.dev.segsOk k io.segs false = false then some nvTransfer else s.dev.writeCheck v units
     let chkF := if known = false then some nvBadOpcode else if io.nsid ≠ 0xFFFFFFFF ∧ s.dev.volOf slice io.nsid = none then some nvBadNs else if io.fieldsOk = false then some nvBadField else none
     let all := [(Instr.nvmeWrite slice port sq io, chkW, io.slba), (Instr.nvmeRead slice port sq io, chkR, io.slba), (Instr.nvmeFlush slice port sq io, chkF, 0),
       (Instr.writeZeroes slice port sq io, chkZ, io.slba), (Instr.datasetManagement slice port sq io ranges, chkD, io.slba)]
     (∀ e ∈ all, (sq = 0 ∨ tblGet c.sqs sq = none ∨ c.rdy = false ∨ c.disabling = true ∨ (∃ q, tblGet c.sqs sq = some q ∧ q.arrived = q.head)) → exec e.1 s = .next s) ∧
     (∀ q cq, sq ≠ 0 → Awaited s.dev k sq q → NvRoom s.dev k q.cq cq → c.aers = [] →
       (∀ e ∈ all, ∀ st, e.2.1 = some st → ∃ t, exec e.1 s = .next t ∧ t.pending = s.pending ∧ NvAnswered s.dev t.dev k q.cq cq ⟨0, sq, io.cid, st⟩ ∧
         tblGet (t.dev.ctrl k).sqs sq = some { taken q with frozen := true } ∧ (t.dev.ctrl k).cmds = c.cmds ∧
         (t.dev.ctrl k).errors.head? = some ⟨c.errCount + 1, sq, io.cid, st, e.2.2, io.nsid, 0, s.dev.stamp⟩ ∧
         (∀ n v, t.dev.vol n = some v → ∃ w, s.dev.vol n = some w ∧ v.jobs = w.jobs ∧ v.map = w.map ∧ v.fenced = w.fenced)) ∧
       (NvCalm s.dev → ∀ n v, s.dev.volOf slice io.nsid = some (n, v) → s.dev.vol n = some v → (∀ j ∈ v.jobs, j.num < v.nextJob) →
         (∀ (i : Instr) (chk : Option NvStatus) (ps : List (Nat × Tbl Block × Bool × Bool)),
           (i, chk, ps) ∈ [(Instr.nvmeWrite slice port sq io, chkW, parts.map (fun p => (p.1, (List.range p.2.2).map (fun i => (p.2.1 + i, (io.data.getD (p.1 * 64 + p.2.1 + i - io.slba) zeroBlock))), false, false))),
             (Instr.writeZeroes slice port sq io, chkZ, parts.map (fun p => if p.2.2 = 64 then (p.1, [], true, false) else (p.1, (List.range p.2.2).map (fun i => (p.2.1 + i, zeroBlock)), false, false))),
             (Instr.datasetManagement slice port sq io ranges, chkD, units.map (fun u => (u, [], true, true)))] → chk = none →
           (let js : List UnitJob := ((List.range ps.length).zip ps).map (fun e => ⟨v.nextJob + e.1, e.2.1, e.2.2.1, e.2.2.2.1, e.2.2.2.2, false, k, sq, io.cid, .queued, 0, 0, 0⟩)
            let size := (js.map (fun j => j.blocks.length)).sum
            ∃ t, exec i s = .next t ∧ t.pending = s.pending ∧ tblGet (t.dev.ctrl k).sqs sq = some (taken q) ∧ t.dev.mem = s.dev.mem ∧
              (js = [] → NvAnswered s.dev t.dev k q.cq cq ⟨0, sq, io.cid, nvOk⟩ ∧ t.dev.vol n = some v ∧ (t.dev.ctrl k).cmds = []) ∧
              (js ≠ [] → v.wce = true → v.desc.cachePages > 0 → v.cached + size ≤ v.desc.cachePages * 512 →
                NvAnswered s.dev t.dev k q.cq cq ⟨0, sq, io.cid, nvOk⟩ ∧ (t.dev.ctrl k).cmds = [] ∧
                t.dev.vol n = some { v with jobs := v.jobs ++ js.map (fun j => { j with done := true }), nextJob := v.nextJob + js.length }) ∧
              (js ≠ [] → (v.wce = false ∨ v.desc.cachePages = 0 ∨ v.cached + size > v.desc.cachePages * 512) →
                t.dev.out = s.dev.out ∧ (t.dev.ctrl k).cmds = [⟨sq, io.cid, io.nsid, io.slba, .write (js.map (·.num)), none⟩] ∧
                t.dev.vol n = some { v with jobs := v.jobs ++ js, nextJob := v.nextJob + js.length }))) ∧
         (chkR = none → ∀ ps : List ReadPart, ps = parts.map (fun p => ⟨p.1, v.entry p.1, p.2.1, p.2.2, v.overlay p.1, none, 0⟩) →
           ∃ t, exec (.nvmeRead slice port sq io) s = .next t ∧ t.pending = s.pending ∧ tblGet (t.dev.ctrl k).sqs sq = some (taken q) ∧ t.dev.nvm.vols = s.dev.nvm.vols ∧ t.dev.mem = s.dev.mem ∧
             ((∀ p ∈ ps, p.needs = false) → NvAnswered s.dev t.dev k q.cq cq ⟨0, sq, io.cid, nvOk⟩ ∧ (t.dev.ctrl k).cmds = []) ∧
             ((∃ p ∈ ps, p.needs = true) → (t.dev.ctrl k).cmds = [⟨sq, io.cid, io.nsid, io.slba, .read n io.segs ps, none⟩] ∧
               (∀ p ∈ ps, p.needs = true → Out.target n (.read p.entry.tgt (v.extLba p.entry.tgt p.entry.ext + p.first) p.count) ∈ t.dev.out)))) ∧
       (NvCalm s.dev → chkF = none →
         (let hit := fun (e : Nat × Volume) (j : UnitJob) => e.2.desc.slice = slice ∧ (io.nsid = 0xFFFFFFFF ∨ e.2.desc.nsid = io.nsid) ∧ j.ctrl = k ∧ j.dealloc = false
          ∃ t, exec (.nvmeFlush slice port sq io) s = .next t ∧ t.pending = s.pending ∧ tblGet (t.dev.ctrl k).sqs sq = some (taken q) ∧ t.dev.nvm.vols = s.dev.nvm.vols ∧
            ((∀ e ∈ s.dev.nvm.vols, ∀ j ∈ e.2.jobs, ¬ hit e j) → NvAnswered s.dev t.dev k q.cq cq ⟨0, sq, io.cid, nvOk⟩ ∧ (t.dev.ctrl k).cmds = []) ∧
            ((∃ e ∈ s.dev.nvm.vols, ∃ j ∈ e.2.jobs, hit e j) → t.dev.out = s.dev.out ∧ ∃ js, js ≠ [] ∧ (t.dev.ctrl k).cmds = [⟨sq, io.cid, io.nsid, 0, .flush js, none⟩])))))) ∧
  (∀ (s : State) (slice port sq unit vol : Nat) (cid : BitVec 16) (x : ExtentData), s.dev.cord.phase = .idle →
    (let k := ctrlKey slice port
     (s.dev.readCmd k sq cid = none → exec (.targetReadDone slice port sq cid unit x) s = .next s ∧ exec (.targetOpTimeout vol unit (some (k, sq, cid))) s = .next s) ∧
     (∀ m n segs p v q cq, s.dev.readCmd k sq cid = some (m, n, segs, [p]) → s.dev.vol n = some v → p.unit = unit → p.needs = true → p.got = none → p.cached = [] → p.first + p.count ≤ 64 →
       tblGet (s.dev.ctrl k).sqs sq = some q → NvRoom s.dev k q.cq cq → (s.dev.ctrl k).aers = [] → sq ≠ 0 →
       (let bad := ((List.range 64).filter (fun i => decide (p.first ≤ i ∧ i < p.first + p.count) && (match x.blocks[i]? with
          | some b => (s.dev.openBlock v (unit * 64 + i) p.entry.gen b).isNone
          | none => true))).length
        ∃ t, exec (.targetReadDone slice port sq cid unit x) s = .next t ∧ t.pending = s.pending ∧ NvAnswered s.dev t.dev k q.cq cq ⟨0, sq, cid, if bad = 0 then nvOk else nvReadErr⟩ ∧
          tblGet (t.dev.ctrl k).sqs sq = some (if bad = 0 then q else { q with frozen := true }) ∧ (∀ y ∈ (t.dev.ctrl k).cmds, y.sq = sq → y.cid ≠ cid) ∧
          (∀ w, t.dev.vol n = some w → w.tagFail = satAdd 16 v.tagFail bad ∧ w.map = v.map ∧ w.jobs = v.jobs)) ∧
       (p.retries < s.dev.fld F.NVE_CTRL_RETRIES 0 → ∃ t, exec (.targetOpTimeout vol unit (some (k, sq, cid))) s = .next t ∧ t.pending = s.pending ∧
         (∀ w, t.dev.vol n = some w → w.retried = satAdd 16 v.retried 1) ∧ (t.dev.readCmd k sq cid).map (fun r => r.2.2.2) = some [{ p with retries := p.retries + 1 }] ∧
         Out.target n (.read p.entry.tgt (v.extLba p.entry.tgt p.entry.ext + p.first) p.count) ∈ t.dev.out) ∧
       (p.retries ≥ s.dev.fld F.NVE_CTRL_RETRIES 0 → ∃ t, exec (.targetOpTimeout vol unit (some (k, sq, cid))) s = .next t ∧ t.pending = s.pending ∧
         NvAnswered s.dev t.dev k q.cq cq ⟨0, sq, cid, nvPath⟩ ∧ tblGet (t.dev.ctrl k).sqs sq = some { q with frozen := true } ∧ (∀ y ∈ (t.dev.ctrl k).cmds, y.sq = sq → y.cid ≠ cid)))))

/-- An event that finds no job of the unit at its step has no effect. Destage takes an extent, reads the old
blocks where the write covers a part of a valid unit, seals and writes; then the target is flushed, the entry
swapped, the swap persisted, and only then the held map takes the entry and the old extent is deallocated. If
the swap finds another value the volume is fenced and the job ends. A fenced volume, an exhausted generation
or no free extent end the job with the map unchanged. A timed-out operation is issued again up to RETRIES
times. VOL_ATTACH makes a volume with a fresh owner word, its map, its queue pairs and its keys held;
VOL_DETACH ends it, at once or when its jobs end. Commands for which it says that exec answers a next state
with their effect, under conditions on the state and the operands alone: unitDestageStart, oldBlocksReadDone,
extentWriteDone, targetFlushDone, mapCasDone, mapPersistDone, targetOpTimeout, volDetach, volAttach. (R288,
R289, R290, R292, R294, R295, R296, R299, R300, R303, R305, 09_storage) -/
def Obligations.UnitWritesAndVolumes : Prop :=
  (∀ (s : State) (n unit : Nat) (x : ExtentData) (found : W64), s.dev.cord.phase = .idle →
    (s.dev.jobAt n unit .queued = none → exec (.unitDestageStart n unit) s = .next s) ∧ (s.dev.jobAt n unit .reading = none → exec (.oldBlocksReadDone n unit x) s = .next s) ∧
    (s.dev.jobAt n unit .writing = none → exec (.extentWriteDone n unit) s = .next s) ∧ (s.dev.jobAt n unit .flushing = none → exec (.targetFlushDone n unit) s = .next s) ∧
    (s.dev.jobAt n unit .swapping = none → exec (.mapCasDone n unit found) s = .next s) ∧ (s.dev.jobAt n unit .persisting = none → exec (.mapPersistDone n unit) s = .next s) ∧
    (∀ v j, s.dev.vol n = some v → v.jobOf unit = some j →
      (let e := v.entry unit
       let need := (List.range 64).filter (fun i => (tblGet j.blocks i).isNone)
       let gone := fun (d : Dev) => ∀ w, d.vol n = some w → (∀ i ∈ w.jobs, i.num ≠ j.num) ∧ w.map = v.map
       (j.step = .queued →
         exec (.targetOpTimeout n unit none) s = .next s ∧
         (v.fenced = true → ∃ t, exec (.unitDestageStart n unit) s = .next t ∧ t.pending = s.pending ∧ gone t.dev) ∧
         ((e.gen ≥ 2 ^ 27 - 1 ∨ (j.invalidate = false ∧ v.nextExt = none)) → v.fenced = false → j.done = false → ∃ t, exec (.unitDestageStart n unit) s = .next t ∧ t.pending = s.pending ∧ gone t.dev) ∧
         (v.fenced = false → e.gen < 2 ^ 27 - 1 →
           (j.invalidate = true → exec (.unitDestageStart n unit) s = .next ⟨(s.dev.modUnitJob n j.num (fun j => { j with step := .swapping })).emit
             (.target n (.swap (v.entryAddr j.unit) (mapWord e) (mapWord ⟨0, 0, false, e.gen + 1⟩))), s.pending⟩) ∧
           (∀ tg ext, j.invalidate = false → v.nextExt = some (tg, ext) →
             (e.valid = true → j.blocks.length < 64 → ∃ t w, exec (.unitDestageStart n unit) s = .next t ∧ t.pending = s.pending ∧ t.dev.vol n = some w ∧
               w.jobOf unit = some { j with step := .reading, tgt := tg, ext := ext } ∧ w.map = v.map ∧ (∀ i ∈ need ++ [64], Out.target n (.read e.tgt (v.extLba e.tgt e.ext + i) 1) ∈ t.dev.out)) ∧
             ((e.valid = false ∨ j.blocks.length ≥ 64) → ∀ cs d, s.dev.sealUnit v unit (e.gen + 1) ((List.range 64).map (fun i => tblGetD j.blocks i zeroBlock)) 0 = (some cs, d) →
               ∃ t w, exec (.unitDestageStart n unit) s = .next t ∧ t.pending = s.pending ∧ t.dev.vol n = some w ∧ w.jobOf unit = some { j with step := .writing, tgt := tg, ext := ext } ∧ w.map = v.map ∧
                 t.dev.out.head? = some (.target n (.write tg (v.extLba tg ext) (cs.map (·.1)) (trailerBytes v.desc.volume unit (e.gen + 1) cs))))))) ∧
       (j.step = .reading → (∀ i ∈ need, ∃ b, x.blocks[i]? = some b ∧ (s.dev.openBlock v (unit * 64 + i) e.gen b).isSome = true) →
         ∀ cs d, s.dev.sealUnit v unit (e.gen + 1) ((List.range 64).map (fun i => tblGetD j.blocks i (match x.blocks[i]? with
           | some b => (s.dev.openBlock v (unit * 64 + i) e.gen b).getD zeroBlock
           | none => zeroBlock))) 0 = (some cs, d) →
         ∃ t w, exec (.oldBlocksReadDone n unit x) s = .next t ∧ t.pending = s.pending ∧ t.dev.vol n = some w ∧ w.jobOf unit = some { j with step := .writing } ∧ w.tagFail = v.tagFail ∧ w.map = v.map ∧
           t.dev.out.head? = some (.target n (.write j.tgt (v.extLba j.tgt j.ext) (cs.map (·.1)) (trailerBytes v.desc.volume unit (e.gen + 1) cs)))) ∧
       (j.step = .reading → j.done = false → (∃ i ∈ need, x.blocks[i]? = none ∨ ∃ b, x.blocks[i]? = some b ∧ s.dev.openBlock v (unit * 64 + i) e.gen b = none) →
         ∃ t, exec (.oldBlocksReadDone n unit x) s = .next t ∧ t.pending = s.pending ∧ gone t.dev) ∧
       (j.step = .writing → exec (.extentWriteDone n unit) s = .next ⟨(s.dev.modUnitJob n j.num (fun j => { j with step := .flushing, retries := 0 })).emit (.target n (.flush j.tgt)), s.pending⟩) ∧
       (j.step = .flushing → exec (.targetFlushDone n unit) s = .next ⟨(s.dev.modUnitJob n j.num (fun j => { j with step := .swapping })).emit
         (.target n (.swap (v.entryAddr unit) (mapWord e) (mapWord (j.newEntry e)))), s.pending⟩) ∧
       (j.step = .swapping →
         (found.toNat = mapWord e → exec (.mapCasDone n unit found) s = .next ⟨(s.dev.modUnitJob n j.num (fun j => { j with step := .persisting, retries := 0 })).emit (.target n .persist), s.pending⟩) ∧
         (found.toNat ≠ mapWord e → ∃ t, exec (.mapCasDone n unit found) s = .next t ∧ t.pending = s.pending ∧ gone t.dev ∧
           (∀ w, t.dev.vol n = some w → w.fenced = true ∧ w.conflicts = satAdd 16 v.conflicts 1))) ∧
       (j.step = .persisting → ∃ t, exec (.mapPersistDone n unit) s = .next t ∧ t.pending = s.pending ∧
         (∀ w, t.dev.vol n = some w → (∀ i ∈ w.jobs, i.num ≠ j.num) ∧ w.map = tblPut v.map unit (j.newEntry e)) ∧
         (e.valid = true → Out.target n (.deallocate e.tgt (v.extLba e.tgt e.ext) 65) ∈ t.dev.out)) ∧
       (∀ op, (j.step, op) ∈ [(.flushing, TgtOp.flush j.tgt), (.swapping, .swap (v.entryAddr unit) (mapWord e) (mapWord (j.newEntry e))), (.persisting, .persist)] → j.retries < s.dev.fld F.NVE_CTRL_RETRIES 0 →
         ∃ t w, exec (.targetOpTimeout n unit none) s = .next t ∧ t.pending = s.pending ∧ t.dev.vol n = some w ∧ w.retried = satAdd 16 v.retried 1 ∧ w.map = v.map ∧
           w.jobOf unit = some { j with retries := j.retries + 1 } ∧ t.dev.out.head? = some (.target n op)) ∧
       (j.step ≠ .queued → j.retries ≥ s.dev.fld F.NVE_CTRL_RETRIES 0 → ∃ t, exec (.targetOpTimeout n unit none) s = .next t ∧ t.pending = s.pending ∧
         (j.done = false → gone t.dev) ∧ (j.done = true → j.ctrl ≠ cordCtrl → ∃ w, t.dev.vol n = some w ∧ w.jobOf unit = some { j with step := .queued, retries := 0 }))))) ∧
  (∀ (s : State) (c : Cmd) (p : Nat), Served s.dev c 0x0402 [.m] → c.iss = .pf0 p →
    (let d := s.dev.takeEntry c 0x0402
     ((zeroFrom c 1 = false ∨ c.w 0 ≥ 1024) → exec (.volDetach c) s = .next ⟨replied d c 0x0402 stRefused rsBadField [], s.pending⟩) ∧
     (zeroFrom c 1 = true → c.w 0 < 1024 →
       (s.dev.vol (c.w 0) = none → exec (.volDetach c) s = .next ⟨replied d c 0x0402 stRefused rsWrongState [], s.pending⟩) ∧
       (∀ v, s.dev.vol (c.w 0) = some v →
         (s.dev.manages p v.desc.slice = false → exec (.volDetach c) s = .next ⟨replied d c 0x0402 stRefused rsNotPermitted [], s.pending⟩) ∧
         (s.dev.manages p v.desc.slice = true → v.detach.isSome = true → exec (.volDetach c) s = .next ⟨replied d c 0x0402 stBusy 0 [], s.pending⟩) ∧
         (s.dev.manages p v.desc.slice = true → v.detach = none → d.volIdle (c.w 0) = false → exec (.volDetach c) s = .next ⟨replied
           (d.modVol (c.w 0) (fun v => { v with detach := some (s.dev.ownerOf c 0x0402) })) c 0x0402 stDeferred 0 [], s.pending⟩) ∧
         (s.dev.manages p v.desc.slice = true → v.detach = none → d.volIdle (c.w 0) = true → ∃ d', exec (.volDetach c) s = .next ⟨replied d' c 0x0402 stOk 0 [], s.pending⟩ ∧
           d'.vol (c.w 0) = none ∧ (∀ m, m ≠ c.w 0 → d'.vol m = s.dev.vol m) ∧ Out.target (c.w 0) (.swap v.desc.mapAddr v.ownerWord 0) ∈ d'.out ∧
           (∀ k, d'.key v.desc.keyTag = some k → k.held = false) ∧ (∀ q ∈ v.qps, d'.qp q = none)))))) ∧
  (∀ (s : State) (c : Cmd) (p n : Nat) (v : VolDesc) (x : AttachData) (hs : List Ah), Served s.dev c 0x0401 [.m] → c.iss = .pf0 p → zeroFrom c 1 = true → s.dev.manages p v.slice = true →
    (let d := s.dev.takeEntry c 0x0401
     exec (.volAttach c none x) s = .next ⟨replied d c 0x0401 stRefused rsBadField [], s.pending⟩ ∧
     (∀ rs, d.attachOk v = some rs → exec (.volAttach c (some v) x) s = .next ⟨replied d c 0x0401 stRefused rs [], s.pending⟩) ∧
     (d.attachOk v = none → tblFree s.dev.nvm.vols 1024 = some n → (v.mapAh :: v.targets.map (·.1)).map (fun h => tblGet s.dev.skid.ahs h) = hs.map some → (∀ a ∈ hs, a.slice = v.slice) →
       ((x.reachable = false ∨ (x.owner ≠ 0 ∧ v.force = false)) → exec (.volAttach c (some v) x) s = .next ⟨replied d c 0x0401 stRefused rsWrongState [], s.pending⟩) ∧
       (x.reachable = true → (x.owner = 0 ∨ v.force = true) → d.flag F.MEM_STATUS_ZERO_BUSY 0 = false → ((d.allocPages v.slice (256 + n) (pagesFor (64 + 8 * v.units) + v.cachePages)).bind (fun r => r.2.addVolQps v.slice hs)).isSome = true →
         ∃ d' w, exec (.volAttach c (some v) x) s = .next ⟨replied d' c 0x0401 stOk 0 [], s.pending⟩ ∧ d'.vol n = some w ∧ (∀ m, m ≠ n → d'.vol m = s.dev.vol m) ∧
           w.desc = v ∧ w.fenced = false ∧ w.wce = true ∧ w.jobs = [] ∧ w.extents = x.extents ∧ w.qps.length = 1 + v.targets.length ∧
           w.ownerWord = s.dev.node + bits s.dev.stamp.toNat 48 16 * 65536 ∧ Out.target n (.swap v.mapAddr x.owner.toNat w.ownerWord) ∈ d'.out ∧
           (∀ u, u < v.units → w.entry u = x.map.getD u blankMap) ∧ (d'.key v.keyData).any (fun k => k.held) = true ∧ (d'.key v.keyTag).any (fun k => k.held) = true))))

/-- CKPT_REGIONS keeps a valid table. CKPT_START is REFUSED or BUSY by the first check that fails, otherwise
DEFERRED: phase SNAPSHOT, the next sequence number, and a cut for every running plan. A warning is recorded;
it starts a checkpoint with its trigger code unless disabled, busy, in the quiet time, or in W2 and lower. At
the quiesce point, or 10 ms later, the captures are taken and tracking begins; when the regions are staged the
OPEN record is written and the phase is HELD or, released, DRAIN. The hold end and CKPT_RELEASE let the plans
run; CKPT_ABORT ends the checkpoint with ABANDONED set. Commands for which it says that exec answers a next
state with their effect, under conditions on the state and the operands alone: ckptRegions, ckptStart,
failureWarning, quietTimeEnd, quiescePoint, quiesceWaitExpiry, regionCopyDone, holdEnd, ckptRelease,
ckptAbort. (R311, R312, R313, R314, R316, R318, R319, R322, R326, R330, R416, 10_checkpoint) -/
def Obligations.CheckpointsStartHoldAndCapture : Prop :=
  (∀ (s : State) (c : Cmd) (tbl : Option (List Byte)), Served s.dev c 0x0501 [.m] →
    (let d := s.dev.takeEntry c 0x0501
     ((zeroFrom c 2 = false ∨ c.w 1 > 256) → exec (.ckptRegions c tbl) s = .next ⟨replied (d) c 0x0501 stRefused rsBadField [], s.pending⟩) ∧
     (zeroFrom c 2 = true → c.w 1 ≤ 256 →
       (s.dev.cordAvail = false → exec (.ckptRegions c tbl) s = .next ⟨replied (d) c 0x0501 stRefused ckNoStaging [], s.pending⟩) ∧
       (s.dev.cordAvail = true → s.dev.cord.phase ≠ .idle → exec (.ckptRegions c tbl) s = .next ⟨replied (d) c 0x0501 stBusy 0 [], s.pending⟩) ∧
       (∀ b rs, s.dev.cordAvail = true → s.dev.cord.phase = .idle → tbl = some b → rs = readRegions b (c.w 1) →
         (((∀ r ∈ rs, s.dev.regionOk false r = true) ∧ (rs.map (fun r => regionChunks r * chunkBytes)).sum ≤ (s.dev.fld F.MEM_CAP_STAGING_GIB 0 - 2) * 2 ^ 30) →
           exec (.ckptRegions c tbl) s = .next ⟨replied ({ d with cord := { d.cord with regions := rs } }) c 0x0501 stOk 0 [], s.pending⟩) ∧
         (((∃ r ∈ rs, s.dev.regionOk false r = false) ∨ (rs.map (fun r => regionChunks r * chunkBytes)).sum > (s.dev.fld F.MEM_CAP_STAGING_GIB 0 - 2) * 2 ^ 30) →
           exec (.ckptRegions c tbl) s = .next ⟨replied (d) c 0x0501 stRefused ckNoStaging [], s.pending⟩))))) ∧
  (∀ (s : State) (c : Cmd) (list : Option (List Byte)), Served s.dev c 0x0502 [.m] → s.dev.pwr.move = none → s.dev.cord.failed = false →
    (let d := s.dev.takeEntry c 0x0502
     ((zeroFrom c 4 = false ∨ c.w 1 > 64 ∨ c.w 2 > 60000) → exec (.ckptStart c list) s = .next ⟨replied (d) c 0x0502 stRefused rsBadField [], s.pending⟩) ∧
     (zeroFrom c 4 = true → c.w 1 ≤ 64 → c.w 2 ≤ 60000 →
       (s.dev.cordAvail = false → exec (.ckptStart c list) s = .next ⟨replied (d) c 0x0502 stRefused ckNoStaging [], s.pending⟩) ∧
       (s.dev.cordAvail = true → s.dev.cord.phase ≠ .idle → exec (.ckptStart c list) s = .next ⟨replied (d) c 0x0502 stBusy 0 [], s.pending⟩) ∧
       (∀ b, s.dev.cordAvail = true → s.dev.cord.phase = .idle → list = some b →
         (let es := (List.range (c.w 1)).map (fun i => (fieldAt b (16 * i) 8, BitVec.ofNat 64 (fieldAt b (16 * i + 8) 8)))
          let cutOf := fun n => (es.reverse.find? (fun e => e.1 == n)).map (·.2)
          let bad := ∃ e ∈ es, e.1 ≥ 64 ∨ s.dev.plan e.1 = none
          (bad → exec (.ckptStart c list) s = .next ⟨replied (d) c 0x0502 stRefused rsBadField [], s.pending⟩) ∧
          (¬ bad → ∀ rs, s.dev.volumeFits = some rs → exec (.ckptStart c list) s = .next ⟨replied (d) c 0x0502 stRefused rs [], s.pending⟩) ∧
          (¬ bad → s.dev.volumeFits = none → (∃ e ∈ s.dev.mill.plans, ∃ x, cutOf e.1 = some x ∧ e.2.step.toNat > x.toNat) →
            exec (.ckptStart c list) s = .next ⟨replied (d) c 0x0502 stRefused ckCutPassed [], s.pending⟩) ∧
          (¬ bad → s.dev.volumeFits = none → (∀ e ∈ s.dev.mill.plans, ∀ x, cutOf e.1 = some x → e.2.step.toNat ≤ x.toNat) →
            ∃ d', exec (.ckptStart c list) s = .next ⟨replied (d') c 0x0502 stDeferred 0 [], s.pending⟩ ∧
              d'.cord.phase = .snapshot ∧ d'.cord.owner = some (s.dev.ownerOf c 0x0502) ∧ d'.cord.trigger = 1 ∧ d'.cord.holdMs = c.w 2 ∧ d'.cord.holding = true ∧ d'.cord.snap = none ∧
              d'.cord.slot = s.dev.cord.nextSlot ∧ d'.cord.seq = max (s.dev.cord.seqOf 0) (s.dev.cord.seqOf 1) + 1 ∧
              (∀ n p, s.dev.plan n = some p → d'.plan n = some (if p.state = .running ∨ p.state = .stopping then
                (let x := (cutOf n).getD (if p.took then p.step + 1 else p.step)
                 { p with cut := some x, held := p.held || (p.step == x && !p.took) }) else p)) ∧ d'.mem = s.dev.mem ∧ d'.skid = s.dev.skid)))))) ∧
  (∀ (s : State) (w : WarnKind), s.dev.pwr.move = none → s.dev.cord.failed = false →
    (s.dev.warnOn w = false → exec (.failureWarning w) s = .next s) ∧
    (s.dev.warnOn w = true → ∃ t, exec (.failureWarning w) s = .next t ∧ t.pending = s.pending ∧ (t.dev.fld F.CRD_STATUS_WARN 0).testBit (warnBit w) = true ∧ t.dev.mem = s.dev.mem ∧
      (let stopped := s.dev.cord.phase ≠ .idle ∨ s.dev.quiet = true ∨ s.dev.pwr.state ≥ 2
       (stopped → t.dev.flag F.CRD_STATUS_SUPPRESSED 0 = true ∧ w ∈ t.dev.cord.persisting ∧ t.dev.cord.phase = s.dev.cord.phase ∧ t.dev.mill = s.dev.mill) ∧
       (¬ stopped → (s.dev.flag F.CRD_CTRL_WARN_EN 0 = false ∨ s.dev.cordAvail = false ∨ s.dev.volumeFits ≠ none) → t.dev.cord = s.dev.cord ∧ t.dev.mill = s.dev.mill) ∧
       (¬ stopped → s.dev.flag F.CRD_CTRL_WARN_EN 0 = true → s.dev.cordAvail = true → s.dev.volumeFits = none → t.dev.cord.phase = .snapshot ∧ t.dev.cord.trigger = 2 + warnBit w ∧
         t.dev.cord.owner = none ∧ t.dev.cord.holdMs = min 60000 (s.dev.fld F.CRD_CTRL_WARN_HOLD 0))))) ∧
  (∀ (s : State) (still : List WarnKind), s.dev.pwr.move = none → s.dev.cord.failed = false →
    (let ws := s.dev.cord.persisting.filter (fun w => still.contains w)
     let c1 : Cord := { s.dev.cord with lastWarn := none, persisting := ws }
     let may := s.dev.cord.phase = .idle ∧ s.dev.pwr.state < 2 ∧ s.dev.flag F.CRD_CTRL_WARN_EN 0 = true ∧ s.dev.cordAvail = true ∧ s.dev.volumeFits = none
     ((ws = [] ∨ ¬ may) → exec (.quietTimeEnd still) s = .next ⟨{ s.dev with cord := c1 }, s.pending⟩) ∧
     (∀ w rest, ws = w :: rest → may → ∃ t, exec (.quietTimeEnd still) s = .next t ∧ t.pending = s.pending ∧ t.dev.cord.phase = .snapshot ∧ t.dev.cord.trigger = 2 + warnBit w ∧
       t.dev.cord.lastWarn = none ∧ t.dev.mem = s.dev.mem))) ∧
  (∀ s : State, s.dev.pwr.move = none → s.dev.cord.failed = false →
    (let at_ := s.dev.cord.phase = .snapshot ∧ s.dev.cord.snap = none ∧ s.dev.allCut = true
     let taken := fun busy => ({ s.dev.cord with snap := some s.dev.capture, notQuiesced := busy, pending := s.dev.cord.tracked, marks := s.dev.mem.poison.filter (fun g => inRuns s.dev.cord.tracked (g / 1024)) } : Cord)
     ((¬ at_ ∨ s.dev.busyPlans ≠ []) → exec .quiescePoint s = .next s) ∧ (¬ at_ → exec .quiesceWaitExpiry s = .next s) ∧
     (at_ → s.dev.busyPlans = [] → ∃ t, exec .quiescePoint s = .next t ∧ t.pending = s.pending ∧ t.dev.cord.snap = some s.dev.capture ∧ t.dev.cord.pending = s.dev.cord.tracked ∧
       t.dev.cord.notQuiesced = [] ∧ t.dev.cord.phase = .snapshot ∧ (s.dev.cord.regions = [] → t.dev = { s.dev with cord := taken [] })) ∧
     (at_ → ∃ t, exec .quiesceWaitExpiry s = .next t ∧ t.pending = s.pending ∧ t.dev.cord.snap = some s.dev.capture ∧ t.dev.cord.notQuiesced = s.dev.busyPlans ∧ t.dev.cord.phase = .snapshot ∧
       (s.dev.cord.regions = [] → t.dev = { s.dev with cord := taken s.dev.busyPlans })))) ∧
  (∀ (s : State) (poisoned : Bool), s.dev.pwr.move = none → s.dev.cord.failed = false →
    ((s.dev.cord.phase ≠ .snapshot ∨ s.dev.cord.snap = none) → exec (.regionCopyDone poisoned) s = .next s) ∧
    (∀ n v b d', s.dev.cord.phase = .snapshot → s.dev.cord.snap.isSome = true → s.dev.cord.holding = true → s.dev.crdVol = some (n, v) → s.dev.vol n = some v →
      Dev.sealRec { s.dev with cord := { s.dev.cord with phase := .held, cutStamp := s.dev.stamp, poisoned := s.dev.cord.poisoned || poisoned } } v.desc.die 1 0 = (some b, d') →
      ∃ t w, exec (.regionCopyDone poisoned) s = .next t ∧ t.pending = s.pending ∧
        t.dev.cord.phase = (if s.dev.cord.releaseAsked = true ∨ s.dev.cord.holdMs = 0 then .drain else .held) ∧ t.dev.cord.cutStamp = s.dev.stamp ∧
        t.dev.cord.holding = decide (¬(s.dev.cord.releaseAsked = true ∨ s.dev.cord.holdMs = 0)) ∧ t.dev.vol n = some w ∧
        w.jobs.map (fun j => (j.num, j.unit)) = v.jobs.map (fun j => (j.num, j.unit)) ++ [(v.nextJob, 0)] ∧ Out.commitRecord s.dev.cord.slot b ∈ t.dev.out)) ∧
  (∀ s : State, s.dev.pwr.move = none → s.dev.cord.failed = false →
    ((s.dev.cord.phase = .snapshot ∨ s.dev.cord.phase = .restore ∨ s.dev.cord.holding = false) → exec .holdEnd s = .next s) ∧
    (s.dev.cord.phase ≠ .snapshot → s.dev.cord.phase ≠ .restore → s.dev.cord.holding = true → ∃ t, exec .holdEnd s = .next t ∧ t.pending = s.pending ∧
      (∀ n p, s.dev.plan n = some p → t.dev.plan n = some { p with held := false, cut := none }) ∧ t.dev.cord = { s.dev.cord with
        holding := false
        releaseStamp := s.dev.stamp
        phase := if s.dev.cord.phase = .held then .drain else s.dev.cord.phase } ∧ t.dev.mem = s.dev.mem)) ∧
  (∀ (s : State) (c : Cmd), Served s.dev c 0x0503 [.m] → s.dev.pwr.move = none → s.dev.cord.failed = false → zeroFrom c 0 = true → s.dev.cordAvail = true →
    (let d := s.dev.takeEntry c 0x0503
     (s.dev.cord.phase = .snapshot → exec (.ckptRelease c) s = .next ⟨replied ({ d with cord := { d.cord with releaseAsked := true } }) c 0x0503 stOk 0 [], s.pending⟩) ∧
     (s.dev.cord.phase = .held → s.dev.cord.holding = true → ∃ d', exec (.ckptRelease c) s = .next ⟨replied (d') c 0x0503 stOk 0 [], s.pending⟩ ∧ d'.cord.phase = .drain ∧ d'.cord.holding = false ∧
       (∀ n p, s.dev.plan n = some p → d'.plan n = some { p with held := false, cut := none })) ∧
     (s.dev.cord.phase = .drain → exec (.ckptRelease c) s = .next ⟨replied (d) c 0x0503 stOk 0 [], s.pending⟩) ∧
     ((s.dev.cord.phase = .idle ∨ s.dev.cord.phase = .commit ∨ s.dev.cord.phase = .restore) → exec (.ckptRelease c) s = .next ⟨replied (d) c 0x0503 stRefused rsWrongState [], s.pending⟩))) ∧
  (∀ (s : State) (c : Cmd), Served s.dev c 0x0504 [.m] → s.dev.pwr.move = none → s.dev.cord.failed = false → zeroFrom c 0 = true → s.dev.cordAvail = true →
    (let d := s.dev.takeEntry c 0x0504
     ((s.dev.cord.phase = .idle ∨ s.dev.cord.phase = .commit ∨ s.dev.cord.phase = .restore) → exec (.ckptAbort c) s = .next ⟨replied (d) c 0x0504 stRefused rsWrongState [], s.pending⟩) ∧
     ((s.dev.cord.phase = .snapshot ∨ s.dev.cord.phase = .held ∨ s.dev.cord.phase = .drain) → (∀ e ∈ s.dev.mill.plans, e.2.retireOwner = none) →
       ∃ d', exec (.ckptAbort c) s = .next ⟨replied (d') c 0x0504 stOk 0 [], s.pending⟩ ∧ d'.cord.phase = .idle ∧ d'.cord.holding = false ∧ d'.cord.pending = [] ∧ d'.cord.waiting = [] ∧ d'.cord.owner = none ∧
         d'.flag F.CRD_STATUS_ABANDONED 0 = true ∧ d'.cord.recs = s.dev.cord.recs ∧ (s.dev.cord.holding = true → ∀ n p, s.dev.plan n = some p → d'.plan n = some { p with held := false, cut := none }))))

/-- DRAIN_CHUNK_WRITTEN writes the next chunk of HELD or DRAIN, sealed with its index, into its unit of the slot;
a granule read that way is no longer pending. The chunk table, and units of poison bitmaps, go out before the
directory. After the directory and the first Flush the COMMITTED record is written and the phase is COMMIT;
the second Flush makes the record the valid one of the slot and Cord IDLE. Without the volume, or after a
write that waited too long, the checkpoint ends with ABANDONED set. CKPT_RESTORE reads both records and is
DEFERRED; the restore takes the candidate with the highest sequence number, or without one ends at once, with
the plans as at admission unless a record names another node; a chunk that fails its tag gives up the slot;
the last verified chunk loads the plans and leaves Cord IDLE. CRD_VOL is discarded while Cord works. Commands
for which it says that exec answers a next state with their effect, under conditions on the state and the
operands alone: drainChunkWritten, cbwStallLimit, drainFlushDone, commitFlushDone, crdVolWrite, ckptRestore,
restoreChunkRead. (R320, R321, R322, R323, R324, R325, R326, R327, R328, 10_checkpoint) -/
def Obligations.CheckpointsDrainCommitAndRestore : Prop :=
  (∀ s : State, s.dev.pwr.move = none → s.dev.cord.failed = false →
    (let c := s.dev.cord
     let calm := ∀ e ∈ s.dev.mill.plans, e.2.retireOwner = none
     let ended := fun (t : State) => t.pending = s.pending ∧ t.dev.cord.phase = .idle ∧ t.dev.cord.pending = [] ∧ t.dev.cord.waiting = [] ∧ t.dev.cord.holding = false ∧
       t.dev.cord.recs = c.recs ∧ t.dev.flag F.CRD_STATUS_ABANDONED 0 = true
     (((c.phase ≠ .held ∧ c.phase ≠ .drain) ∨ c.written > c.dataChunks) → exec .drainChunkWritten s = .next s) ∧
     ((c.phase = .held ∨ c.phase = .drain) → c.written ≤ c.dataChunks →
       (calm → s.dev.crdVol = none → ∃ t, exec .drainChunkWritten s = .next t ∧ ended t) ∧
       (∀ n v ctr ct tag d', s.dev.crdVol = some (n, v) → s.dev.vol n = some v → c.waiting = [] →
         s.dev.seal v.desc.die s.dev.crdKey (chunkAad s.dev.node c.seq c.slot c.written)
           (if c.written = c.dataChunks then s.dev.directory v else (List.range chunkBytes).map (Config.chunkByte c.seq c.written)) = (some (ctr, ct, tag), d') →
         ∃ t w, exec .drainChunkWritten s = .next t ∧ t.pending = s.pending ∧ t.dev.vol n = some w ∧ w.map = v.map ∧
           (∃ pre j, w.jobs = v.jobs ++ pre ++ [j] ∧ (c.written ≠ c.dataChunks → pre = []) ∧
             (c.written = c.dataChunks → pre.map (·.unit) = (List.range (c.tableUnits + c.poisonUnits v)).map (fun u => 1 + c.slot * v.slotUnits + 1 + u)) ∧ j.unit = (if c.written = c.dataChunks then 1 + c.slot * v.slotUnits else c.dataUnit v + c.written / 4) ∧ j.ctrl = cordCtrl ∧ j.step = .queued ∧
             j.blocks.map (·.2) = toBlocks 16 ct) ∧
           (c.written < c.dataChunks → t.dev.cord.chunkTab = c.chunkTab ++ [le 6 ctr ++ le 1 (b2n (c.chunkPoison c.written)) ++ zeros 9 ++ tag]) ∧
           t.dev.cord.written = c.written + 1 ∧ t.dev.cord.phase = c.phase ∧ t.dev.cord.dirDigest = (if c.written = c.dataChunks then digest ct else c.dirDigest) ∧ t.dev.mem = s.dev.mem ∧
           (c.capChunks ≤ c.written → c.written < c.capChunks + c.trkChunks → ∀ g, granuleAt c.tracked (c.written - c.capChunks) = some g →
             t.dev.cord.pending = runDel c.pending g ∧ g ∉ t.dev.cord.buffers) ∧
           ((c.written < c.capChunks ∨ c.written ≥ c.capChunks + c.trkChunks) → t.dev.cord.pending = c.pending ∧ t.dev.cord.buffers = c.buffers))) ∧
     (c.waiting = [] → exec .cbwStallLimit s = .next s) ∧
     (c.waiting ≠ [] → calm → ∃ t, exec .cbwStallLimit s = .next t ∧ ended t ∧ t.dev.fld F.CRD_STALL_MAX_US 0 = max (s.dev.fld F.CRD_STALL_MAX_US 0) 10000 % 65536) ∧
     (((c.phase ≠ .held ∧ c.phase ≠ .drain) ∨ c.written ≠ c.dataChunks + 1 ∨ s.dev.crdFlushed = false) → exec .drainFlushDone s = .next s) ∧
     ((c.phase = .held ∨ c.phase = .drain) → c.written = c.dataChunks + 1 → s.dev.crdFlushed = true → ∀ n v b d', s.dev.crdVol = some (n, v) → s.dev.vol n = some v →
       Dev.sealRec { s.dev with cord := { c with phase := .commit, tracked := [], pending := [], buffers := [] } } v.desc.die 2 s.dev.stamp = (some b, d') →
       ∃ t w, exec .drainFlushDone s = .next t ∧ t.pending = s.pending ∧ t.dev.cord = { c with phase := .commit, tracked := [], pending := [], buffers := [] } ∧ t.dev.vol n = some w ∧
         w.jobs.map (fun j => (j.num, j.unit)) = v.jobs.map (fun j => (j.num, j.unit)) ++ [(v.nextJob, 0)] ∧ t.dev.out.head? = some (.commitRecord c.slot b)) ∧
     ((c.phase ≠ .commit ∨ s.dev.crdFlushed = false) → exec .commitFlushDone s = .next s) ∧
     (c.phase = .commit → s.dev.crdFlushed = true → calm → ∃ t, exec .commitFlushDone s = .next t ∧ t.pending = s.pending ∧ t.dev.cord.phase = .idle ∧
       tblGet t.dev.cord.recs c.slot = some ⟨2, s.dev.node, c.seq, true, c.dirDigest, c.dataChunks, c.cutStamp.toNat⟩ ∧ (∀ k, k ≠ c.slot → tblGet t.dev.cord.recs k = tblGet c.recs k) ∧
       t.dev.cord.lastWarn = (if c.trigger ≥ 2 then some s.dev.clk else c.lastWarn) ∧ t.dev.cord.holding = c.holding ∧ t.dev.cord.owner = none ∧
       t.dev.flag F.CRD_STATUS_ABANDONED 0 = s.dev.flag F.CRD_STATUS_ABANDONED 0))) ∧
  (∀ (s : State) (val : W32) (r0 r1 : List Byte),
    (s.dev.cord.phase ≠ .idle → exec (.crdVolWrite val r0 r1) s = .next ⟨s.dev.count itCrdDiscard, s.pending⟩) ∧
    (s.dev.cord.phase = .idle → ∃ t, exec (.crdVolWrite val r0 r1) s = .next t ∧ t.pending = s.pending ∧ t.dev.fld F.CRD_VOL_VOL 0 = bits val.toNat 0 10 ∧
      t.dev.flag F.CRD_VOL_VALID 0 = val.getLsbD 10 ∧ t.dev.mem = s.dev.mem ∧ t.dev.nvm = s.dev.nvm ∧ (val.getLsbD 10 = false → t.dev.cord = s.dev.cord) ∧
      (val.getLsbD 10 = true → t.dev.cord = { s.dev.cord with recs := [(0, s.dev.readRec 0 r0), (1, s.dev.readRec 1 r1)] }))) ∧
  (∀ (s : State) (c : Cmd) (tbl : Option (List Byte)) (r0 r1 : List Byte), Served s.dev c 0x0505 [.m] → s.dev.pwr.move = none → s.dev.cord.failed = false → zeroFrom c 3 = true → c.w 1 ≤ 256 → s.dev.cordAvail = true →
    (let d := s.dev.takeEntry c 0x0505
     let ready := s.dev.cord.phase = .idle ∧ s.dev.pwr.state < 2 ∧ (∀ p ∈ s.dev.mill.plans, p.2.state = .admitted)
     (s.dev.cord.phase ≠ .idle → exec (.ckptRestore c tbl r0 r1) s = .next ⟨replied (d) c 0x0505 stBusy 0 [], s.pending⟩) ∧
     (s.dev.cord.phase = .idle → ¬ ready → exec (.ckptRestore c tbl r0 r1) s = .next ⟨replied (d) c 0x0505 stRefused rsWrongState [], s.pending⟩) ∧
     (∀ b, ready → tbl = some b →
       (s.dev.crdVol = none → exec (.ckptRestore c tbl r0 r1) s = .next ⟨replied (d) c 0x0505 stRefused ckNoVolume [], s.pending⟩) ∧
       (s.dev.crdVol.isSome = true →
         ((∃ r ∈ readRegions b (c.w 1), s.dev.regionOk true r = false) → exec (.ckptRestore c tbl r0 r1) s = .next ⟨replied (d) c 0x0505 stRefused ckRegionMismatch [], s.pending⟩) ∧
         ((∀ r ∈ readRegions b (c.w 1), s.dev.regionOk true r = true) →
           exec (.ckptRestore c tbl r0 r1) s = .next ⟨(replied { d with cord := { d.cord with
             recs := [(0, s.dev.readRec 0 r0), (1, s.dev.readRec 1 r1)]
             phase := .restore
             owner := some (s.dev.ownerOf c 0x0505)
             report := c.w 2
             poisoned := false
             notQuiesced := []
             written := 0
             stalls := 0
             seq := 0
             cutStamp := 0
             releaseStamp := 0
             restore := some ⟨readRegions b (c.w 1), 0, [], [], 0⟩ } } c 0x0505 stDeferred 0 []).restoreBegin, s.pending⟩))))) ∧
  (∀ (d : Dev) (r : RestoreSt), d.cord.phase = .restore → d.cord.restore = some r → r.tried = [] → (∀ e ∈ d.mill.plans, e.2.retireOwner = none) →
    (∀ k, d.candidate [] = some k → ∃ ign, d.restoreBegin.cord.phase = .restore ∧ d.restoreBegin.cord.seq = d.cord.seqOf k ∧
      d.restoreBegin.cord.restore = some ⟨r.regions, k, ign, [k], 0⟩ ∧ (∀ i w, (i, w) ∈ ign ↔ i < 2 ∧ d.notCandidate i = some w) ∧ d.restoreBegin.mill = d.mill ∧ d.restoreBegin.mem = d.mem) ∧
    (d.candidate [] = none → d.restoreBegin.cord.phase = .idle ∧ d.restoreBegin.flag F.CRD_STATUS_HALF_SLOT 0 = true ∧
      (d.cord.holding = false → ∀ n p, d.plan n = some p → d.restoreBegin.plan n = some (if d.notCandidate 0 = some 2 ∨ d.notCandidate 1 = some 2 then p else p.fresh)))) ∧
  (∀ (s : State) (ct : List Byte) (ctr : Nat) (tag : List Byte) (dest : Option (Nat × Nat)) (sv : Saved), s.dev.pwr.move = none → s.dev.cord.failed = false →
    ((s.dev.cord.phase ≠ .restore ∨ s.dev.cord.restore = none) → exec (.restoreChunkRead ct ctr tag dest sv) s = .next s) ∧
    (∀ r rc, s.dev.cord.phase = .restore → s.dev.cord.restore = some r → s.dev.cord.rec? r.slot = some rc → (∀ e ∈ s.dev.mill.plans, e.2.retireOwner = none) →
      (let ix := if r.next = 0 then rc.chunks else r.next - 1
       let pt := s.dev.openKey s.dev.crdKey ctr (chunkAad rc.node rc.seq r.slot ix) ct tag
       (pt = none → ∃ t, exec (.restoreChunkRead ct ctr tag dest sv) s = .next t ∧ t.pending = s.pending ∧ t.dev.flag F.CRD_STATUS_HALF_SLOT 0 = true ∧
         (s.dev.candidate r.tried = none → t.dev.cord.phase = .idle) ∧
         (∀ k, s.dev.candidate r.tried = some k → t.dev.cord.phase = .restore ∧ t.dev.cord.restore = some ⟨r.regions, k, r.ignored ++ [(r.slot, 3)], r.tried ++ [k], 0⟩ ∧ t.dev.mill = s.dev.mill)) ∧
       (pt.isSome = true → r.next ≠ 0 → r.next < rc.chunks → ∃ t, exec (.restoreChunkRead ct ctr tag dest sv) s = .next t ∧ t.pending = s.pending ∧ t.dev.cord.phase = .restore ∧
         t.dev.cord.written = r.next ∧ t.dev.cord.restore = some { r with next := r.next + 1 } ∧ t.dev.mill = s.dev.mill ∧ t.dev.mem = s.dev.mem) ∧
       (pt.isSome = true → r.next = 0 → (digest ct ≠ rc.dirDigest ∨ (∃ q ∈ sv.plans, s.dev.planFor q = none) ∨ sv.regions ≠ r.regions.map (·.bytes)) → s.dev.candidate r.tried = none →
         ∃ t, exec (.restoreChunkRead ct ctr tag dest sv) s = .next t ∧ t.pending = s.pending ∧ t.dev.cord.phase = .idle) ∧
       (pt.isSome = true → r.next ≠ 0 → r.next ≥ rc.chunks → ∀ q n p, sv.plans = [q] → s.dev.planFor q = some n → s.dev.plan n = some p → sv.qps = [] →
         ∃ t x, exec (.restoreChunkRead ct ctr tag dest sv) s = .next t ∧ t.pending = s.pending ∧ t.dev.cord.phase = .idle ∧ t.dev.plan n = some x ∧ x.step = q.step ∧ x.begun = q.begun ∧
           x.applied = q.applied ∧ x.efStale = q.efStale ∧ x.lrMul = q.lrMul ∧ x.tables = q.tables ∧ x.cfg = p.cfg ∧ x.state = p.state))))

/-- On a running core at whose boundary nothing is taken, each arithmetic instruction writes rd (k0 stays 0) with
the result and the poison of its sources, and the PC passes its parcels; a quotient that no rule states is
open. A branch goes to its offset when its register says so; a poisoned one raises POISON_USE, and a field
that the tables do not list ILLEGAL_INSN. Under REP or REPX the instruction repeats without moving the PC
until the count is used. HALT stops the core; BRK and SYS take their exception, and end the program of a
sequencer core; ERET and WFI do as R341 says. Commands for which it says that exec answers a next state with
their effect, under conditions on the state and the operands alone: aluS, addiS, liS, shiS, addi, andi, ori,
xori, lui, seqi, slti, sltiu, shi, alu, bezS, bnzS, bez, bnz, jS, jrS, jal, jalr, rep, repx, nop, fence, eret,
halt, brk, sys, wfi, lwS, swS, lw, sw, kop, csr. (R333, R334, R335, R338, R339, R340, R341, R343, R352,
11_kerf_cores) -/
def Obligations.CoresComputeAndBranch : Prop :=
  (∀ (s : State) (c : Nat) (w : BitVec 13) (x : BitVec 29) (k : Core) (p : Option RepPrefix), Steady s.dev c k p →
    (let a := k.data (sRd w)
     let b := k.data (sRs w)
     let pp := k.pois (sRd w) || k.pois (sRs w)
     let i8 := w32 (sext 8 (sImm w))
     let la := k.data (lRs1 x)
     let lp := k.pois (lRs1 x)
     let i19 := w32 (sext 19 (lImm x))
     let z19 : W32 := BitVec.ofNat 32 (lImm x)
     let one := fun (q : Bool) => (if q then 1 else 0 : W32)
     let sh := fun (kind n : Nat) (v : W32) => (if kind = 0 then v <<< n else if kind = 1 then v >>> n else v.sshiftRight n : W32)
     ∀ e ∈ ([(Instr.aluS c w, true, sRd w, (if sFn w = 0 then word (a + b).toNat pp else if sFn w = 1 then word (a - b).toNat pp else if sFn w = 2 then word (a &&& b).toNat pp
           else if sFn w = 3 then word (a ||| b).toNat pp else if sFn w = 4 then word (a ^^^ b).toNat pp else if sFn w = 5 then k.reg (sRs w)
           else if sFn w = 6 then word (one (a.slt b)).toNat pp else word (one (a.ult b)).toNat pp), 1),
         (Instr.addiS c w, true, sRd w, word (a + i8).toNat (k.pois (sRd w)), 1), (Instr.liS c w, true, sRd w, word i8.toNat false, 1),
         (Instr.shiS c w, decide (sFn w ≤ 2), sRd w, word (sh (sFn w) (sRs w) a).toNat (k.pois (sRd w)), 1),
         (Instr.addi c x, true, lRd x, word (la + i19).toNat lp, 2), (Instr.andi c x, true, lRd x, word (la &&& z19).toNat lp, 2), (Instr.ori c x, true, lRd x, word (la ||| z19).toNat lp, 2),
         (Instr.xori c x, true, lRd x, word (la ^^^ z19).toNat lp, 2), (Instr.lui c x, decide (lRs1 x = 0), lRd x, word (lImm x * 2 ^ 13) false, 2),
         (Instr.seqi c x, true, lRd x, word (one (la == i19)).toNat lp, 2), (Instr.slti c x, true, lRd x, word (one (la.slt i19)).toNat lp, 2),
         (Instr.sltiu c x, true, lRd x, word (one (la.ult i19)).toNat lp, 2),
         (Instr.shi c x, decide (bits x.toNat 5 2 ≤ 2 ∧ bits x.toNat 7 12 = 0), lRd x, word (sh (bits x.toNat 5 2) (bits x.toNat 0 5) la).toNat lp, 2)] : List (Instr × Bool × Nat × W36 × Nat)),
       (let r := k.setReg e.2.2.1 e.2.2.2.1
        (p = none → e.2.1 = true → ∃ t, exec e.1 s = .next t ∧ CoreStep s t c { r with pc := (k.pc + e.2.2.2.2) % 2 ^ 19 }) ∧
        (p = none → e.2.1 = false → isSeq c = false → k.exl = false → ∃ t, exec e.1 s = .next t ∧ Trapped s t c k 1 none) ∧
        (∀ q, p = some q → q.left = 0 → ∃ t, exec e.1 s = .next t ∧ CoreStep s t c { k with pre := none, pc := (k.pc + e.2.2.2.2) % 2 ^ 19 }) ∧
        (∀ q, p = some q → q.left = 1 → e.2.1 = true → ∃ t, exec e.1 s = .next t ∧ CoreStep s t c { r with pre := none, pc := (k.pc + e.2.2.2.2) % 2 ^ 19 }) ∧
        (∀ q, p = some q → q.left > 1 → e.2.1 = true → ∃ t, exec e.1 s = .next t ∧ CoreStep s t c { r with pre := some { q with left := q.left - 1 } })))) ∧
  (∀ (s : State) (c : Nat) (x : BitVec 29) (k : Core), Steady s.dev c k none →
    (let a := k.data (lRs1 x)
     let b := k.data (lRs2 x)
     let ra := (k.reg (lRs1 x)).toNat
     let rb := (k.reg (lRs2 x)).toNat
     let p := k.pois (lRs1 x) || k.pois (lRs2 x)
     let n := bits b.toNat 0 5
     let one := fun (q : Bool) => (if q then 1 else 0 : W32)
     let wd := fun (v : W32) => word v.toNat p
     let done := fun (v : W36) => ∃ t, exec (.alu c x) s = .next t ∧ CoreStep s t c { (k.setReg (lRd x) v) with pc := (k.pc + 2) % 2 ^ 19 }
     (bits x.toNat 0 8 = 0 →
       (∀ v, (lFn x, v) ∈ [(0x00, wd (a + b)), (0x01, wd (a - b)), (0x02, wd (a &&& b)), (0x03, wd (a ||| b)), (0x04, wd (a ^^^ b)), (0x05, wd (~~~(a ||| b))), (0x06, wd (a <<< n)),
           (0x07, wd (a >>> n)), (0x08, wd (a.sshiftRight n)), (0x09, wd (a * b)), (0x0A, wd (BitVec.ofInt 32 (a.toInt * b.toInt / 2 ^ 32))), (0x0B, wd (BitVec.ofNat 32 (a.toNat * b.toNat / 2 ^ 32))),
           (0x0D, wd (if b = 0 then 0xFFFFFFFF else a / b)), (0x0E, wd (if b = 0 then a else BitVec.ofInt 32 (a.toInt.tmod b.toInt))), (0x0F, wd (if b = 0 then a else a % b)),
           (0x10, wd (one (a == b))), (0x11, wd (one (a != b))), (0x12, wd (one (a.slt b))), (0x13, wd (one (a.ult b))), (0x14, wd (one (a.sle b))), (0x15, wd (one (a.ule b))),
           (0x16, wd (if a.toInt ≤ b.toInt then a else b)), (0x17, wd (if a.toInt ≤ b.toInt then b else a)), (0x18, wd (if a.toNat ≤ b.toNat then a else b)),
           (0x19, wd (if a.toNat ≤ b.toNat then b else a)), (0x1A, word (popcount 32 a.toNat) (k.pois (lRs1 x))), (0x1B, word (if a = 0 then 32 else 31 - Nat.log2 a.toNat) (k.pois (lRs1 x))),
           (0x1C, BitVec.ofNat 36 (ra % 2 ^ 33 + 2 ^ 33 * (rb % 8))), (0x1D, word (ra / 2 ^ 33) (k.pois (lRs1 x))), (0x1E, BitVec.ofNat 36 (putBits ra 32 1 (rb % 2))), (0x1F, word (b2n (k.pois (lRs1 x))) (k.pois (lRs1 x)))] → done v) ∧
       (lFn x = 0x0C → ¬(a = 0x80000000 ∧ b = 0xFFFFFFFF) → done (wd (if b = 0 then 0xFFFFFFFF else BitVec.ofInt 32 (a.toInt.tdiv b.toInt)))) ∧
       (lFn x = 0x0C → a = 0x80000000 → b = 0xFFFFFFFF → ∃ v : W32, done (wd v))) ∧
     ((bits x.toNat 0 8 ≠ 0 ∨ lFn x ≥ 0x20) → isSeq c = false → k.exl = false → ∃ t, exec (.alu c x) s = .next t ∧ Trapped s t c k 1 none))) ∧
  (∀ (s : State) (c : Nat) (w : BitVec 13) (x : BitVec 29) (k : Core), Steady s.dev c k none →
    (let go := fun (off : Int) => ((k.pc + off) % 2 ^ 19).toNat
     (∀ e ∈ ([(Instr.bezS c w, sRd w, true, sext 8 (sImm w), 1), (Instr.bnzS c w, sRd w, false, sext 8 (sImm w), 1), (Instr.bez c x, lRd x, true, sext 24 x.toNat, 2), (Instr.bnz c x, lRd x, false, sext 24 x.toNat, 2)] :
         List (Instr × Nat × Bool × Int × Nat)),
       (k.pois e.2.1 = false → ∃ t, exec e.1 s = .next t ∧ CoreStep s t c { k with
         pc := if decide (k.data e.2.1 = 0) = e.2.2.1 then go e.2.2.2.1 else (k.pc + e.2.2.2.2) % 2 ^ 19 }) ∧
       (k.pois e.2.1 = true → isSeq c = false → k.exl = false → ∃ t, exec e.1 s = .next t ∧ Trapped s t c k 3 none)) ∧
     (∃ t, exec (.jS c w) s = .next t ∧ CoreStep s t c { k with pc := go (sext 13 w.toNat) }) ∧
     (sImm w = 0 → k.pois (sRd w) = false → ∃ t, exec (.jrS c w) s = .next t ∧ CoreStep s t c { k with pc := (k.data (sRd w)).toNat % 2 ^ 19 }) ∧
     (sImm w = 0 → k.pois (sRd w) = true → isSeq c = false → k.exl = false → ∃ t, exec (.jrS c w) s = .next t ∧ Trapped s t c k 3 none) ∧
     (∃ t, exec (.jal c x) s = .next t ∧ CoreStep s t c { (k.setReg (lRd x) (word ((k.pc + 2) % 2 ^ 19) false)) with pc := go (sext 24 x.toNat) }) ∧
     (k.pois (lRs1 x) = false → ∃ t, exec (.jalr c x) s = .next t ∧ CoreStep s t c { (k.setReg (lRd x) (word ((k.pc + 2) % 2 ^ 19) false)) with
       pc := (k.data (lRs1 x) + w32 (sext 19 (lImm x))).toNat % 2 ^ 19 }) ∧
     (k.pois (lRs1 x) = true → isSeq c = false → k.exl = false → ∃ t, exec (.jalr c x) s = .next t ∧ Trapped s t c k 3 none) ∧
     (sImm w = 0 → k.pois (sRd w) = false → ∃ t, exec (.rep c w) s = .next t ∧ CoreStep s t c { k with pre := some ⟨false, (k.data (sRd w)).toNat⟩, pc := (k.pc + 1) % 2 ^ 19 }) ∧
     (bits w.toNat 0 7 = 0 → ∃ t, exec (.repx c w) s = .next t ∧ CoreStep s t c { k with pre := some ⟨true, bits w.toNat 7 6 + 1⟩, pc := (k.pc + 1) % 2 ^ 19 }))) ∧
  (∀ (s : State) (c : Nat) (k : Core), Steady s.dev c k none →
    (let next := { k with pc := (k.pc + 1) % 2 ^ 19 }
     (∃ t u, exec (.nop c 0) s = .next t ∧ CoreStep s t c next ∧ exec (.fence c 0) s = .next u ∧ CoreStep s u c next) ∧
     (∀ w : Byte, w ≠ 0 → isSeq c = false → k.exl = false → ∀ i ∈ [Instr.nop c w, Instr.fence c w, Instr.eret c w, Instr.halt c w, Instr.brk c w, Instr.sys c w, Instr.wfi c w],
       ∃ t, exec i s = .next t ∧ Trapped s t c k 1 none) ∧
     (isSeq c = false → k.exl = false → ∃ t u, exec (.brk c 0) s = .next t ∧ Trapped s t c k 7 none ∧ exec (.sys c 0) s = .next u ∧ Trapped s u c k 8 none) ∧
     (isSeq c = true → s.dev.flag F.KRF_CORE_CTRL_DEBUG c = true → ∃ t, exec (.brk c 0) s = .next t ∧ t.pending = s.pending ∧ (∀ j, j ≠ c → t.dev.core j = s.dev.core j) ∧
       t.dev.core c = { k with exc := satAdd 16 k.exc 1, ecause := 7, state := .debug } ∧ t.dev.mill = s.dev.mill) ∧
     (isSeq c = true → ∃ t, exec (.sys c 0) s = .next t ∧ t.pending = s.pending ∧ (t.dev.core c).state = .halted ∧ (t.dev.core c).ecause = 8 ∧ (t.dev.core c).epc = BitVec.ofNat 32 k.pc ∧
       (∀ n p, s.dev.planOfCore c = some n → s.dev.plan n = some p → (t.dev.plan n).any (fun q => q.state == .failed) = true)) ∧
     (k.irqPend = false → ∃ t, exec (.eret c 0) s = .next t ∧ CoreStep s t c { k with
       exl := false
       rep := false
       pre := if k.rep then some ⟨k.savedRepx, k.repcnt.toNat⟩ else none
       pc := k.epc.toNat % 2 ^ 19 }) ∧
     (∃ t, exec (.halt c 0) s = .next t ∧ t.pending = s.pending ∧ t.dev.core c = { next with state := .halted, job := .none_ } ∧ (∀ j, j ≠ c → t.dev.core j = s.dev.core j) ∧ t.dev.mem = s.dev.mem ∧
       (∀ n p, k.job = .step n → s.dev.plan n = some p → t.dev.plan n = some { p with running := p.running.filter (fun l => l != k.logical) })) ∧
     (∃ t, exec (.wfi c 0) s = .next t ∧ CoreStep s t c (if k.irqPend = true then next else { next with state := .waitIrq })))) ∧
  (∀ (s : State) (c : Nat) (w : BitVec 13) (x : BitVec 29) (o : Byte), (s.dev.core c).state ≠ .running →
    ∀ i ∈ [Instr.aluS c w, Instr.addiS c w, Instr.liS c w, Instr.shiS c w, Instr.lwS c w, Instr.swS c w, Instr.bezS c w, Instr.bnzS c w, Instr.jS c w, Instr.jrS c w, Instr.rep c w, Instr.repx c w, Instr.nop c o,
      Instr.fence c o, Instr.eret c o, Instr.halt c o, Instr.brk c o, Instr.sys c o, Instr.wfi c o, Instr.alu c x, Instr.addi c x, Instr.lw c x, Instr.sw c x, Instr.jal c x, Instr.kop c x, Instr.csr c x], exec i s = .next s)

/-- Segment 0 reads or writes one local word; an address past local memory is BUS_ERROR with that address, a
poisoned base POISON_USE. A fabric access that passes its segment reads or writes its bytes at base plus
register plus offset, in a stopped memory it is BUS_ERROR, and while its route is drained it waits, a load
bringing the poison of its granules, a store marking it; the other bytes of memory stay. The narrow forms have
no segment 0. KOP and CVT write rd with the rounded result; a bad descriptor is BAD_FORMAT. CRC advances the
running value. CSR gives rd the old value and, unless it only reads, writes, sets or clears; a number that is
not listed, or a write of a read-only register, is ILLEGAL_INSN. Commands for which it says that exec answers
a next state with their effect, under conditions on the state and the operands alone: lwS, swS, lw, lk, sw,
sk, lbu, lhu, sb, sh, kop, cvt, crc, csr. (R27, R31, R40, R54, R161, R336, R337, R339, R342, R350,
11_kerf_cores) -/
def Obligations.CoresLoadStoreConvertAndControl : Prop :=
  (∀ (s : State) (c : Nat) (w : BitVec 13) (x : BitVec 29) (k : Core), Steady s.dev c k none →
    (let trapped := fun (i : Instr) (code : Nat) (val : Option Nat) => isSeq c = false → k.exl = false → ∃ t, exec i s = .next t ∧ Trapped s t c k code val
     ∀ e ∈ ([(Instr.lwS c w, false, sRd w, sRs w, (sFn w : Int), 1), (Instr.swS c w, true, sRd w, sRs w, (sFn w : Int), 1)] ++
         (if lSeg x = 0 then [(Instr.lw c x, false, lRd x, lRs1 x, sext 16 x.toNat, 2), (Instr.lk c x, false, lRd x, lRs1 x, sext 16 x.toNat, 2),
           (Instr.sw c x, true, lRd x, lRs1 x, sext 16 x.toNat, 2), (Instr.sk c x, true, lRd x, lRs1 x, sext 16 x.toNat, 2)] else []) : List (Instr × Bool × Nat × Nat × Int × Nat)),
       (let rs := e.2.2.2.1
        let a := (k.data rs + w32 e.2.2.2.2.1).toNat
        let pc := (k.pc + e.2.2.2.2.2) % 2 ^ 19
        (k.pois rs = true → trapped e.1 3 none) ∧ (k.pois rs = false → a ≥ localWords c → trapped e.1 6 (some a)) ∧
        (k.pois rs = false → a < localWords c → ∃ t, exec e.1 s = .next t ∧
          CoreStep s t c (if e.2.1 = true then { k with mem := tblPut k.mem a (k.reg e.2.2.1), pc := pc } else { (k.setReg e.2.2.1 (tblGetD k.mem a 0)) with pc := pc }))))) ∧
  (∀ (s : State) (c : Nat) (x : BitVec 29) (k : Core), Steady s.dev c k none → isSeq c = false → k.exl = false →
    (lSeg x = 0 → ∀ i ∈ [Instr.lbu c x, Instr.lhu c x, Instr.sb c x, Instr.sh c x], ∃ t, exec i s = .next t ∧ Trapped s t c k 1 none) ∧
    (lSeg x ≠ 0 →
      (∀ e ∈ ([(Instr.lbu c x, 1), (Instr.lhu c x, 2), (Instr.lw c x, 4), (Instr.lk c x, 8)] : List (Instr × Nat)),
        (∀ code val, k.fabric (lSeg x) (lRs1 x) (sext 16 x.toNat) e.2 false = .inr (code, val) → ∃ t, exec e.1 s = .next t ∧ Trapped s t c k code val) ∧
        (∀ a, k.fabric (lSeg x) (lRs1 x) (sext 16 x.toNat) e.2 false = .inl a →
          a = ((((tblGetD k.segs (lSeg x) ⟨0, 0, 0⟩).base.toNat : Int) + ((k.data (lRs1 x)).toNat + sext 16 x.toNat)) % 2 ^ 64).toNat ∧ a % e.2 = 0 ∧
          (∀ o m, (s.dev.decode (coreIo c) a = .lpddr o ∨ s.dev.decode (coreIo c) a = .stacked m o) → s.dev.targetStopped (s.dev.decode (coreIo c) a) = true →
            ∃ t, exec e.1 s = .next t ∧ Trapped s t c k 6 (some a)) ∧
          (∀ o m, (s.dev.decode (coreIo c) a = .lpddr o ∨ s.dev.decode (coreIo c) a = .stacked m o) → s.dev.targetStopped (s.dev.decode (coreIo c) a) = false →
            s.dev.routeHeld c (s.dev.decode (coreIo c) a) = true → exec e.1 s = .next s) ∧
          (∀ o m, (s.dev.decode (coreIo c) a = .lpddr o ∨ s.dev.decode (coreIo c) a = .stacked m o) → s.dev.targetStopped (s.dev.decode (coreIo c) a) = false →
            s.dev.routeHeld c (s.dev.decode (coreIo c) a) = false → ∃ t, exec e.1 s = .next t ∧
            CoreStep s t c { (k.setReg (lRd x) (if e.2 = 8 then (if s.dev.mem.poisoned a 8 = true then BitVec.ofNat 36 poisonNan else BitVec.ofNat 36 (unle (s.dev.mem.read a 8)))
              else word (unle (s.dev.mem.read a e.2) % 2 ^ (8 * e.2)) (s.dev.mem.poisoned a e.2))) with pc := (k.pc + 2) % 2 ^ 19 }) ∧
          (∀ port b, s.dev.decode (coreIo c) a = .pcie port b → isSeq c = false → s.dev.canIssue port .pf0 = false → s.dev.sliceOfCore c = none → exec e.1 s = .next s) ∧
          (s.dev.decode (coreIo c) a = .unmapped → ∃ t, exec e.1 s = .next t ∧ t.pending = s.pending ∧ t.dev.mem = s.dev.mem ∧ (t.dev.core c).ecause = 6 ∧ (t.dev.core c).epc = BitVec.ofNat 32 k.pc ∧
            (t.dev.core c).eval = (BitVec.ofNat 64 a).truncate 32 ∧ (t.dev.core c).pc = k.evec.toNat % 2 ^ 19))) ∧
      (∀ e ∈ ([(Instr.sb c x, 1), (Instr.sh c x, 2), (Instr.sw c x, 4), (Instr.sk c x, 8)] : List (Instr × Nat)),
        (∀ code val, k.fabric (lSeg x) (lRs1 x) (sext 16 x.toNat) e.2 true = .inr (code, val) → ∃ t, exec e.1 s = .next t ∧ Trapped s t c k code val) ∧
        (∀ a o m, k.fabric (lSeg x) (lRs1 x) (sext 16 x.toNat) e.2 true = .inl a → (s.dev.decode (coreIo c) a = .lpddr o ∨ s.dev.decode (coreIo c) a = .stacked m o) →
          s.dev.targetStopped (s.dev.decode (coreIo c) a) = false → s.dev.routeHeld c (s.dev.decode (coreIo c) a) = false → ∃ t, exec e.1 s = .next t ∧ t.pending = s.pending ∧ t.dev.core c = { k with pc := (k.pc + 2) % 2 ^ 19 } ∧ t.dev.mill = s.dev.mill ∧ t.dev.skid = s.dev.skid ∧
            (∀ y, (y < a ∨ y ≥ a + e.2) → t.dev.mem.read y 1 = s.dev.mem.read y 1) ∧
            (s.dev.cord.pending = [] → s.dev.cord.waiting = [] → t.dev.mem = s.dev.mem.write a (le e.2 ((k.reg (lRd x)).toNat % 2 ^ (if e.2 = 8 then 36 else 8 * e.2)))
              (if e.2 = 8 then decide ((k.reg (lRd x)).toNat = poisonNan) else k.pois (lRd x))))))) ∧
  (∀ (s : State) (c : Nat) (x : BitVec 29) (k : Core), Steady s.dev c k none →
    (let a := (k.reg (lRs1 x)).toNat
     let b := (k.reg (lRs2 x)).toNat
     let r := (k.reg (lRd x)).toNat
     let pc := (k.pc + 2) % 2 ^ 19
     let trapped := fun (i : Instr) (code : Nat) => isSeq c = false → k.exl = false → ∃ t, exec i s = .next t ∧ Trapped s t c k code none
     (bits x.toNat 0 8 = 0 → ∀ v ev, (lFn x, (v, ev)) ∈ [(0x00, fAdd 15 a b), (0x01, fSub 15 a b), (0x02, fMul 15 a b), (0x03, fFma 15 a b r), (0x04, fDiv 15 a b), (0x05, fSqrt 15 a), (0x06, minOp 15 (decodeCode 15 a) (decodeCode 15 b)), (0x07, maxOp 15 (decodeCode 15 a) (decodeCode 15 b))] →
       ∃ t, exec (.kop c x) s = .next t ∧ t.pending = s.pending ∧ t.dev.core c = { (k.setReg (lRd x) (BitVec.ofNat 36 v)) with pc := pc } ∧ t.dev.mem = s.dev.mem ∧ t.dev.regs = s.dev.regs ∧
         (∀ j, j ≠ c → t.dev.core j = s.dev.core j)) ∧
     (bits x.toNat 0 8 = 0 → ∀ v, (lFn x, v) ∈ (let bad := (decodeCode 15 a).isPoison || (decodeCode 15 b).isPoison
         let cmp := cmpVal (decodeCode 15 a) (decodeCode 15 b)
         let nan := if (decodeCode 15 a).isPoison then poisonNan else canonNan 15
         [(0x08, if bad then poisonNan else b2n (cmp == 1)), (0x09, if bad then poisonNan else b2n (cmp == 0)), (0x0A, if bad then poisonNan else b2n (cmp == 0 || cmp == 1)),
          (0x0B, if (decodeCode 15 a).isNan then nan else a % 2 ^ 35), (0x0C, if (decodeCode 15 a).isNan then nan else if a < 2 ^ 35 then a + 2 ^ 35 else a - 2 ^ 35)]) →
       ∃ t, exec (.kop c x) s = .next t ∧ t.pending = s.pending ∧ t.dev.core c = { (k.setReg (lRd x) (BitVec.ofNat 36 v)) with pc := pc } ∧ t.dev.mem = s.dev.mem) ∧
     ((bits x.toNat 0 8 ≠ 0 ∨ lFn x > 0x0D) → trapped (.kop c x) 1) ∧
     ((bits x.toNat 0 8 ≠ 0 ∨ lFn x ≥ 32) → trapped (.cvt c x) 1) ∧
     (∀ ds : Desc, ds = Desc.of ((k.reg (lRs2 x)).truncate 16) → bits x.toNat 0 8 = 0 → lFn x < 32 →
       ((lFn x = 0 ∨ lFn x > 15 ∨ ds.ok = false ∨ ds.scaled = true ∨ ds.elem = 0) → trapped (.cvt c x) 2) ∧
       (1 ≤ lFn x → lFn x ≤ 15 → ds.ok = true → ds.scaled = false → ds.elem ≠ 0 → ds.round ≠ 2 →
         ∃ t, exec (.cvt c x) s = .next t ∧ t.pending = s.pending ∧ t.dev.mem = s.dev.mem ∧ (∀ j, j ≠ c → t.dev.core j = s.dev.core j) ∧
           (let y := decodeCode (lFn x) (if lFn x = 15 then a else a % 2 ^ fmtBits (lFn x))
            let bad := if lFn x = 15 then decide (a = poisonNan) else k.pois (lRs1 x)
            t.dev.core c = { (k.setReg (lRd x) (if bad = true then (if ds.elem = 15 then BitVec.ofNat 36 poisonNan else word (canonNan ds.elem) true)
              else (if ds.elem = 15 then BitVec.ofNat 36 (encodeCode ds.elem y.exact (ds.mode 0) ds.ovf).1 else word (encodeCode ds.elem y.exact (ds.mode 0) ds.ovf).1 false))) with pc := pc }))) ∧
     ((lRd x ≠ 0 ∨ lFn x > 2 ∨ bits x.toNat 0 8 ≠ 0) → trapped (.crc c x) 1) ∧
     (lRd x = 0 → lFn x ≤ 2 → bits x.toNat 0 8 = 0 → ∃ t, exec (.crc c x) s = .next t ∧ CoreStep s t c { k with
       crcRun := BitVec.ofNat 64 ((le (2 ^ lFn x) (k.data (lRs1 x)).toNat).foldl (crcFeed k.crcSel) k.crcRun.toNat)
       crcPoison := k.crcPoison || k.pois (lRs1 x)
       pc := pc }) ∧
     (let n := bits x.toNat 0 8
      let op := bits x.toNat 17 2
      let src := k.data (lRs1 x)
      let wr := fun (old : W32) => if op = 0 then src else if op = 1 then old ||| src else old &&& ~~~src
      (bits x.toNat 8 9 = 0 → op = 3 → ∀ v, (n, v) ∈ [(0x00, BitVec.ofNat 32 (b2n k.ie + 2 * b2n k.exl + 4 * b2n k.rep + 8 * b2n k.sate + 16 * b2n k.smpe)), (0x01, k.epc), (0x02, k.ecause), (0x03, k.eval), (0x04, k.evalh),
          (0x05, k.evec), (0x06, k.repcnt), (0x09, k.cycleHi), (0x0B, k.ringHi), (0x31, k.crcRun.truncate 32), (0x32, (k.crcRun >>> 32).truncate 32), (0x3B, BitVec.ofNat 32 k.srIndex)] →
        ∃ t, exec (.csr c x) s = .next t ∧ CoreStep s t c { (k.setReg (lRd x) (word v.toNat false)) with pc := pc }) ∧
      (bits x.toNat 8 9 = 0 → n = 0x0A → s.dev.stampHeld (coreNode c) = true → exec (.csr c x) s = .next s) ∧
      (bits x.toNat 8 9 = 0 → op = 3 → n = 0x0A → s.dev.stampHeld (coreNode c) = false → (let at_ := s.dev.dieStamp (coreNode c)
        ∃ t, exec (.csr c x) s = .next t ∧ CoreStep s t c { ({ k with ringHi := (at_ >>> 32).truncate 32 }.setReg (lRd x) (word (at_.toNat % 2 ^ 32) false)) with pc := pc })) ∧
      (bits x.toNat 8 9 = 0 → op < 3 → k.pois (lRs1 x) = false → ∀ old k', (n, old, k') ∈ ([(0x01, k.epc, { k with epc := wr k.epc }), (0x03, k.eval, { k with eval := wr k.eval }),
          (0x04, k.evalh, { k with evalh := wr k.evalh }), (0x05, k.evec, { k with evec := wr k.evec }), (0x06, k.repcnt, { k with repcnt := wr k.repcnt })] : List (Nat × W32 × Core)) →
        ∃ t, exec (.csr c x) s = .next t ∧ CoreStep s t c { (k'.setReg (lRd x) (word old.toNat false)) with pc := pc }) ∧
      (bits x.toNat 8 9 = 0 → op < 3 → (n = 0x07 ∨ n = 0x09 ∨ n = 0x0B ∨ n = 0x33 ∨ n = 0x34) → isSeq c = false → k.exl = false → ∃ t, exec (.csr c x) s = .next t ∧ Trapped s t c k 1 none) ∧
      ((bits x.toNat 8 9 ≠ 0 ∨ (0x2C ≤ n ∧ n < 0x30) ∨ n > 0x40) → trapped (.csr c x) 1))))

/-- SIG adds one to its counter with the stamp, at 65,535 it saturates; SIGR does so at another core, or the
signal is held while its route is drained. WAITC and WAITO block the core with its PC unmoved until the
release, where observing waits pass at their threshold and consuming ones take one count each. TRYC, RDC, ADJC
and CLRC act on the count. ISSUE appends a valid descriptor to its queue, or waits while 16 stand there; its
completion, in its turn on the unit, pops it and signals DONE. Interrupts pend until the core can take them,
and then save its place. DEBUG resumes behind the BRK. A dump counts the records it writes; the detector fires
only when every watched counter has a waiter. Commands for which it says that exec answers a next state with
their effect, under conditions on the state and the operands alone: sigS, syncSig, waitcS, syncWaitc,
syncWaito, syncTryc, syncRdc, syncAdjc, syncClrc, syncSigr, issue, issueOpComplete, syncWaitRelease,
interruptTake, samplingInterrupt, debugResume, stateDump, deadlockFire. (R27, R40, R113, R341, R344, R345,
R346, R347, R349, R351, R354, 11_kerf_cores) -/
def Obligations.CountersIssueAndCoreEvents : Prop :=
  (∀ (s : State) (c : Nat) (w : BitVec 13) (x : BitVec 29) (k : Core), Steady s.dev c k none →
    (let n := lCtr x
     let v := k.ctr n
     let pc := (k.pc + 2) % 2 ^ 19
     let sat := fun (a : Prop) => k.sate = false → a
     (∀ e ∈ ([(Instr.sigS c w, bits w.toNat 7 6, decide (bits w.toNat 0 7 = 0), 1), (Instr.syncSig c x, n, true, 2)] : List (Instr × Nat × Bool × Nat)),
       (let m := e.2.1
        let to_ := (k.pc + e.2.2.2) % 2 ^ 19
        ((m ≥ 48 ∨ e.2.2.1 = false) → isSeq c = false → k.exl = false → ∃ t, exec e.1 s = .next t ∧ Trapped s t c k 1 none) ∧
        (m < 48 → e.2.2.1 = true →
          ((k.ctr m).count < 65535 → s.dev.stampHeld (coreNode c) = true → ∃ t, exec e.1 s = .next t ∧ t.pending = s.pending ∧ t.dev.ring.owed = s.dev.ring.owed ++ [(c, m)] ∧ t.dev.mem = s.dev.mem ∧
            t.dev.core c = { (k.setCtr m { (k.ctr m) with count := (k.ctr m).count + 1 }) with pc := to_ }) ∧
          ((k.ctr m).count < 65535 → s.dev.stampHeld (coreNode c) = false →
            ∃ t, exec e.1 s = .next t ∧ CoreStep s t c { (k.setCtr m { (k.ctr m) with count := (k.ctr m).count + 1, lastSig := s.dev.dieStamp (coreNode c) }) with pc := to_ }) ∧
          ((k.ctr m).count ≥ 65535 → s.dev.stampHeld (coreNode c) = false → sat (∃ t, exec e.1 s = .next t ∧ t.pending = s.pending ∧ t.dev.mem = s.dev.mem ∧
            t.dev.core c = { (k.setCtr m { (k.ctr m) with satHi := true, lastSig := s.dev.dieStamp (coreNode c) }) with pc := to_ }))))) ∧
     (∀ e ∈ ([(Instr.waitcS c w, bits w.toNat 7 6, decide (bits w.toNat 0 7 = 0), false, 1, 1), (Instr.syncWaitc c x, n, true, false, 1, 2),
         (Instr.syncWaito c x, n, true, true, if lRs1 x = 0 then lImm10 x else (k.data (lRs1 x)).toNat % 65536, 2)] : List (Instr × Nat × Bool × Bool × Nat × Nat)),
       (let m := e.2.1
        ((m ≥ 48 ∨ e.2.2.1 = false) → isSeq c = false → k.exl = false → ∃ t, exec e.1 s = .next t ∧ Trapped s t c k 1 none) ∧
        (m < 48 → e.2.2.1 = true → ∃ t, exec e.1 s = .next t ∧
          CoreStep s t c { (k.setCtr m { (k.ctr m) with waits := (k.ctr m).waits ++ [⟨0, e.2.2.2.1, e.2.2.2.2.1⟩] }) with state := .waitSync, waitLen := e.2.2.2.2.2 }))) ∧
     (n ≥ 48 → isSeq c = false → k.exl = false → ∀ i ∈ [Instr.syncTryc c x, Instr.syncRdc c x, Instr.syncAdjc c x, Instr.syncClrc c x], ∃ t, exec i s = .next t ∧ Trapped s t c k 1 none) ∧
     (n < 48 →
       (∃ t, exec (.syncTryc c x) s = .next t ∧ CoreStep s t c { (if v.count ≥ 1 then (k.setCtr n { v with count := v.count - 1 }).setReg (lRd x) 1 else k.setReg (lRd x) 0) with pc := pc }) ∧
       (∃ t, exec (.syncRdc c x) s = .next t ∧ CoreStep s t c { (k.setReg (lRd x) (word v.count false)) with pc := pc }) ∧
       (∃ t, exec (.syncClrc c x) s = .next t ∧ CoreStep s t c { (k.setCtr n { v with count := 0 }) with pc := pc }) ∧
       (∀ y : Int, y = v.count + sext 10 (lImm10 x) →
         (0 ≤ y → y ≤ 65535 → ∃ t, exec (.syncAdjc c x) s = .next t ∧ CoreStep s t c { (k.setCtr n { v with count := y.toNat }) with pc := pc }) ∧
         (y > 65535 → sat (∃ t, exec (.syncAdjc c x) s = .next t ∧ t.pending = s.pending ∧ t.dev.core c = { (k.setCtr n { v with count := 65535, satHi := true }) with pc := pc })) ∧
         (y < 0 → sat (∃ t, exec (.syncAdjc c x) s = .next t ∧ t.pending = s.pending ∧ t.dev.core c = { (k.setCtr n { v with count := 0, satLo := true }) with pc := pc })))) ∧
     (isSeq c = false → ∀ tg, tg = (k.data (lRs1 x)).toNat % 256 →
       (n < 48 → (tg < 0x80 ∨ (0xC0 ≤ tg ∧ tg ≤ 0xC9)) → tg ≠ c →
         ((s.dev.core tg).state = .off → ∃ t, exec (.syncSigr c x) s = .next t ∧ t.pending = s.pending ∧ t.dev.core tg = s.dev.core tg ∧ t.dev.core c = { k with pc := pc }) ∧
         (∀ l, (s.dev.core tg).state ≠ .off → s.dev.heldLink (coreNode c) (coreNode tg) = some l → ∃ t, exec (.syncSigr c x) s = .next t ∧ t.pending = s.pending ∧ t.dev.core c = { k with pc := pc } ∧
           t.dev.links = { s.dev.links with msgs := s.dev.links.msgs ++ [(l, tg, n)] } ∧ (t.dev.core tg).ctr n = (s.dev.core tg).ctr n) ∧
         ((s.dev.core tg).state ≠ .off → s.dev.heldLink (coreNode c) (coreNode tg) = none → ((s.dev.core tg).ctr n).count < 65535 → s.dev.stampHeld (coreNode tg) = false → ∃ t, exec (.syncSigr c x) s = .next t ∧ t.pending = s.pending ∧ t.dev.core c = { k with pc := pc } ∧
           ((t.dev.core tg).ctr n).count = ((s.dev.core tg).ctr n).count + 1 ∧ ((t.dev.core tg).ctr n).lastSig = s.dev.dieStamp (coreNode tg))) ∧
       (n < 48 → 0x80 ≤ tg → (tg < 0xC0 ∨ tg > 0xC9) → k.exl = false → ∃ t, exec (.syncSigr c x) s = .next t ∧ Trapped s t c k 2 none)) ∧
     (isSeq c = false → k.exl = false → ∃ t, exec (.issue c x) s = .next t ∧ Trapped s t c k 1 none) ∧
     (∀ tg a o q, isSeq c = true → lRd x = 0 → tg = bits x.toNat 0 2 → tg ≠ 3 → bits x.toNat 2 17 = 0 → k.pois (lRs1 x) = false → a = (k.data (lRs1 x)).toNat → a + 16 ≤ localWords c →
       o = (⟨(List.range 16).map (fun i => (tblGetD k.mem (a + i) 0).truncate 32), false, s.dev.coreStep c⟩ : QOp) → q = tblGetD k.queues tg [] →
       ((o.ok tg = false ∨ s.dev.unitServes c tg o = false) → ∃ t, exec (.issue c x) s = .next t ∧ t.pending = s.pending ∧ (t.dev.core c).ecause = 2 ∧ (t.dev.core c).state = .halted) ∧
       (o.ok tg = true → s.dev.unitServes c tg o = true →

       (q.length ≥ 16 → exec (.issue c x) s = .next s) ∧
       (q.length < 16 → q ≠ [] → ∃ t, exec (.issue c x) s = .next t ∧ t.pending = s.pending ∧ t.dev.core c = { k with queues := tblPut k.queues tg (q ++ [o]), pc := pc } ∧ (∀ j, j ≠ c → t.dev.core j = s.dev.core j) ∧
         t.dev.mem = s.dev.mem ∧ t.dev.mill.plans = s.dev.mill.plans ∧ t.dev.mill.units = s.dev.mill.units ∧ (tg = 2 → t.dev.mill = s.dev.mill)) ∧
       (q = [] → ∃ t y, exec (.issue c x) s = .next t ∧ t.pending = s.pending ∧ tblGetD (t.dev.core c).queues tg [] = [y] ∧ y.words = o.words ∧ y.step = s.dev.coreStep c ∧ y.released = !o.waitEn ∧ (t.dev.core c).pc = pc ∧
         (o.waitEn = true → ((t.dev.core c).ctr o.waitCtr).waits = (k.ctr o.waitCtr).waits ++ [⟨waiterOf tg, false, 0⟩]) ∧ t.dev.mem = s.dev.mem))))) ∧
  (∀ (s : State) (c tg : Nat), (let q := tblGetD (s.dev.core c).queues tg []
     (q = [] → exec (.issueOpComplete c tg) s = .next s) ∧
     (∀ o rest, q = o :: rest → o.released = false → exec (.issueOpComplete c tg) s = .next s) ∧
     (∀ o rest, q = o :: rest → o.released = true → s.dev.opTurn c tg o = false → exec (.issueOpComplete c tg) s = .next s) ∧
     (∀ o rest, q = o :: rest → s.dev.opHeld c tg o = true → exec (.issueOpComplete c tg) s = .next s) ∧
     (∀ o rest d', q = o :: rest → o.released = true → s.dev.opTurn c tg o = true → s.dev.opHeld c tg o = false → s.dev.opRun c tg o = some d' → d'.core c = s.dev.core c → ∃ t, exec (.issueOpComplete c tg) s = .next t ∧ t.pending = s.pending ∧
       (tblGetD (t.dev.core c).queues tg []).map (·.words) = rest.map (·.words) ∧ t.dev.mem = d'.mem ∧
       (o.doneEn = true → ((s.dev.core c).ctr o.doneCtr).count < 65535 → ((t.dev.core c).ctr o.doneCtr).count = ((s.dev.core c).ctr o.doneCtr).count + 1)) ∧
     (∀ o rest, q = o :: rest → o.released = true → s.dev.opTurn c tg o = true → s.dev.opHeld c tg o = false → s.dev.opRun c tg o = none → isSeq c = true → ∃ t, exec (.issueOpComplete c tg) s = .next t ∧ t.pending = s.pending ∧
       (t.dev.core c).state = .halted ∧ (t.dev.core c).ecause = 6 + 32 ∧ t.dev.mem = s.dev.mem))) ∧
  (∀ (s : State) (c n : Nat) (k : Core), s.dev.core c = k → k.state = .waitSync → k.pre = none → k.satPend = none → (k.ie = true → k.exl = false → k.irqPend = false) →
    (let v := k.ctr n
     let on := fun (u : SyncCtr) => ({ (k.setCtr n u) with state := .running, pc := (k.pc + k.waitLen) % 2 ^ 19 } : Core)
     (∀ y, v.waits = [⟨0, false, y⟩] → v.count ≥ 1 → ∃ t, exec (.syncWaitRelease c n) s = .next t ∧ CoreStep s t c (on { v with count := v.count - 1, waits := [] })) ∧
     (∀ y, v.waits = [⟨0, true, y⟩] → y ≤ v.count → ∃ t, exec (.syncWaitRelease c n) s = .next t ∧ CoreStep s t c (on { v with waits := [] })) ∧
     (∀ z, z.num = 0 → v.waits = [z] → (if z.observing then z.t > v.count else v.count = 0) → ∃ t, exec (.syncWaitRelease c n) s = .next t ∧ CoreStep s t c (k.setCtr n v)) ∧
     (∀ y z, z.num ≠ 0 → z.observing = false → v.waits = [z, ⟨0, false, y⟩] → v.count = 1 → ∃ t, exec (.syncWaitRelease c n) s = .next t ∧ t.pending = s.pending ∧ (t.dev.core c).state = .waitSync ∧
       (t.dev.core c).ctr n = { v with count := 0, waits := [⟨0, false, y⟩] }))) ∧
  (∀ (s : State) (c : Nat) (k : Core), s.dev.core c = k →
    (let e := s.dev.fld F.TLY_SMP_CFG_EVENT c
     let en := s.dev.flag F.TLY_SMP_CFG_EN c
     (k.state = .off → exec (.interruptTake c) s = .next s) ∧ ((k.state = .off ∨ en = false) → exec (.samplingInterrupt c) s = .next s) ∧
     (k.state ≠ .off → en = true → k.smpPend = true → exec (.samplingInterrupt c) s = .next ⟨s.dev.count 0x702, s.pending⟩) ∧
     (k.state = .running → k.pre = none → k.satPend = none → k.ie = true → k.exl = false →
       ((k.smpPend && k.smpe) = false → ∃ t, exec (.interruptTake c) s = .next t ∧ Trapped s t c { k with mboxPend := false } 17 none) ∧
       (en = true → k.smpPend = false → k.smpe = true → ∃ t, exec (.samplingInterrupt c) s = .next t ∧ Trapped s t c { k with smpEvent := e } 16 none)) ∧
     (k.state ≠ .off → k.satPend = none → (k.ie = false ∨ k.exl = true) →
       (∃ t, exec (.interruptTake c) s = .next t ∧ CoreStep s t c { k with mboxPend := true, state := if k.state = .waitIrq then .running else k.state }) ∧
       (en = true → k.smpPend = false → ∃ t, exec (.samplingInterrupt c) s = .next t ∧ CoreStep s t c { k with
         smpPend := true
         smpEvent := e
         state := if k.state = .waitIrq ∧ (k.smpe = true ∨ k.mboxPend = true) then .running else k.state })) ∧
     (∃ t, exec (.debugResume c) s = .next t ∧ t.pending = s.pending ∧ t.dev.flag F.KRF_CORE_CTRL_DEBUG c = false ∧ (∀ j, j ≠ c → t.dev.core j = s.dev.core j) ∧ t.dev.mem = s.dev.mem ∧
       t.dev.core c = (if k.state = .debug then { k with state := .running, pc := (k.pc + 1) % 2 ^ 19 } else k)))) ∧
  (∀ (s : State) (port : Nat) (val : W32), ∃ t, exec (.stateDump port val) s = .next t ∧ t.pending = s.pending ∧ t.dev.fld F.KRF_DUMP_CTRL_PORT 0 = bits val.toNat 2 2 ∧
    t.dev.flag F.KRF_DUMP_CTRL_ALL 0 = val.getLsbD 4 ∧ t.dev.mem = s.dev.mem ∧ t.dev.kerf.cores = s.dev.kerf.cores ∧
    (val.getLsbD 0 = false → t.dev.kerf = s.dev.kerf ∧ t.dev.out = s.dev.out) ∧
    (∀ c, val.getLsbD 0 = true → val.getLsbD 4 = false → (let was := tblGetD s.dev.kerf.dumpSeq c 0
      tblGetD t.dev.kerf.dumpSeq c 0 = (if c = s.dev.fld F.KRF_CORE_SEL_CORE port ∧ c ∈ coreIds then (was + 1) % 2 ^ 32 else was)))) ∧
  (∀ s : State, (let held := coreIds.filter (fun c => (List.range 48).any (s.dev.watched c))
     let fires := s.dev.flag F.KRF_DL_CTRL_EN 0 = true ∧ held ≠ [] ∧ (∀ c ∈ held, ∀ n < 48, s.dev.watched c n = true → ((s.dev.core c).ctr n).waits ≠ [])
     (¬ fires → exec .deadlockFire s = .next s) ∧
     (fires → ∃ t, exec .deadlockFire s = .next t ∧ t.pending = s.pending ∧ t.dev.flag F.KRF_DL_STATUS_FIRED 0 = true ∧ t.dev.fld F.KRF_DL_STATUS_CORE 0 = held.headD 0 % 256 ∧
       (t.dev.fld F.FLT_STATUS_V 0).testBit 44 = true ∧ t.dev.kerf.cores = s.dev.kerf.cores ∧ t.dev.mem = s.dev.mem)))

/-- NEGOTIATE agrees each pair whose version the device accepts and answers OK only if all are; IDENTIFY gives the
state of the lead. IMAGE_LOAD stages an image that passes, IMAGE_ACTIVATE starts or defers it, FLASH_COMMIT
starts a write of the copy not in use, CORE_RESTART restarts a firmware core, POWER_CAP sets the cap within
its range. A tail write fetches what was posted in order; EN from 0 to 1 starts the rings at 0; GO takes the
mailbox entry once. A counted renewal marks both cells; a claim makes a follower that is up lead with EPOCH +
1; an unresolved conflict is fatal. Commands for which it says that exec answers a next state with their
effect, under conditions on the state and the operands alone: negotiate, identify, powerCap, imageLoad,
imageActivate, flashCommit, coreRestart, sqTailWrite, cqHeadWrite, sqEnableWrite, mboxGo, leaseRenew,
leaseLoss, leaseClaim, leaseConflictTimeout. (R18, R362, R364, R368, R369, R370, R372, R373, R376, R379, R383,
12_firmware_commands) -/
def Obligations.FirmwareCommandsRingsAndLease : Prop :=
  (∀ (s : State) (c : Cmd), Served s.dev c 0x0001 [.m, .s, .b] →
    (let used := (pairsOf c).filter (fun p => p != (0, 0))
     let ok := fun (p : Nat × Nat) => (p.1 = 1 ∧ p.2 = 0x0700) ∨ (2 ≤ p.1 ∧ p.1 ≤ 8 ∧ p.2 = 0x0100)
     ∃ d' res st, exec (.negotiate c) s = .next ⟨replied d' c 0x0001 st 0 res, s.pending⟩ ∧ ((∀ p ∈ used, ok p) → st = stOk) ∧ ((∃ p ∈ used, ¬ ok p) → st = stVersion) ∧ res.length = 26 ∧
       (∀ p ∈ used, ok p → tblGet d'.scaler.agreed (c.iss.agreeKey * 16 + p.1) = some (BitVec.ofNat 16 p.2)) ∧
       (∀ n, (∀ p ∈ used, ok p → n ≠ c.iss.agreeKey * 16 + p.1) → tblGet d'.scaler.agreed n = tblGet s.dev.scaler.agreed n) ∧ d'.scaler.lease = s.dev.scaler.lease ∧ d'.mem = s.dev.mem)) ∧
  (∀ (s : State) (c : Cmd), Served s.dev c 0x0002 [.m, .s, .b] → zeroFrom c 0 = true → exec (.identify c) s = .next ⟨replied (s.dev.takeEntry c 0x0002) c 0x0002 stOk 0
    (le 2 0x0700 ++ le 1 0xB0 ++ le 2 s.dev.node ++ le 1 (s.dev.scaler.lease.lead.num + 2 * s.dev.scaler.boot.code) ++ zeros 2 ++ le 4 s.dev.scaler.lease.epoch.toNat ++
      le 2 (s.dev.fld F.SCL_BOOT_ERR_STATUS 0)), s.pending⟩) ∧
  (∀ (s : State) (c : Cmd), Served s.dev c 0x0602 [.m, .b] → (let d := s.dev.takeEntry c 0x0602
    ((c.w 0 < 250 ∨ c.w 0 > s.dev.fld F.PWR_LIMIT_CEILING 0 ∨ zeroFrom c 1 = false) → exec (.powerCap c) s = .next ⟨replied d c 0x0602 stRefused rsBadField [], s.pending⟩) ∧
    (250 ≤ c.w 0 → c.w 0 ≤ s.dev.fld F.PWR_LIMIT_CEILING 0 → zeroFrom c 1 = true →
      exec (.powerCap c) s = .next ⟨replied (d.setFld F.PWR_CTRL_CAP 0 (c.w 0)) c 0x0602 stOk 0 [], s.pending⟩))) ∧
  (∀ (s : State) (c : Cmd) (img : Option FwImage), Served s.dev c 0x0701 [.m, .b] → (let d := s.dev.takeEntry c 0x0701
    ((zeroFrom c 2 = false ∨ img = none) → exec (.imageLoad c img) s = .next ⟨replied d c 0x0701 stRefused rsBadField [], s.pending⟩) ∧
    (∀ g, zeroFrom c 2 = true → img = some g →
      (∀ st, s.dev.checkImage g = some st → exec (.imageLoad c img) s = .next ⟨replied d c 0x0701 st (if st = stRefused then rsBadField else 0) [], s.pending⟩) ∧
      (s.dev.checkImage g = none → ∃ d', exec (.imageLoad c img) s = .next ⟨replied d' c 0x0701 stOk 0 [], s.pending⟩ ∧ tblGet d'.scaler.staged g.kind = some g ∧
        (∀ n, n ≠ g.kind → tblGet d'.scaler.staged n = tblGet s.dev.scaler.staged n) ∧ (g.kind ≤ 3 → tblGetD d'.bark.meas (8 + g.kind) 0 = g.body.digest) ∧ d'.scaler.running = s.dev.scaler.running)))) ∧
  (∀ (s : State) (c : Cmd), Served s.dev c 0x0702 [.m, .b] → 1 ≤ c.w 0 → c.w 0 ≤ 3 → zeroFrom c 1 = true → (let d := s.dev.takeEntry c 0x0702
    (tblGet s.dev.scaler.staged (c.w 0) = none → exec (.imageActivate c) s = .next ⟨replied d c 0x0702 stRefused rsWrongState [], s.pending⟩) ∧
    (∀ g, tblGet s.dev.scaler.staged (c.w 0) = some g →
      (((∃ a ∈ s.dev.scaler.activations, a.kind = c.w 0) ∨ (∃ k ∈ coresOf (c.w 0), (s.dev.core k).state = .restarting)) → exec (.imageActivate c) s = .next ⟨replied d c 0x0702 stBusy 0 [], s.pending⟩) ∧
      ((∀ a ∈ s.dev.scaler.activations, a.kind ≠ c.w 0) → (∀ k ∈ coresOf (c.w 0), (s.dev.core k).state ≠ .restarting) →
        (s.dev.emergency = true → exec (.imageActivate c) s = .next ⟨replied { d with scaler := { d.scaler with
          activations := d.scaler.activations ++ [⟨c.w 0, g.body, some (s.dev.ownerOf c 0x0702), [], true⟩] } } c 0x0702 stDeferred 0 [], s.pending⟩) ∧
        (s.dev.emergency = false → c.w 0 ≠ 3 → (∀ k ∈ coresOf (c.w 0), (s.dev.fwCore k).image = none ∧ (s.dev.fwCore k).stopped = false) →
          ∃ d', exec (.imageActivate c) s = .next ⟨replied d' c 0x0702 stOk 0 [], s.pending⟩ ∧ tblGet d'.scaler.running (c.w 0) = some g.body ∧ d'.scaler.dirGen = s.dev.scaler.dirGen + 1 ∧
            (∀ k ∈ coresOf (c.w 0), (d'.fwCore k).image = some g.body ∧ (d'.core k).state = .running ∧ (d'.core k).pc = g.body.entry % 2 ^ 19) ∧
            (∀ k, k ∉ coresOf (c.w 0) → d'.core k = s.dev.core k) ∧ d'.scaler.lease = s.dev.scaler.lease))))) ∧
  (∀ (s : State) (c : Cmd), Served s.dev c 0x0703 [.m, .b] → (c.w 0 = 3 ∨ c.w 0 = 4) → zeroFrom c 1 = true → (let d := s.dev.takeEntry c 0x0703
    ((tblGet s.dev.scaler.staged (c.w 0) = none ∨ s.dev.scaler.inUse = none) → exec (.flashCommit c) s = .next ⟨replied d c 0x0703 stRefused rsWrongState [], s.pending⟩) ∧
    (∀ g b, tblGet s.dev.scaler.staged (c.w 0) = some g → s.dev.scaler.inUse = some b →
      (s.dev.scaler.flash.isSome = true → exec (.flashCommit c) s = .next ⟨replied d c 0x0703 stBusy 0 [], s.pending⟩) ∧
      (s.dev.scaler.flash = none → exec (.flashCommit c) s = .next ⟨replied
        { d with scaler := { d.scaler with flash := some ⟨g.cfg, !b, some (s.dev.ownerOf c 0x0703), false⟩ } } c 0x0703 stDeferred 0 [], s.pending⟩)))) ∧
  (∀ (s : State) (c : Cmd), Served s.dev c 0x0704 [.m] → zeroFrom c 1 = true → (let d := s.dev.takeEntry c 0x0704
    (isSeq (c.w 0) = true → exec (.coreRestart c) s = .next ⟨replied d c 0x0704 stRefused rsNotPermitted [], s.pending⟩) ∧
    ((c.w 0 ≥ 256 ∨ (coreKind (c.w 0) = 0 ∧ isSeq (c.w 0) = false)) → exec (.coreRestart c) s = .next ⟨replied d c 0x0704 stRefused rsBadField [], s.pending⟩) ∧
    (c.w 0 < 256 → coreKind (c.w 0) ≠ 0 → coreKind (c.w 0) ≠ 3 → (s.dev.fwCore (c.w 0)).image = none → exec (.coreRestart c) s = .next ⟨replied d c 0x0704 stRefused rsWrongState [], s.pending⟩) ∧
    (c.w 0 < 256 → coreKind (c.w 0) ≠ 0 → (coreKind (c.w 0) = 3 ∨ (s.dev.fwCore (c.w 0)).image ≠ none) → ∃ d', exec (.coreRestart c) s = .next ⟨replied d' c 0x0704 stOk 0 [], s.pending⟩ ∧
      d'.core (c.w 0) = { (s.dev.core (c.w 0)) with state := .restarting, pre := none } ∧ d'.fwCore (c.w 0) = { (s.dev.fwCore (c.w 0)) with crashes := [], stopped := false } ∧
      (∀ k, k ≠ c.w 0 → d'.core k = s.dev.core k)))) ∧
  (∀ (s : State) (p : Nat) (val : W32) (fs : List Fetch),
    (s.dev.viaIssuer (.bar0 p) = none → exec (.sqTailWrite (.bar0 p) val fs) s = .next s ∧ exec (.cqHeadWrite (.bar0 p) val) s = .next s ∧ exec (.sqEnableWrite (.bar0 p) val) s = .next s ∧ exec (.mboxGo p) s = .next s) ∧
    (s.dev.viaIssuer (.bar0 p) = some (.pf0 p) → quietRing (s.dev.cmdRing (.pf0 p)) = true →
      (let r := s.dev.cmdRing (.pf0 p)
       let n := (val.toNat % 65536 + 65536 - r.fetchPos) % 65536
       ((s.dev.flag F.SCL_SQ_CTRL_EN p = false ∨ n > s.dev.ringDepth (.pf0 p) - 1) →
         exec (.sqTailWrite (.bar0 p) val fs) s = .next ⟨s.dev.setFld F.SCL_SQ_TAIL_TAIL p (val.toNat % 65536), s.pending⟩) ∧
       (s.dev.flag F.SCL_SQ_CTRL_EN p = true → n ≤ s.dev.ringDepth (.pf0 p) - 1 → r.fetchPos < 65536 → fs.length = n → (∀ f ∈ fs, ∃ op tag fl, f = .entry op tag fl ∧ opcodes.contains op.toNat = true) →
         ∃ t, exec (.sqTailWrite (.bar0 p) val fs) s = .next t ∧ t.pending = s.pending ∧ (t.dev.cmdRing (.pf0 p)).fetchPos = (r.fetchPos + n) % 65536 ∧
           (t.dev.cmdRing (.pf0 p)).waiting = r.waiting ++ (List.range n).map (fun k => ⟨(r.fetchPos + k) % 65536 % s.dev.ringDepth (.pf0 p), fs.getD k .failed⟩) ∧ t.dev.mem = s.dev.mem) ∧
       (r.held = [] → exec (.cqHeadWrite (.bar0 p) val) s = .next ⟨s.dev.setFld F.SCL_CQ_HEAD_HEAD p (val.toNat % 65536), s.pending⟩) ∧
       (∃ t, exec (.sqEnableWrite (.bar0 p) val) s = .next t ∧ t.pending = s.pending ∧ t.dev.flag F.SCL_SQ_CTRL_EN p = val.getLsbD 0 ∧ t.dev.fld F.SCL_SQ_CTRL_VECTOR p = bits val.toNat 16 11 ∧
         (s.dev.flag F.SCL_SQ_CTRL_EN p = false → t.dev.fld F.SCL_SQ_CTRL_LOG2 p = bits val.toNat 1 4) ∧
         (s.dev.flag F.SCL_SQ_CTRL_EN p = true → t.dev.fld F.SCL_SQ_CTRL_LOG2 p = s.dev.fld F.SCL_SQ_CTRL_LOG2 p) ∧
         (s.dev.flag F.SCL_SQ_CTRL_EN p ≠ val.getLsbD 0 → t.dev.cmdRing (.pf0 p) = { CmdRing.init with gen := r.gen + 1 }) ∧
         (s.dev.flag F.SCL_SQ_CTRL_EN p = val.getLsbD 0 → t.dev.cmdRing (.pf0 p) = r) ∧ t.dev.mem = s.dev.mem))) ∧
    (s.dev.viaIssuer (.bar0 p) = some (.pf0 p) →
      (s.dev.flag F.SCL_MBOX_CTRL_GO p = true → exec (.mboxGo p) s = .next s) ∧
      (s.dev.flag F.SCL_MBOX_CTRL_GO p = false → opcodes.contains (fieldAt (s.dev.mboxBytes p) 2 2) = true → ∃ t, exec (.mboxGo p) s = .next t ∧ t.pending = s.pending ∧
        t.dev.flag F.SCL_MBOX_CTRL_GO p = true ∧ (t.dev.cmdRing (.mbox p)).waiting = [⟨0, .entry (BitVec.ofNat 16 (fieldAt (s.dev.mboxBytes p) 2 2)) (BitVec.ofNat 16 (fieldAt (s.dev.mboxBytes p) 4 2))
          (BitVec.ofNat 16 (fieldAt (s.dev.mboxBytes p) 6 2))⟩] ∧ t.dev.out = s.dev.out ∧ t.dev.mem = s.dev.mem))) ∧
  (∀ (s : State) (die : Die) (acks : List Die) (seen : Bool),
    (let l := s.dev.scaler.lease
     (die ∉ l.acting → exec (.leaseRenew die acks) s = .next s) ∧
     (die = l.lead → die ∈ l.acting → l.conflict = false → Die.west ∈ acks → Die.east ∈ acks → ∃ t, exec (.leaseRenew die acks) s = .next t ∧ t.pending = s.pending ∧ t.dev.scaler.lease.counted = s.dev.clk ∧
       tblGet t.dev.scaler.lease.cells 0 = some (l.epoch, die, s.dev.clk) ∧ tblGet t.dev.scaler.lease.cells 1 = some (l.epoch, die, s.dev.clk) ∧ t.dev.scaler.lease.epoch = l.epoch ∧
       t.dev.scaler.lease.acting = l.acting ∧ t.dev = { s.dev with scaler := { s.dev.scaler with lease := t.dev.scaler.lease } }) ∧
     (l.conflict = true → die ∈ l.acting → Die.west ∈ acks → Die.east ∈ acks → ∃ t, exec (.leaseRenew die acks) s = .next t ∧ t.dev.scaler.lease.acting = [l.lead] ∧ t.dev.scaler.lease.conflict = false) ∧
     exec (.leaseLoss die) s = .next ⟨{ s.dev with scaler := { s.dev.scaler with lease := { l with acting := l.acting.filter (fun x => x != die), conflict := false } } }, s.pending⟩ ∧
     ((die ∈ l.acting ∨ s.dev.scalerUp die = false ∨ s.dev.scaler.boot = .hold ∨ s.dev.scaler.boot.code < 5) → exec (.leaseClaim die seen) s = .next s) ∧
     (die ∉ l.acting → l.claimWins die = true → s.dev.scalerUp die = true → (s.dev.scaler.boot = .hostWait ∨ s.dev.scaler.boot = .running) → s.dev.scaler.journal = [] → (∀ i, quietRing (s.dev.cmdRing i) = true) →
       ∃ t, exec (.leaseClaim die seen) s = .next t ∧ t.pending = s.pending ∧ t.dev.scaler.lease.lead = die ∧ (∀ e, tblGet l.cells die.num = some e → t.dev.scaler.lease.epoch = e.1 + 1) ∧
         t.dev.scaler.lease.acting = (if seen = true then [die] else die :: l.acting) ∧ t.dev.scaler.lease.conflict = decide (seen = false ∧ l.acting ≠ []) ∧
         t.dev = { s.dev with scaler := { s.dev.scaler with lease := t.dev.scaler.lease } }) ∧
     (l.conflict = false → s.dev.cord.phase = .idle → exec .leaseConflictTimeout s = .next s) ∧
     (l.conflict = true → s.dev.cord.phase = .idle → ∃ t, exec .leaseConflictTimeout s = .next t ∧ t.pending = s.pending ∧ t.dev.flag F.FLT_SUMMARY_FATAL 0 = true ∧
       (t.dev.fld F.FLT_STATUS_V 0).testBit l.lead.num = true ∧ t.dev.scaler.lease = l)))

/-- A stage runs only in its turn and with power, clocks and pins released. The SRAM test goes on with at least 64
good banks per I/O die; the image with the higher SEQ is tried first, then the other, then BOOT_HOLD; APPLY
sets what the image sets, elects Scaler W and ends in HOST_WAIT. A watchdog restarts its core, and at the
third crash within 60 s stops it; a restarting core resumes its saved context or its image. A save point hands
a core over; in an emergency an activation can be given up. The update agent walks its states, and answers a
command out of turn with its state. A flash write ends with its copy set. Commands for which it says that exec
answers a next state with their effect, under conditions on the state and the operands alone: sramTestStage,
imageReadStage, verifyStage, applyStage, watchdogExpiry, coreResume, handoffSavePoint, activationAbandon,
pldmGetStatus, pldmRequestUpdate, pldmPassComponentTable, pldmUpdateComponent, pldmActivateFirmware,
pldmFirmwareData, flashWriteDone. (R176, R177, R359, R360, R361, R362, R365, R374, R378, R379, R380, R381) -/
def Obligations.BootStagesCoresAndUpdates : Prop :=
  (∀ (s : State) (res : List (Nat × Nat)), s.dev.cord.phase = .idle →
    (let good := fun m => (res.getD m (if m < 2 then 64 else 384, 0)).1 - (s.dev.mem.retire.filter (fun e => e.1 = m)).length
     ((s.dev.scaler.boot ≠ .reset ∨ s.dev.bootReady = false) → exec (.sramTestStage res) s = .next s) ∧
     (s.dev.scaler.boot = .reset → s.dev.bootReady = true → ∃ t, exec (.sramTestStage res) s = .next t ∧ t.pending = s.pending ∧ t.dev.mem.retire = [] ∧
       (∀ m, m < 6 → t.dev.fld (F.MEM_SRAM_AVAIL_BANKS_OK m) 0 = min (if m < 2 then 64 else 384) (good m) % 2 ^ (F.MEM_SRAM_AVAIL_BANKS_OK m).w) ∧
       (64 ≤ good 0 → 64 ≤ good 1 → t.dev.scaler.boot = .imageRead) ∧ ((good 0 < 64 ∨ good 1 < 64) → t.dev.scaler.boot = .sramTest ∧ t.dev.flag F.FLT_SUMMARY_FATAL 0 = true)))) ∧
  (∀ (s : State) (flash : Option (FlashCopy × FlashCopy)),
    (let a := (flash.map (·.1)).getD s.dev.scaler.flashA
     let b := (flash.map (·.2)).getD s.dev.scaler.flashB
     ((s.dev.scaler.boot ≠ .imageRead ∨ s.dev.bootReady = false) → exec (.imageReadStage flash) s = .next s) ∧
     (s.dev.scaler.boot = .imageRead → s.dev.bootReady = true → ∃ t, exec (.imageReadStage flash) s = .next t ∧ t.pending = s.pending ∧ t.dev.scaler.flashA = a ∧ t.dev.scaler.flashB = b ∧
       t.dev.flag F.SCL_BOOT_ERR_A_FAIL 0 = decide (a = none) ∧ t.dev.flag F.SCL_BOOT_ERR_B_FAIL 0 = decide (b = none) ∧ t.dev.scaler.inUse = none ∧ t.dev.mem = s.dev.mem ∧
       (a = none → b = none → t.dev.scaler.boot = .hold ∧ t.dev.fld F.SCL_BOOT_ERR_STATUS 0 = stRefused ∧ t.dev.scaler.lease.acting = [.west]) ∧
       (∀ x, a = some x → b = none → t.dev.scaler.boot = .verify ∧ t.dev.scaler.tryB = some false) ∧ (∀ y, a = none → b = some y → t.dev.scaler.boot = .verify ∧ t.dev.scaler.tryB = some true) ∧
       (∀ x y, a = some x → b = some y → t.dev.scaler.boot = .verify ∧ t.dev.scaler.tryB = some (decide (y.seq > x.seq)))))) ∧
  (∀ s : State,
    ((s.dev.scaler.boot ≠ .verify ∨ s.dev.bootReady = false ∨ s.dev.scaler.tryB = none) → exec .verifyStage s = .next s) ∧
    (∀ x g, s.dev.scaler.boot = .verify → s.dev.bootReady = true → s.dev.scaler.tryB = some x → (if x then s.dev.scaler.flashB else s.dev.scaler.flashA) = some g →
      ∃ t, exec .verifyStage s = .next t ∧ t.pending = s.pending ∧ t.dev.mem = s.dev.mem ∧
        (checkCopy g = none → t.dev.scaler.boot = .apply ∧ t.dev.scaler.accepted = some g ∧ t.dev.scaler.inUse = some x ∧ t.dev.flag F.SCL_BOOT_ERR_COPY 0 = x) ∧
        (∀ st sec, checkCopy g = some (st, sec) → t.dev.flag (if x then F.SCL_BOOT_ERR_B_FAIL else F.SCL_BOOT_ERR_A_FAIL) 0 = true ∧
          (s.dev.flag (if x then F.SCL_BOOT_ERR_A_FAIL else F.SCL_BOOT_ERR_B_FAIL) 0 = true → t.dev.scaler.boot = .hold ∧ t.dev.scaler.inUse = none) ∧
          (s.dev.flag (if x then F.SCL_BOOT_ERR_A_FAIL else F.SCL_BOOT_ERR_B_FAIL) 0 = false → t.dev.scaler.boot = .verify ∧ t.dev.scaler.tryB = some (!x))))) ∧
  (∀ (s : State) (full : List (Nat × Nat)) (bad : List Nat) (idm : Bool),
    ((s.dev.scaler.boot ≠ .apply ∨ s.dev.bootReady = false ∨ s.dev.scaler.accepted = none) → exec (.applyStage full bad idm) s = .next s) ∧
    (∀ g, s.dev.scaler.boot = .apply → s.dev.bootReady = true → s.dev.scaler.accepted = some g → g.fields = [] → g.slices = [] → ∃ t, exec (.applyStage full bad idm) s = .next t ∧ t.pending = s.pending ∧
      t.dev.scaler.boot = .hostWait ∧ t.dev.scaler.lease.lead = .west ∧ t.dev.scaler.lease.acting = [.west] ∧ t.dev.pwr.cold = false ∧ t.dev.scaler.dirGen = s.dev.scaler.dirGen + 1 ∧ t.dev.node = g.node.toNat ∧
      t.dev.fld F.MEM_CAP_DATA_GIB 0 = (if g.sparing = true then 464 else 496) ∧ t.dev.flag F.MEM_STATUS_ZERO_BUSY 0 = true ∧ tblGetD t.dev.bark.meas 2 0 = g.digest ∧ t.dev.lanes.group = g.groups ∧
      (t.dev.core (scalerCore .west)).state = .running ∧ (t.dev.core (scalerCore .east)).state = .running ∧
      (s.dev.pwr.cold = true → t.dev.ring.acc = 0 ∧ t.dev.flag F.BRK_STATUS_ID_MATCH 0 = idm ∧ t.dev.bark.ident = some (identityOf Config.puf)) ∧ (s.dev.pwr.cold = false → t.dev.ring = s.dev.ring ∧ t.dev.bark.ident = s.dev.bark.ident ∧ t.dev.flag F.PWR_RESET_CAUSE_WARM 0 = true))) ∧
  (∀ (s : State) (c : Nat), s.dev.cord.phase = .idle →
    (let f := s.dev.fwCore c
     let recent := f.crashes.filter (fun t => decide (s.dev.clk - t < sTicks 60))
     ((coreKind c = 0 ∨ f.stopped = true ∨ (s.dev.core c).state = .off ∨ (s.dev.core c).state = .restarting) → exec (.watchdogExpiry c) s = .next s) ∧
     (coreKind c ≠ 0 → f.stopped = false → (s.dev.core c).state ≠ .off → (s.dev.core c).state ≠ .restarting → ∃ t, exec (.watchdogExpiry c) s = .next t ∧ t.pending = s.pending ∧
       (t.dev.fwCore c).crashes = s.dev.clk :: recent ∧ t.dev.mem = s.dev.mem ∧ (∀ k, k ≠ c → t.dev.core k = s.dev.core k) ∧
       (recent.length < 2 → (t.dev.core c).state = .restarting ∧ (t.dev.fwCore c).stopped = false ∧ t.dev.flt = s.dev.flt) ∧
       (recent.length ≥ 2 → (t.dev.core c).state = .crashed ∧ (t.dev.fwCore c).stopped = true ∧ (t.dev.fld F.FLT_STATUS_V 0).testBit (coreSrc c) = true)))) ∧
  (∀ (s : State) (c : Nat) (saved : Option Core),
    ((coreKind c = 0 ∨ (s.dev.core c).state ≠ .restarting) → exec (.coreResume c saved) s = .next s) ∧
    (coreKind c ≠ 0 → (s.dev.core c).state = .restarting → ∃ t, exec (.coreResume c saved) s = .next t ∧ t.pending = s.pending ∧ (∀ k, k ≠ c → t.dev.core k = s.dev.core k) ∧
      (t.dev.core c).state = .running ∧ (t.dev.core c).exc = (s.dev.core c).exc ∧ (∀ k, saved = some k → t.dev.core c = { k with state := .running, ctrs := (s.dev.core c).liveCtrs, smpPend := k.smpPend || (s.dev.core c).smpPend, mboxPend := k.mboxPend || (s.dev.core c).mboxPend, exc := (s.dev.core c).exc }) ∧
      (∀ g, saved = none → (s.dev.fwCore c).image = some g → (t.dev.core c).pc = g.entry % 2 ^ 19 ∧ (t.dev.core c).mem = imageWords g.code))) ∧
  (∀ (s : State) (c kind : Nat) (ok : Bool) (a : Activation) (rest : List Nat),
    ((∀ b ∈ s.dev.scaler.activations, b.deferred = true ∨ b.todo.head? ≠ some c) → exec (.handoffSavePoint c ok) s = .next s) ∧
    ((∀ b ∈ s.dev.scaler.activations, b.deferred = false ∨ b.kind ≠ kind) → exec (.activationAbandon kind) s = .next s) ∧
    (s.dev.emergency = false → exec (.activationAbandon kind) s = .next s) ∧
    (s.dev.scaler.activations = [a] → a.deferred = false → a.todo = c :: rest →
      (let old := ((s.dev.fwCore c).image.map (·.layout.toNat)).getD Config.romLayout.toNat
       (ok = true → versionOk a.image.layout.toNat old = true → rest ≠ [] → a.kind ≠ 3 → ∃ t, exec (.handoffSavePoint c ok) s = .next t ∧ t.pending = s.pending ∧
         (t.dev.fwCore c).image = some a.image ∧ (t.dev.core c).state = .running ∧ t.dev.scaler.activations = [{ a with todo := rest }] ∧ t.dev.scaler.lease = s.dev.scaler.lease) ∧
       (ok = true → versionOk a.image.layout.toNat old = true → rest = [] → ∃ t, exec (.handoffSavePoint c ok) s = .next t ∧ t.pending = s.pending ∧
         (t.dev.fwCore c).image = some a.image ∧ t.dev.scaler.activations = [] ∧ tblGet t.dev.scaler.running a.kind = some a.image ∧ t.dev.scaler.dirGen = s.dev.scaler.dirGen + 1) ∧
       ((ok = false ∨ versionOk a.image.layout.toNat old = false) → ∃ t, exec (.handoffSavePoint c ok) s = .next t ∧ t.pending = s.pending ∧ t.dev.scaler.activations = [] ∧
         t.dev.core c = s.dev.core c ∧ t.dev.fwCore c = s.dev.fwCore c ∧ tblGet t.dev.scaler.running a.kind = tblGet s.dev.scaler.running a.kind))) ∧
    (s.dev.scaler.activations = [a] → a.deferred = true → a.kind = kind → s.dev.emergency = true → ∃ t, exec (.activationAbandon kind) s = .next t ∧ t.pending = s.pending ∧ t.dev.scaler.activations = [] ∧
      t.dev.kerf = s.dev.kerf)) ∧
  (∀ (s : State) (comps : List Nat) (n : Nat) (img : FwImage), s.dev.scaler.boot.code ≥ 5 →
    (let p := s.dev.scaler.pldm
     let say := fun (q : Pldm) (o : List Out) => (Host.Outcome.next ({ s with dev := { s.dev with
       out := o ++ s.dev.out
       scaler := { s.dev.scaler with pldm := q } } } : State) : Host.Outcome State Fault Refusal)
     let ok := fun m => m == 4 || (1 ≤ m && m ≤ 3 && s.dev.scaler.boot != .hold)
     exec .pldmGetStatus s = say p [.pldm 0x1B 0 p.state.code] ∧
     (p.state = .idle → exec .pldmRequestUpdate s = say { Pldm.init with state := .learn } [.pldm 0x10 0 1]) ∧ (p.state ≠ .idle → exec .pldmRequestUpdate s = say p [.pldm 0x10 0x81 p.state.code]) ∧
     (p.state = .learn → exec (.pldmPassComponentTable comps) s = say { p with state := .readyXfer, table := comps.filter ok } [.pldm 0x13 (if comps.all ok = true then 0 else 1) 2]) ∧
     (p.state ≠ .learn → exec (.pldmPassComponentTable comps) s = say p [.pldm 0x13 0x84 p.state.code]) ∧
     (p.state ≠ .readyXfer → exec (.pldmUpdateComponent n) s = say p [.pldm 0x14 0x84 p.state.code] ∧ exec .pldmActivateFirmware s = say p [.pldm 0x1A 0x84 p.state.code]) ∧
     (p.state = .readyXfer → n ∉ p.table → exec (.pldmUpdateComponent n) s = say p [.pldm 0x14 1 2]) ∧
     (p.state = .readyXfer → n ∈ p.table → exec (.pldmUpdateComponent n) s = say { p with state := .download, component := n } [.pldm 0x15 0 3, .pldm 0x14 0 3]) ∧
     (p.state ≠ .download → exec (.pldmFirmwareData img) s = .next s) ∧
     (p.state = .download → (img.kind ≠ p.component ∨ s.dev.checkImage img ≠ none) → exec (.pldmFirmwareData img) s = say { p with state := .readyXfer } [.pldm 0x17 1 2, .pldm 0x16 0 4]) ∧
     (p.state = .download → img.kind = p.component → p.component ≠ 4 → s.dev.checkImage img = none → ∃ t, exec (.pldmFirmwareData img) s = .next t ∧ t.pending = s.pending ∧
       tblGet t.dev.scaler.staged img.kind = some img ∧ t.dev.scaler.pldm.state = .readyXfer ∧ img.kind ∈ t.dev.scaler.pldm.applied) ∧
     (p.state = .download → img.kind = 4 → p.component = 4 → s.dev.checkImage img = none → img.cfg.isSome = true → s.dev.scaler.flash = none → ∃ t j, exec (.pldmFirmwareData img) s = .next t ∧
       t.pending = s.pending ∧ t.dev.scaler.pldm.state = .apply ∧ t.dev.scaler.flash = some j ∧ j.image = img.cfg ∧ j.both = decide (s.dev.scaler.boot = .hold)) ∧
     (p.state = .readyXfer → p.applied = [] → exec .pldmActivateFirmware s = say p [.pldm 0x1A 0x84 2]) ∧
     (p.state = .readyXfer → 4 ∈ p.applied → ∃ t, exec .pldmActivateFirmware s = .next t ∧ t.pending = s.pending ∧ t.dev.scaler.boot = .reset ∧ t.dev.pwr.cold = true ∧ t.dev.flag F.PWR_RESET_CAUSE_MRST 0 = true ∧
       t.dev.scaler.flashA = s.dev.scaler.flashA ∧ t.dev.scaler.flashB = s.dev.scaler.flashB))) ∧
  (∀ (s : State) (ok : Bool) (left : FlashCopy),
    (s.dev.scaler.flash = none → exec (.flashWriteDone ok left) s = .next s) ∧
    (∀ j, s.dev.scaler.flash = some j →
      (let x := if ok then j.image else left
       ∃ t, exec (.flashWriteDone ok left) s = .next t ∧ t.pending = s.pending ∧ t.dev.scaler.flashB = (if j.toB then x else s.dev.scaler.flashB) ∧
         t.dev.scaler.flashA = (if j.toB then s.dev.scaler.flashA else x) ∧ t.dev.scaler.flash = (if ok = true ∧ j.both = true ∧ j.toB = false then some { j with toB := true } else none) ∧
         Out.flashWrite j.toB ∈ t.dev.out ∧ t.dev.kerf = s.dev.kerf)))

/-- KEY_SLOT_ALLOC gives the lowest FREE slot with a fresh challenge; KEY_SLOT_LOAD consumes the challenge
whatever its result, and loads the key only from a blob that passes; KEY_SLOT_ERASE erases and frees a slot,
or keeps it with a new challenge, unless something refers to it; KEY_SLOT_QUERY reports it. SESSION_OPEN takes
two slots and sends the first request; SESSION_CLOSE sends END_SESSION and frees both. A cipher request on a
slot that does not allow it is REFUSED; otherwise the operation writes its output, with the next counter value
for a seal, and two disagreements of the pipelines end in CIPHER_FAULT. A failed entropy source stops key
generation. A re-seal that ends erases the old generation. A quota write keeps the sum within 4,096. Commands
for which it says that exec answers a next state with their effect, under conditions on the state and the
operands alone: keySlotAlloc, keySlotLoad, keySlotErase, keySlotQuery, sessionOpen, sessionClose, cipherSeal,
cipherOpen, cipherXtsEnc, cipherXtsDec, cipherGmac, oldSessionExpiry, sessionHandshakeTimeout, resealDone,
entropyFail, brkSliceSlotsWrite. (R393, R395, R396, R397, R399, R402, R405, R406, R407, R408, R409, R411) -/
def Obligations.KeySlotsSessionsAndCipher : Prop :=
  (∀ (s : State) (c : Cmd), Served s.dev c 0x0801 [.m, .s] →
    (let d := s.dev.takeEntry c 0x0801
     let dev := bit (c.w 0) 0 && c.mgrPort.isSome
     let use := bits (c.w 0) 1 2
     ((c.w 0 ≥ 8 ∨ zeroFrom c 1 = false ∨ (use ≠ 1 ∧ use ≠ 2)) → exec (.keySlotAlloc c) s = .next ⟨replied (d) c 0x0801 stRefused rsBadField [], s.pending⟩) ∧
     (c.w 0 < 8 → zeroFrom c 1 = true → (use = 1 ∨ use = 2) →
       (dev = false → s.dev.mayName c = false → exec (.keySlotAlloc c) s = .next ⟨replied (d) c 0x0801 stRefused rsNotPermitted [], s.pending⟩) ∧
       ((dev = true ∨ s.dev.mayName c = true) →
         (s.dev.trng = false → exec (.keySlotAlloc c) s = .next ⟨replied (d) c 0x0801 stRefused rsWrongState [], s.pending⟩) ∧
         (s.dev.trng = true → (s.dev.freeKeySlot = none ∨ (dev = false ∧ s.dev.slotQuota c.target 1 = false)) → exec (.keySlotAlloc c) s = .next ⟨replied (d) c 0x0801 stRefused rsNoFreeSlot [], s.pending⟩) ∧
         (∀ n, s.dev.trng = true → s.dev.freeKeySlot = some n → (dev = true ∨ s.dev.slotQuota c.target 1 = true) →
           ∃ d', exec (.keySlotAlloc c) s = .next ⟨replied (d') c 0x0801 stOk 0 (resultChallenge n (Config.drbg s.dev.bark.drbgCtr)), s.pending⟩ ∧ s.dev.key n = none ∧ n < 4096 ∧
             d'.key n = some { KeySlot.empty use (if dev = true then .device else .slice c.target) with challenge := some (Config.drbg s.dev.bark.drbgCtr) } ∧
             (∀ m, m ≠ n → d'.key m = s.dev.key m) ∧ d'.bark.drbgCtr = s.dev.bark.drbgCtr + 1 ∧ d'.mem = s.dev.mem ∧ d'.skid = s.dev.skid))))) ∧
  (∀ (s : State) (c : Cmd) (blob : Option KeyBlob), Served s.dev c 0x0802 [.m, .s] →
    (let d := s.dev.takeEntry c 0x0802
     (blob = none → exec (.keySlotLoad c blob) s = .next ⟨replied (d) c 0x0802 stRefused rsBadField [], s.pending⟩) ∧
     (∀ b, blob = some b →
       ((zeroFrom c 1 = false ∨ b.reservedOk = false ∨ b.slot ≥ 4096) → exec (.keySlotLoad c blob) s = .next ⟨replied (d) c 0x0802 stRefused rsBadField [], s.pending⟩) ∧
       (zeroFrom c 1 = true → b.reservedOk = true → b.slot < 4096 →
         (b.version ≠ 0x0100 → exec (.keySlotLoad c blob) s = .next ⟨replied (d) c 0x0802 stVersion 0 [], s.pending⟩) ∧
         (b.version = 0x0100 → s.dev.key b.slot = none → exec (.keySlotLoad c blob) s = .next ⟨replied (d) c 0x0802 stRefused rsBadChallenge [], s.pending⟩) ∧
         (∀ k, b.version = 0x0100 → s.dev.key b.slot = some k →
           (let good := s.dev.mayKey c k = true ∧ k.state = .allocated ∧ k.challenge = some b.challenge
            let limit := if b.limit = 0 then 2 ^ 48 - 1 else b.limit % 2 ^ 48
            let fits := (b.use = 1 ∨ b.use = 2) ∧ b.use = k.use ∧ (b.use = 1 → b.upperZero = true) ∧ b.start ≤ limit
            let ends := fun (st rs : Nat) (k' : KeySlot) => ∃ d', exec (.keySlotLoad c blob) s = .next ⟨replied (d') c 0x0802 st rs [], s.pending⟩ ∧ d'.key b.slot = some k' ∧
              (∀ n, n ≠ b.slot → d'.key n = s.dev.key n) ∧ d'.mem = s.dev.mem ∧ d'.skid = s.dev.skid
            (¬ good → ends stRefused rsBadChallenge { k with challenge := none }) ∧
            (good → (b.sigOk = false ∨ b.wrapOk = false) → ends stBadSig 0 { k with challenge := none }) ∧
            (good → b.sigOk = true → b.wrapOk = true → ¬ fits → ends stRefused rsWrongUse { k with challenge := none }) ∧
            (good → b.sigOk = true → b.wrapOk = true → fits → ends stOk 0 { k with
              state := .loaded
              challenge := none
              key := b.key
              salt := b.salt
              limit := limit
              next := b.start
              leaseW := (0, 0)
              leaseE := (0, 0) }))))))) ∧
  (∀ (s : State) (c : Cmd), Served s.dev c 0x0803 [.m, .s] →
    (let d := s.dev.takeEntry c 0x0803
     let n := bits (c.w 0) 0 12
     let free := bit (c.w 0) 12
     ((c.w 0 ≥ 8192 ∨ zeroFrom c 1 = false) → exec (.keySlotErase c) s = .next ⟨replied (d) c 0x0803 stRefused rsBadField [], s.pending⟩) ∧
     (c.w 0 < 8192 → zeroFrom c 1 = true →
       ((∀ k, s.dev.key n = some k → s.dev.mayKey c k = false) → exec (.keySlotErase c) s = .next ⟨replied (d) c 0x0803 stRefused rsNotPermitted [], s.pending⟩) ∧
       (∀ k, s.dev.key n = some k → s.dev.mayKey c k = true →
         (let used := s.dev.keyRefs n > 0 ∨ k.held = true ∨ k.use ≥ 3
          (used → exec (.keySlotErase c) s = .next ⟨replied (d) c 0x0803 stRefused rsSlotInUse [], s.pending⟩) ∧
          (¬ used → free = true → ∃ d', exec (.keySlotErase c) s = .next ⟨replied (d') c 0x0803 stOk 0 [], s.pending⟩ ∧ d'.key n = none ∧ (∀ m, m ≠ n → d'.key m = s.dev.key m)) ∧
          (¬ used → free = false → s.dev.trng = false → exec (.keySlotErase c) s = .next ⟨replied (d) c 0x0803 stRefused rsWrongState [], s.pending⟩) ∧
          (¬ used → free = false → s.dev.trng = true → ∃ d', exec (.keySlotErase c) s = .next ⟨replied (d') c 0x0803 stOk 0 (resultChallenge 0 (Config.drbg s.dev.bark.drbgCtr)), s.pending⟩ ∧
            d'.key n = some { KeySlot.empty k.use k.owner with challenge := some (Config.drbg s.dev.bark.drbgCtr) } ∧ (∀ m, m ≠ n → d'.key m = s.dev.key m))))))) ∧
  (∀ (s : State) (c : Cmd), Served s.dev c 0x0804 [.m, .s] →
    (let d := s.dev.takeEntry c 0x0804
     ((c.w 0 ≥ 4096 ∨ zeroFrom c 1 = false) → exec (.keySlotQuery c) s = .next ⟨replied (d) c 0x0804 stRefused rsBadField [], s.pending⟩) ∧
     (c.w 0 < 4096 → zeroFrom c 1 = true → (s.dev.key (c.w 0) = none → c.mgrPort.isSome = true → exec (.keySlotQuery c) s = .next ⟨replied (d) c 0x0804 stOk 0 (zeros 22), s.pending⟩) ∧
       (s.dev.key (c.w 0) = none → c.mgrPort = none → exec (.keySlotQuery c) s = .next ⟨replied (d) c 0x0804 stRefused rsNotPermitted [], s.pending⟩) ∧
       (∀ k, s.dev.key (c.w 0) = some k →
         (s.dev.mayKey c k = false → exec (.keySlotQuery c) s = .next ⟨replied (d) c 0x0804 stRefused rsNotPermitted [], s.pending⟩) ∧
         (s.dev.mayKey c k = true → exec (.keySlotQuery c) s = .next ⟨replied (d) c 0x0804 stOk 0 (le 8 (k.state.code + 8 * k.use + 64 * b2n (k.owner = .device) +
           128 * b2n k.held + 256 * ((s.dev.keySlice k).getD 0)) ++ le 6 k.next ++ zeros 2 ++ le 6 k.limit), s.pending⟩))))) ∧
  (∀ (s : State) (c : Cmd), Served s.dev c 0x0805 [.m, .s] →
    (let d := s.dev.takeEntry c 0x0805
     let peer := bits (c.w 0) 0 16
     let ah := bits (c.w 0) 16 16
     let ps := bits (c.w 0) 32 9
     let id := s.dev.bark.nextSession
     ((zeroFrom c 1 = false ∨ c.w 0 ≥ 2 ^ 41) → exec (.sessionOpen c) s = .next ⟨replied (d) c 0x0805 stRefused rsBadField [], s.pending⟩) ∧
     (zeroFrom c 1 = true → c.w 0 < 2 ^ 41 →
       (∀ rs, s.dev.objectSlice c = some rs → exec (.sessionOpen c) s = .next ⟨replied (d) c 0x0805 stRefused rs [], s.pending⟩) ∧
       (s.dev.objectSlice c = none → (∀ a, tblGet s.dev.skid.ahs ah = some a → a.slice ≠ c.target) → exec (.sessionOpen c) s = .next ⟨replied (d) c 0x0805 stRefused rsNotPermitted [], s.pending⟩) ∧
       (∀ a, s.dev.objectSlice c = none → tblGet s.dev.skid.ahs ah = some a → a.slice = c.target →
         (s.dev.trng = false → exec (.sessionOpen c) s = .next ⟨replied (d) c 0x0805 stRefused rsWrongState [], s.pending⟩) ∧
         (s.dev.trng = true → (s.dev.slotQuota c.target 2 = false ∨ s.dev.freeKeySlot = none ∨
             (∃ tx, s.dev.freeKeySlot = some tx ∧ (s.dev.putKey tx (KeySlot.empty 3 (.session id))).freeKeySlot = none)) →
           exec (.sessionOpen c) s = .next ⟨replied (d) c 0x0805 stRefused rsNoFreeSlot [], s.pending⟩) ∧
         (∀ tx rx, s.dev.trng = true → s.dev.slotQuota c.target 2 = true → s.dev.freeKeySlot = some tx → (s.dev.putKey tx (KeySlot.empty 3 (.session id))).freeKeySlot = some rx →
           ∃ d', exec (.sessionOpen c) s = .next ⟨replied (d') c 0x0805 stDeferred 0 [], s.pending⟩ ∧ tx ≠ rx ∧
             d'.session id = some ⟨peer, c.target, none, ps, true, 0, some (s.dev.ownerOf c 0x0805), tx, rx, 0, 0, 0, 0, none, false, false⟩ ∧ d'.bark.nextSession = id + 1 ∧
             d'.key tx = some (KeySlot.empty 3 (.session id)) ∧ d'.key rx = some (KeySlot.empty 4 (.session id)) ∧ (∀ m, m ≠ tx → m ≠ rx → d'.key m = s.dev.key m) ∧
             d'.out = .spdm (.peer peer) 0x84 [id, ps] [] none :: s.dev.out ∧ d'.skid = s.dev.skid))))) ∧
  (∀ (s : State) (c : Cmd), Served s.dev c 0x0806 [.m, .s] →
    (let d := s.dev.takeEntry c 0x0806
     let hit := s.dev.bark.sessions.find? (fun e => e.2.step = 9 ∧ (e.2.tx = c.w 0 ∨ e.2.rx = c.w 0))
     ((zeroFrom c 1 = false ∨ c.w 0 ≥ 4096) → exec (.sessionClose c) s = .next ⟨replied (d) c 0x0806 stRefused rsBadField [], s.pending⟩) ∧
     (zeroFrom c 1 = true → c.w 0 < 4096 →
       (hit = none → exec (.sessionClose c) s = .next ⟨replied (d) c 0x0806 stRefused rsNotPermitted [], s.pending⟩) ∧
       (∀ id x, hit = some (id, x) →
         ((x.slice ≠ c.target ∨ s.dev.mayName c = false) → exec (.sessionClose c) s = .next ⟨replied (d) c 0x0806 stRefused rsNotPermitted [], s.pending⟩) ∧
         (x.slice = c.target → s.dev.mayName c = true →
           ((x.plan ≠ none ∨ s.dev.keyRefs x.tx > 0 ∨ s.dev.keyRefs x.rx > 0) → exec (.sessionClose c) s = .next ⟨replied (d) c 0x0806 stRefused rsSlotInUse [], s.pending⟩) ∧
           (x.plan = none → s.dev.keyRefs x.tx = 0 → s.dev.keyRefs x.rx = 0 → s.dev.session id = some x → ∃ d', exec (.sessionClose c) s = .next ⟨replied (d') c 0x0806 stOk 0 [], s.pending⟩ ∧
             d'.session id = none ∧ (∀ m, m ≠ id → d'.session m = s.dev.session m) ∧ (∀ n k, d'.key n = some k → k.owner ≠ .session id) ∧
             d'.out = .spdm (.peer x.peer) 0xEC [id] [] none :: s.dev.out)))))) ∧
  (∀ (s : State) (die : Die) (r : CipherReq), s.dev.cord.phase = .idle →
    (let ins := [(1, Instr.cipherSeal die r), (2, Instr.cipherOpen die r), (3, Instr.cipherXtsEnc die r), (4, Instr.cipherXtsDec die r), (5, Instr.cipherGmac die r)]
     let may := fun (op : Nat) (k : KeySlot) => s.dev.key r.slot = some k ∧ cipherOk op r = true ∧ useAllows k.use op = true ∧ (k.state = .loaded ∨ k.state = .locked)
     (∀ p ∈ ins,
       ((∀ k, ¬ may p.1 k) → ∃ t, exec p.2 s = .next t ∧ t.pending = s.pending ∧ t.dev = s.dev.cipherEnd die p.1 r stRefused 0 ∧ Out.cipher die p.1 stRefused 0 ∈ t.dev.out ∧ t.dev.bark = s.dev.bark ∧ t.dev.mem = s.dev.mem ∧
         (r.doneEn = false → t.dev.kerf = s.dev.kerf) ∧ (r.doneEn = true → (s.dev.core r.doneCore).state ≠ .off → s.dev.heldLink (.io die) (coreNode r.doneCore) = none → ((s.dev.core r.doneCore).ctr r.doneCtr).count < 65535 →
           ((t.dev.core r.doneCore).ctr r.doneCtr).count = ((s.dev.core r.doneCore).ctr r.doneCtr).count + 1)) ∧
       (∀ k, may p.1 k → s.dev.engineRead die r.src (r.aadLen + r.len + (if p.1 = 2 then 16 else 0)) = none → ∃ t, exec p.2 s = .next t ∧ t.pending = s.pending ∧ Out.cipher die p.1 stDmaFault 0 ∈ t.dev.out ∧ t.dev.bark = s.dev.bark)) ∧
     (∀ p ∈ ins, ∀ k bs poi d1, may p.1 k → s.dev.engineRead die r.src (r.aadLen + r.len + (if p.1 = 2 then 16 else 0)) = some ((bs, poi), d1) → s.dev.decode (some die) r.dst ≠ .unmapped → s.dev.targetStopped (s.dev.decode (some die) r.dst) = false →
       (let aad := bs.take r.aadLen
        let body := (bs.drop r.aadLen).take r.len
        let tag := bs.drop (r.aadLen + r.len)
        let wrote := fun (k' : KeySlot) (out : List Byte) (v : Nat) => ∃ d2, (if p.1 = 1 then (d1.putKey r.slot k').rekey r.slot else d1.putKey r.slot k').engineWrite die r.dst out poi = some d2 ∧ exec p.2 s = .next ⟨d2.cipherEnd die p.1 r stOk v, s.pending⟩
        (r.mismatch = 0 →
          (p.1 = 1 ∨ p.1 = 5 → k.take die = none → exec p.2 s = .next ⟨d1.cipherEnd die p.1 r stExhausted 0, s.pending⟩) ∧
          (∀ v k', p.1 = 1 → k.take die = some (v, k') → wrote k' ((gcmSeal k.bytes (nonce k.salt v) aad body).1 ++ (gcmSeal k.bytes (nonce k.salt v) aad body).2) v) ∧
          (∀ v k', p.1 = 5 → k.take die = some (v, k') → wrote k' ((gcmSeal k.bytes (nonce k.salt v) (aad ++ body) []).1 ++ (gcmSeal k.bytes (nonce k.salt v) (aad ++ body) []).2) v) ∧
          (p.1 = 2 → (∀ pt, gcmOpen k.bytes r.iv aad body tag = some pt → wrote k pt 0) ∧ (gcmOpen k.bytes r.iv aad body tag = none →
            exec p.2 s = .next ⟨(d1.bumpFld (F.BRK_DIE_ERR_AUTH_FAIL die.num) 0 1).cipherEnd die 2 r stAuthFail 0, s.pending⟩)) ∧
          (p.1 = 3 → wrote k (xts true k.bytes r.tweak.toNat body) 0) ∧ (p.1 = 4 → wrote k (xts false k.bytes r.tweak.toNat body) 0)) ∧
        (∀ v k', r.mismatch ≥ 2 → p.1 = 1 ∨ p.1 = 5 → k.take die = some (v, k') → ∃ t, exec p.2 s = .next t ∧ t.pending = s.pending ∧ Out.cipher die p.1 stCipherFault v ∈ t.dev.out ∧
          (t.dev.fld F.FLT_STATUS_V 0).testBit (12 + die.num) = true ∧ t.dev.key r.slot = some k'))))) ∧
  (∀ (s : State) (id : Nat),
    ((∀ x, s.dev.session id = some x → x.old = false) → exec (.oldSessionExpiry id) s = .next s) ∧
    (∀ x, s.dev.session id = some x → x.old = true → ∃ t, exec (.oldSessionExpiry id) s = .next t ∧ t.pending = s.pending ∧ t.dev.session id = none ∧ (∀ m, m ≠ id → t.dev.session m = s.dev.session m) ∧
      (∀ n k, t.dev.key n = some k → k.owner ≠ .session id) ∧ t.dev.out = s.dev.out ∧ t.dev.skid = s.dev.skid) ∧
    ((∀ x, s.dev.session id = some x → x.requester = false ∨ x.step ≥ 9) → exec (.sessionHandshakeTimeout id) s = .next s) ∧
    (∀ x, s.dev.session id = some x → x.requester = true → x.step < 9 → ∃ d' : Dev, exec (.sessionHandshakeTimeout id) s = .next ⟨(match x.owner with
      | some o => d'.finish o stRefused rsPeerUnreachable []
      | none => d').kickPlan x.plan, s.pending⟩ ∧ d'.session id = none ∧ (∀ n k, d'.key n = some k → k.owner ≠ .session id) ∧ d'.out = s.dev.out ∧ d'.skid = s.dev.skid ∧
      (∀ o y, x.replaces = some o → o ≠ id → s.dev.session o = some y → d'.session o = some { y with stuck := true }))) ∧
  (∀ (s : State) (n : Nat),
    ((∀ k, tblGet s.dev.bark.internal n = some k → k.resealing = false) → exec (.resealDone n) s = .next s) ∧
    (∀ k, tblGet s.dev.bark.internal n = some k → k.resealing = true → ∃ t, exec (.resealDone n) s = .next t ∧ t.pending = s.pending ∧
      t.dev = { s.dev with bark := { s.dev.bark with internal := t.dev.bark.internal } } ∧ (∀ m, m ≠ n → tblGet t.dev.bark.internal m = tblGet s.dev.bark.internal m) ∧
      (∃ k', tblGet t.dev.bark.internal n = some k' ∧ k'.resealing = false ∧ k'.active = k.active ∧ k'.used = k.used ∧ k'.key k.active = k.key k.active ∧ k'.key (!k.active) = none))) ∧
  (∀ (s : State) (die : Die), ∃ t, exec (.entropyFail die) s = .next t ∧ t.pending = s.pending ∧ t.dev.trng = false ∧ (t.dev.fld F.FLT_STATUS_V 0).testBit (12 + die.num) = true ∧ t.dev.bark = s.dev.bark ∧
    t.dev.fatal = s.dev.fatal ∧ t.dev.mem = s.dev.mem) ∧
  (∀ (s : State) (port : Nat) (val : W32),
    (let sl := s.dev.fld F.BRK_SLICE_SEL_SLICE port
     let q := bits val.toNat 0 13
     let others := (((List.range 512).filter (fun t => t ≠ sl)).map (fun t => s.dev.fld F.BRK_SLICE_SLOTS_QUOTA t)).sum
     (s.dev.manages port sl = false → exec (.brkSliceSlotsWrite port val) s = .next s) ∧
     (s.dev.manages port sl = true → (others + q > 4096 ∨ q < s.dev.slotsHeld sl) → ∃ t, exec (.brkSliceSlotsWrite port val) s = .next t ∧ t.pending = s.pending ∧ t.dev = { s.dev with tally := t.dev.tally }) ∧
     (s.dev.manages port sl = true → others + q ≤ 4096 → s.dev.slotsHeld sl ≤ q → ∃ t, exec (.brkSliceSlotsWrite port val) s = .next t ∧ t.pending = s.pending ∧ t.dev = { s.dev with regs := t.dev.regs } ∧
       t.dev.fld F.BRK_SLICE_SLOTS_QUOTA sl = q ∧ t.dev.flag F.BRK_SLICE_SLOTS_ACCEPT sl = bit val.toNat 13 ∧
       (∀ m, m < 512 → m ≠ sl → t.dev.fld F.BRK_SLICE_SLOTS_QUOTA m = s.dev.fld F.BRK_SLICE_SLOTS_QUOTA m))))

/-- Where Bark answers on a transport (from HOST_WAIT on, and in BOOT_HOLD on the sideband of Scaler W)
GET_VERSION starts a connection over; capabilities and algorithms follow in order; until then other requests
are answered UnexpectedRequest. Digests, certificate, challenge and measurements are answered from slot 0 and
the measurement table, signed over the nonce and the blocks. VENDOR_DEFINED names a slice that is ACTIVE, has
room and accepts, or an admitted plan with an agreed version; KEY_EXCHANGE then reserves two slots; FINISH
loads them when the checks hold, and frees them otherwise; when a handshake of a session that serves a plan
ends, the start of the plan goes on. END_SESSION and HEARTBEAT act on an established session of the peer. As
requester each expected answer sends the next request, and any failure frees the slots and ends the waiting
command. Commands for which it says that exec answers a next state with their effect, under conditions on the
state and the operands alone: spdmGetVersion, spdmGetCapabilities, spdmNegotiateAlgorithms, spdmGetDigests,
spdmGetCertificate, spdmChallenge, spdmGetMeasurements, spdmKeyExchange, spdmFinish, spdmEndSession,
spdmHeartbeat, spdmVendorDefined, spdmResponseReceive. (R388, R389, R390, R391, R398, R399, R400, R402, R403,
R410, R133, 13_bark_security) -/
def Obligations.SpdmResponderAndHandshakes : Prop :=
  (∀ (s : State) (via : SpdmVia) (version slot offset len index : Nat) (supported signed : Bool) (nonce : BitVec 256), s.dev.viaUp via = true →
    (let cn := s.dev.conn via
     let say := fun (o : Out) => (Host.Outcome.next ({ s with dev := { s.dev with out := o :: s.dev.out } } : State) : Host.Outcome State Fault Refusal)
     let sayC := fun (c : SpdmConn) (o : Out) => (Host.Outcome.next ({ s with dev := { s.dev with
       out := o :: s.dev.out
       bark := { s.dev.bark with conns := tblPut s.dev.bark.conns (viaKey via) c } } } : State) : Host.Outcome State Fault Refusal)
     let err := fun (code : Nat) => say (.spdm via 0x7F [code] [] none)
     let chain := [(0, Config.chainDigest)]
     let table := (List.range 11).map (· + 1) ++ (List.range 64).map (· + 16)
     exec (.spdmGetVersion via) s = sayC ⟨1, 0, none⟩ (.spdm via 0x04 [0x12, 0x13] [] none) ∧
     (cn.step < 1 → exec (.spdmGetCapabilities via version) s = err 0x04) ∧
     (1 ≤ cn.step → (version ≠ 0x12 ∧ version ≠ 0x13) → exec (.spdmGetCapabilities via version) s = err 0x41) ∧
     (1 ≤ cn.step → (version = 0x12 ∨ version = 0x13) → exec (.spdmGetCapabilities via version) s = sayC ⟨2, version, none⟩ (.spdm via 0x61 [0x33F6, 4096] [] none)) ∧
     (cn.step < 2 → exec (.spdmNegotiateAlgorithms via supported) s = err 0x04) ∧ (2 ≤ cn.step → supported = false → exec (.spdmNegotiateAlgorithms via supported) s = err 0x07) ∧
     (2 ≤ cn.step → supported = true → exec (.spdmNegotiateAlgorithms via supported) s = sayC { cn with step := 3 } (.spdm via 0x63 [] [] none)) ∧
     (cn.step < 3 → exec (.spdmGetDigests via) s = err 0x04 ∧ exec (.spdmGetCertificate via slot offset len) s = err 0x04 ∧ exec (.spdmChallenge via slot nonce) s = err 0x04 ∧
       exec (.spdmGetMeasurements via index signed nonce) s = err 0x04 ∧ exec (.spdmKeyExchange via) s = err 0x04) ∧
     (3 ≤ cn.step →
       exec (.spdmGetDigests via) s = say (.spdm via 0x01 [1] chain none) ∧
       ((slot ≠ 0 ∨ len > 4096) → exec (.spdmGetCertificate via slot offset len) s = err 0x07) ∧ (slot = 0 → len ≤ 4096 → exec (.spdmGetCertificate via slot offset len) s = say (.spdm via 0x02 [0, offset, len] [] none)) ∧
       (slot ≠ 0 → exec (.spdmChallenge via slot nonce) s = err 0x07) ∧ (slot = 0 → exec (.spdmChallenge via slot nonce) s = say (.spdm via 0x03 [0] chain (some (s.dev.signIdk (signedBytes nonce chain))))) ∧
       (index = 0 → exec (.spdmGetMeasurements via index signed nonce) s = say (.spdm via 0x60 [75] [] (if signed then some (s.dev.signIdk (signedBytes nonce [])) else none))) ∧
       (index ∈ table → exec (.spdmGetMeasurements via index signed nonce) s =
         say (.spdm via 0x60 [75] [(index, s.dev.measOf index)] (if signed then some (s.dev.signIdk (signedBytes nonce [(index, s.dev.measOf index)])) else none))) ∧
       (index = 0xFF → exec (.spdmGetMeasurements via index signed nonce) s = say (.spdm via 0x60 [75] (table.map (fun i => (i, s.dev.measOf i)))
         (if signed then some (s.dev.signIdk (signedBytes nonce (table.map (fun i => (i, s.dev.measOf i))))) else none))) ∧
       (index ≠ 0 → index ≠ 0xFF → index ∉ table → exec (.spdmGetMeasurements via index signed nonce) s = err 0x01)))) ∧
  (∀ (s : State) (via : SpdmVia) (id vendor qpn : Nat) (slice : Option Nat) (dig : BitVec 256) (versions : List (BitVec 16)) (chk : PeerCheck), (∀ n, via ≠ .peer n) → s.dev.viaUp via = true →
    (let err := fun (code : Nat) => (Host.Outcome.next ({ s with dev := { s.dev with out := .spdm via 0x7F [code] [] none :: s.dev.out } } : State) : Host.Outcome State Fault Refusal)
     exec (.spdmFinish via chk) s = err 0x07 ∧ exec (.spdmEndSession via id) s = err 0x01 ∧ exec (.spdmHeartbeat via id) s = err 0x01 ∧
     (3 ≤ (s.dev.conn via).step → exec (.spdmVendorDefined via vendor slice dig versions qpn) s = err 0x07 ∧ exec (.spdmKeyExchange via) s = err 0x07))) ∧
  (∀ (s : State) (node vendor qpn : Nat) (slice : Option Nat) (dig : BitVec 256) (versions : List (BitVec 16)), s.dev.viaUp (.peer node) = true →
    (let via := SpdmVia.peer node
     let cn := s.dev.conn via
     let err := fun (code : Nat) => (Host.Outcome.next ({ s with dev := { s.dev with out := .spdm via 0x7F [code] [] none :: s.dev.out } } : State) : Host.Outcome State Fault Refusal)
     let named := fun (n : Nat) (data : List Nat) => (Host.Outcome.next ({ s with dev := { s.dev with
       out := .spdm via 0x7E data [] none :: s.dev.out
       bark := { s.dev.bark with conns := tblPut s.dev.bark.conns (viaKey via) { cn with target := some n } } } } : State) : Host.Outcome State Fault Refusal)
     (cn.step < 3 → exec (.spdmVendorDefined via vendor slice dig versions qpn) s = err 0x04) ∧
     (3 ≤ cn.step → vendor ≠ 0x1F3C → exec (.spdmVendorDefined via vendor slice dig versions qpn) s = err 0x07) ∧
     (3 ≤ cn.step → vendor = 0x1F3C →
       (∀ n, slice = some n →
         (let ok := n < 512 ∧ (s.dev.slice n).state = .active ∧ s.dev.slotQuota n 2 = true ∧ s.dev.flag F.BRK_SLICE_SLOTS_ACCEPT n = true
          (ok → exec (.spdmVendorDefined via vendor slice dig versions qpn) s = named n [n]) ∧ (¬ ok → exec (.spdmVendorDefined via vendor slice dig versions qpn) s = err 0x01))) ∧
       (slice = none →
         ((s.dev.planOfDigest dig = none ∨ agreedOf versions = none) → exec (.spdmVendorDefined via vendor slice dig versions qpn) s = err 0x01) ∧
         (∀ n p v, s.dev.planOfDigest dig = some n → s.dev.plan n = some p → agreedOf versions = some v →
           exec (.spdmVendorDefined via vendor slice dig versions qpn) s = named (512 + n + 1024 * qpn) [n, v.toNat, tblGetD p.qps node 0]))) ∧
     (3 ≤ cn.step → cn.target = none → exec (.spdmKeyExchange via) s = err 0x04) ∧
     (∀ t, 3 ≤ cn.step → cn.target = some t →
       (let sl := if t < 512 then t else match s.dev.plan (t % 1024 - 512) with
          | some p => p.slice
          | none => 0
        let id := s.dev.bark.nextSession
        ((s.dev.slotQuota sl 2 = false ∨ s.dev.trng = false ∨ s.dev.freeKeySlot = none) → exec (.spdmKeyExchange via) s = err 0x01) ∧
        (∀ tx, s.dev.freeKeySlot = some tx → (s.dev.putKey tx (KeySlot.empty 3 (.session id))).freeKeySlot = none → exec (.spdmKeyExchange via) s = err 0x01) ∧
        (∀ tx rx, s.dev.slotQuota sl 2 = true → s.dev.trng = true → s.dev.freeKeySlot = some tx → (s.dev.putKey tx (KeySlot.empty 3 (.session id))).freeKeySlot = some rx →
          ∃ u, exec (.spdmKeyExchange via) s = .next u ∧ u.pending = s.pending ∧ u.dev.out = .spdm via 0x64 [id] [] none :: s.dev.out ∧ u.dev.bark.nextSession = id + 1 ∧
            u.dev.session id = some ⟨node, sl, if t < 512 then none else some (t % 1024 - 512), sl, false, 8, none, tx, rx, 0, 0, t / 1024, 0, none, false, false⟩ ∧ tx ≠ rx ∧
            u.dev.key tx = some (KeySlot.empty 3 (.session id)) ∧ u.dev.key rx = some (KeySlot.empty 4 (.session id)) ∧ (∀ m, m ≠ tx → m ≠ rx → u.dev.key m = s.dev.key m)))))) ∧
  (∀ (s : State) (node id : Nat) (chk : PeerCheck), s.dev.viaUp (.peer node) = true →
    (let via := SpdmVia.peer node
     let err := fun (code : Nat) => (Host.Outcome.next ({ s with dev := { s.dev with out := .spdm via 0x7F [code] [] none :: s.dev.out } } : State) : Host.Outcome State Fault Refusal)
     (s.dev.pendingOf node = none → exec (.spdmFinish via chk) s = err 0x04) ∧
     (∀ x, s.dev.pendingOf node = some id → s.dev.session id = some x →
       (let held : Bool := match x.plan with
          | some k => (s.dev.plan k).isSome
          | none => decide ((s.dev.slice x.slice).state = .active) && s.dev.flag F.BRK_SLICE_SLOTS_ACCEPT x.slice
        let ver := if x.plan.isSome then agreedOf chk.versions else some 0
        let ok := chk.chainOk = true ∧ chk.policyOk = true ∧ chk.nodeOk = true ∧ held = true
        ((¬ ok ∨ ver = none) → ∃ d' : Dev, exec (.spdmFinish via chk) s = .next ⟨d'.kickPlan x.plan, s.pending⟩ ∧ d'.session id = none ∧ (∀ n k, d'.key n = some k → k.owner ≠ .session id) ∧
          d'.out = .spdm via 0x7F [0x01] [] none :: s.dev.out) ∧
        (∀ v kt kr, ok → ver = some v → x.tx ≠ x.rx → s.dev.key x.tx = some kt → s.dev.key x.rx = some kr → ∃ d' : Dev, exec (.spdmFinish via chk) s = .next ⟨d'.kickPlan x.plan, s.pending⟩ ∧
          d'.out = .spdm via 0x65 [id, x.rx] [] none :: s.dev.out ∧
          d'.session id = some { x with step := 9, owner := none, peerRx := chk.peerSlot, peerQpn := (if x.plan.isSome then x.peerQpn else chk.qpn), version := v } ∧
          (let e := Config.exportSecret x.peer id
           let a := sessionKey e (if x.requester then "req" else "rsp")
           let b := sessionKey e (if x.requester then "rsp" else "req")
           d'.key x.tx = some { kt with state := .loaded, key := a.1, salt := a.2, limit := 2 ^ 48 - 1, next := 0 } ∧
           d'.key x.rx = some { kr with state := .loaded, key := b.1, salt := b.2, limit := 2 ^ 48 - 1, next := 0 })))) ∧
     (∀ x, s.dev.session id = some x → x.peer = node → x.step = 9 →
       (∃ t, exec (.spdmEndSession via id) s = .next t ∧ t.pending = s.pending ∧ t.dev.session id = none ∧ (∀ n k, t.dev.key n = some k → k.owner ≠ .session id) ∧ t.dev.out = .spdm via 0x6C [id] [] none :: s.dev.out) ∧
       exec (.spdmHeartbeat via id) s = .next ⟨{ s.dev with out := .spdm via 0x68 [id] [] none :: s.dev.out }, s.pending⟩) ∧
     ((∀ x, s.dev.session id = some x → x.peer ≠ node ∨ x.step ≠ 9) → exec (.spdmEndSession via id) s = err 0x01 ∧ exec (.spdmHeartbeat via id) s = err 0x01))) ∧
  (∀ (s : State) (id : Nat) (resp : SpdmResp),
    ((∀ x, s.dev.session id = some x → x.requester = false ∨ x.step ≥ 9) → exec (.spdmResponseReceive id resp) s = .next s) ∧
    (∀ x, s.dev.session id = some x → x.requester = true → x.step < 9 →
      (let failed := fun (rs : Nat) => ∃ d' : Dev, exec (.spdmResponseReceive id resp) s = .next ⟨(match x.owner with
          | some o => d'.finish o stRefused rs []
          | none => d').kickPlan x.plan, s.pending⟩ ∧ d'.session id = none ∧ (∀ n k, d'.key n = some k → k.owner ≠ .session id) ∧ d'.out = s.dev.out ∧ d'.skid = s.dev.skid
       (∀ e ∈ [(SpdmResp.version, 1, 0xE1), (.capabilities, 2, 0xE3), (.algorithms, 3, 0xFE), (.vendorDefined true, 4, 0x81), (.digests, 5, 0x82), (.certificate, 6, 0xE0), (.measurements, 7, 0xE4), (.keyExchange, 8, 0xE5)],
         resp = e.1 → (x.step + 1 ≠ e.2.1 → exec (.spdmResponseReceive id resp) s = .next s) ∧
           (x.step + 1 = e.2.1 → ∃ t, exec (.spdmResponseReceive id resp) s = .next t ∧ t.pending = s.pending ∧ t.dev.session id = some { x with step := e.2.1 } ∧ (∀ m, m ≠ id → t.dev.session m = s.dev.session m) ∧
             t.dev.out = .spdm (.peer x.peer) e.2.2 [id, x.peerSlice] [] none :: s.dev.out ∧ t.dev.bark.slots = s.dev.bark.slots)) ∧
       (resp = .error → failed rsPeerRefused) ∧ (resp = .vendorDefined false → x.step = 3 → failed rsPeerRefused) ∧ (resp = .vendorDefined false → x.step ≠ 3 → exec (.spdmResponseReceive id resp) s = .next s) ∧
       (∀ chk, resp = .finish chk → (let ver := if x.plan.isSome then agreedOf chk.versions else some 0
         (x.step ≠ 8 → exec (.spdmResponseReceive id resp) s = .next s) ∧
         (x.step = 8 → (chk.chainOk = false ∨ chk.policyOk = false ∨ chk.nodeOk = false) → failed rsPolicyMismatch) ∧
         (x.step = 8 → chk.chainOk = true → chk.policyOk = true → chk.nodeOk = true → (chk.targetOk = false ∨ ver = none) → failed rsPeerRefused) ∧
         (∀ v kt kr, x.step = 8 → chk.chainOk = true → chk.policyOk = true → chk.nodeOk = true → chk.targetOk = true → ver = some v → x.tx ≠ x.rx → s.dev.key x.tx = some kt → s.dev.key x.rx = some kr →
           (x.replaces = none ∨ ∃ o, x.replaces = some o ∧ o ≠ id) → (s.dev.skid.qps.map (·.1)).Nodup →
           ∃ d' : Dev, exec (.spdmResponseReceive id resp) s = .next ⟨(match x.owner with
             | some o => d'.finish o stOk 0 (le 6 (x.tx + x.rx * 2 ^ 16 + chk.peerSlot * 2 ^ 32))
             | none => d').kickPlan x.plan, s.pending⟩ ∧ d'.out = s.dev.out ∧
             (∃ y, d'.session id = some y ∧ y.step = 9 ∧ y.owner = none ∧ y.peerRx = chk.peerSlot ∧ y.peerQpn = chk.qpn ∧ y.version = v ∧ y.tx = x.tx ∧ y.rx = x.rx) ∧
             (x.replaces = none → d'.key x.tx = some { kt with state := .loaded, key := (sessionKey (Config.exportSecret x.peer id) "req").1, salt := (sessionKey (Config.exportSecret x.peer id) "req").2, limit := 2 ^ 48 - 1, next := 0 } ∧
               d'.key x.rx = some { kr with state := .loaded, key := (sessionKey (Config.exportSecret x.peer id) "rsp").1, salt := (sessionKey (Config.exportSecret x.peer id) "rsp").2, limit := 2 ^ 48 - 1, next := 0 } ∧ d'.skid = s.dev.skid) ∧
             (∀ o old, x.replaces = some o → s.dev.session o = some old → d'.session o = some { old with old := true } ∧
               (∀ n q, s.dev.qp n = some q → d'.qp n = some (if q.f cKeySlot = old.tx then (q.put cKeySlot x.tx).put cPeerSession chk.peerSlot else q)))))))))

/-- POWER_STATE is REFUSED, OK, BUSY or DEFERRED by the first condition that holds, and enters its state when
nothing stands before it; W3 and W4 are refused while a slice or a plan is active; a move waits for Cord. A
dip clamps, is recorded and counted, and the third in 10 minutes warns; clamps set and release by their own
rule. A trip turns the stages off, everything but the cause, the flash and the lists of the memory tests is
lost, and the restart is a cold reset. The Ranger loop takes its samples and the clocks it set. MRST_N resets
cold with its cause; WRST_N warm: class C registers and LPDDR5X cells stay, the rest starts over with EPOCH +
1 and every port is reset. Commands for which it says that exec answers a next state with their effect, under
conditions on the state and the operands alone: powerState, powerTransitionDone, w2StopTimeout,
supplyDipStart, supplyDipEnd, dipClampRelease, thermalClampRelease, powerClampRelease, thermalClampSet,
powerClampSet, uvResetTrip, ovTrip, thermalTrip, tripRestart, powerOn, rangerLoop, coldReset, warmReset.
(R412, R413, R414, R415, R418, R419, R420, R421, R422, R424, R425, R454) -/
def Obligations.PowerStatesClampsTripsAndResets : Prop :=
  (∀ (s : State) (c : Cmd) (quick : Bool), Served s.dev c 0x0601 [.m, .b] →
    (let d := s.dev.takeEntry c 0x0601
     let t := c.w 0
     let o := s.dev.ownerOf c 0x0601
     let move := fun (m : PowerMove) => ({ d with pwr := { d.pwr with move := some m } } : Dev)
     let planOn := ∃ e ∈ s.dev.mill.plans, e.2.state = .running ∨ e.2.state = .stopping
     let refuses := t ≥ 3 ∧ (planOn ∨ ∃ e ∈ s.dev.slices, e.2.state = .active ∨ e.2.state = .quiescing ∨ e.2.state = .resetting)
     (s.dev.pwr.move = none → (t > 4 ∨ zeroFrom c 1 = false) → exec (.powerState c quick) s = .next ⟨replied (d) c 0x0601 stRefused rsBadField [], s.pending⟩) ∧
     (t ≤ 4 → zeroFrom c 1 = true →
       (s.dev.pwr.move = none → t = s.dev.pwr.state → exec (.powerState c quick) s = .next ⟨replied (d) c 0x0601 stOk 0 [], s.pending⟩) ∧
       (∀ m, t ≠ s.dev.pwr.state → s.dev.pwr.move = some m → m ≠ ⟨4, none, false⟩ → exec (.powerState c quick) s = .next ⟨replied (d) c 0x0601 stBusy 0 [], s.pending⟩) ∧
       (t ≠ s.dev.pwr.state → s.dev.pwr.move = none →
         (refuses → exec (.powerState c quick) s = .next ⟨replied (d) c 0x0601 stRefused rsWrongState [], s.pending⟩) ∧
         (¬ refuses → t ≥ 2 → s.dev.cord.phase ≠ .idle → exec (.powerState c quick) s = .next ⟨replied (move ⟨t, some o, true⟩) c 0x0601 stDeferred 0 [], s.pending⟩) ∧
         (¬ refuses → (t < 2 ∨ s.dev.cord.phase = .idle) → quick = false → (t = 2 → s.dev.mill.plans = []) → exec (.powerState c quick) s = .next ⟨replied (move ⟨t, some o, false⟩) c 0x0601 stDeferred 0 [], s.pending⟩) ∧
         (quick = true → t < 2 → s.dev.pwr.state < 2 → ∃ d', exec (.powerState c quick) s = .next ⟨replied (d') c 0x0601 stOk 0 [], s.pending⟩ ∧ d'.pwr = { s.dev.pwr with state := t, move := none } ∧
           (∀ n p, s.dev.plan n = some p → d'.plan n = some { p with heldPower := decide (t = 1 ∧ p.state = .running) }) ∧ d'.kerf = s.dev.kerf ∧ d'.mem = s.dev.mem) ∧
         (quick = true → t = 2 → s.dev.pwr.state < 2 → s.dev.cord.phase = .idle → ¬ planOn → s.dev.mill.plans = [] → ∃ d', exec (.powerState c quick) s = .next ⟨replied (d') c 0x0601 stOk 0 [], s.pending⟩ ∧
           d'.pwr = { s.dev.pwr with state := 2, move := none } ∧ (∀ k, isSeq k = true → d'.core k = { Core.init with exc := (s.dev.core k).exc }) ∧ (∀ m, m ∈ d'.links.msgs ↔ m ∈ s.dev.links.msgs ∧ dieStops 2 (coreNode m.2.1) = false) ∧ (∀ k, isSeq k = false → d'.core k = s.dev.core k) ∧ d'.mem = s.dev.mem) ∧
         (quick = true → t = 3 → s.dev.pwr.state < 3 → s.dev.cord.phase = .idle → ¬ refuses → (∀ e ∈ s.dev.nvm.vols, e.2.jobs = []) → s.dev.mem.wf = true → ∃ d', exec (.powerState c quick) s = .next ⟨replied (d') c 0x0601 stOk 0 [], s.pending⟩ ∧
           d'.pwr = { s.dev.pwr with state := 3, move := none } ∧ (∀ a, a < 0x10000000000 → cellGet d'.mem.cells a = cellGet s.dev.mem.cells a) ∧
           (∀ a, 0x10000000000 ≤ a → a < 0x10080000000 → cellGet d'.mem.cells a = blankByte) ∧ d'.lanes.up = [] ∧ d'.ring.state ≠ .locked ∧ (∀ k, (d'.core k).exc = (s.dev.core k).exc)) ∧
         (quick = true → t = 4 → s.dev.cord.phase = .idle → ¬ refuses → (∀ e ∈ s.dev.nvm.vols, e.2.jobs = []) → ∃ u, exec (.powerState c quick) s = .next u ∧ u.pending = s.pending ∧
           u.dev.pwr.state = 4 ∧ u.dev.mem.cells = [] ∧ u.dev.slices = [] ∧ u.dev.bark.slots = [] ∧ u.dev.scaler.flashA = s.dev.scaler.flashA ∧ u.dev.scaler.flashB = s.dev.scaler.flashB))))) ∧
  (∀ s : State,
    (s.dev.pwr.move = none → exec .powerTransitionDone s = .next s ∧ exec .w2StopTimeout s = .next s) ∧
    (∀ m, s.dev.pwr.move = some m →
      (m.waiting = true → s.dev.cord.phase ≠ .idle → exec .powerTransitionDone s = .next s) ∧ ((m.waiting = true ∨ m.target ≠ 2) → exec .w2StopTimeout s = .next s) ∧
      (m.waiting = false → s.dev.moveClear m.target = false → exec .powerTransitionDone s = .next s) ∧
      (m.waiting = false → s.dev.moveClear m.target = true → s.dev.moveRefused m.target = true → exec .powerTransitionDone s = .next ⟨(match m.owner with
        | some o => { s.dev with pwr := { s.dev.pwr with move := none } }.finish o stRefused rsWrongState []
        | none => { s.dev with pwr := { s.dev.pwr with move := none } }), s.pending⟩) ∧
      (m.waiting = false → m.target < 2 → s.dev.pwr.state < 2 → ∃ d', exec .powerTransitionDone s = .next ⟨(match m.owner with
        | some o => d'.finish o stOk 0 []
        | none => d'), s.pending⟩ ∧ d'.pwr = { s.dev.pwr with state := m.target, move := none } ∧ d'.kerf = s.dev.kerf ∧
          (∀ n p, s.dev.plan n = some p → d'.plan n = some { p with heldPower := decide (m.target = 1 ∧ p.state = .running) })) ∧
      (m.waiting = false → m.target < 2 → s.dev.pwr.state ≥ 2 → ∃ d', exec .powerTransitionDone s = .next ⟨(match m.owner with
        | some o => d'.finish o stOk 0 []
        | none => d'), s.pending⟩ ∧ d'.pwr = { s.dev.pwr with state := m.target, move := none } ∧ (∀ k ∈ [1, 2, 3, 4], k ∈ d'.ring.waking)) ∧
      (m.waiting = false → m.target = 2 → (s.dev.mill.plans.map (·.1)).Nodup → ∃ t, exec .w2StopTimeout s = .next t ∧ t.pending = s.pending ∧ t.dev.pwr = s.dev.pwr ∧ t.dev.mem = s.dev.mem ∧
        (∀ n p, s.dev.plan n = some p → (t.dev.plan n).map (·.state) = some (if p.state = .running ∨ p.state = .stopping then .admitted else p.state))))) ∧
  (∀ s : State,
    (let off := s.dev.pwr.stages = false ∨ s.dev.pwr.state = 4
     let recent := s.dev.pwr.dips.filter (fun t => decide (s.dev.clk - t < sTicks 600))
     ((s.dev.pwr.dip = true ∨ off) → exec .supplyDipStart s = .next s) ∧
     (s.dev.pwr.dip = false → ¬ off → ∃ t, exec .supplyDipStart s = .next t ∧ t.pending = s.pending ∧ t.dev.pwr = { s.dev.pwr with dip := true, dipHold := false, dips := s.dev.clk :: recent } ∧
       t.dev.flag F.PWR_STATUS_DIP 0 = true ∧ t.dev.fld F.PWR_DIPS_TOTAL 0 = min (2 ^ 24 - 1) (s.dev.fld F.PWR_DIPS_TOTAL 0 + 1) ∧ (t.dev.fld F.FLT_CE_V 0).testBit 45 = true ∧ t.dev.mem = s.dev.mem ∧
       (recent.length < 2 → t.dev.cord = s.dev.cord) ∧ (recent.length ≥ 2 → (t.dev.fld F.CRD_STATUS_WARN 0).testBit 1 = true)) ∧
     exec .supplyDipEnd s = .next ⟨(if s.dev.pwr.dip = true then { s.dev with pwr := { s.dev.pwr with dip := false, dipHold := true } } else s.dev), s.pending⟩ ∧
     ((∀ a ∈ s.dev.scaler.activations, a.deferred = false) →
       ((s.dev.pwr.dipHold = false ∨ s.dev.pwr.dip = true) → exec .dipClampRelease s = .next s) ∧
       (s.dev.pwr.dipHold = true → s.dev.pwr.dip = false → exec .dipClampRelease s = .next ⟨{ s.dev with pwr := { s.dev.pwr with dipHold := false } }.setFlag F.PWR_STATUS_DIP 0 false, s.pending⟩) ∧
       (∀ e ∈ [(F.PWR_STATUS_THERM_CLAMP, Instr.thermalClampRelease), (F.PWR_STATUS_POWER_CLAMP, Instr.powerClampRelease)],
         exec e.2 s = .next ⟨(if s.dev.flag e.1 0 = true then s.dev.setFlag e.1 0 false else s.dev), s.pending⟩)) ∧
     (∀ e ∈ [(F.PWR_STATUS_THERM_CLAMP, Instr.thermalClampSet), (F.PWR_STATUS_POWER_CLAMP, Instr.powerClampSet)],
       ((s.dev.flag e.1 0 = true ∨ off) → exec e.2 s = .next s) ∧
       (s.dev.flag e.1 0 = false → ¬ off → ∃ t, exec e.2 s = .next t ∧ t.pending = s.pending ∧ t.dev.flag e.1 0 = true ∧ t.dev.emergency = true ∧ (t.dev.fld F.FLT_CE_V 0).testBit 45 = true ∧ t.dev.pwr = s.dev.pwr ∧ t.dev.mill = s.dev.mill)) ∧
     (∀ e ∈ [(1, F.PWR_RESET_CAUSE_UV_RESET, Instr.uvResetTrip), (2, F.PWR_RESET_CAUSE_OV_TRIP, Instr.ovTrip), (3, F.PWR_RESET_CAUSE_THERM_TRIP, Instr.thermalTrip)],
       (off → exec e.2.2 s = .next s) ∧
       (¬ off → ∃ t, exec e.2.2 s = .next t ∧ t.pending = s.pending ∧ t.dev.pwr.stages = false ∧ t.dev.pwr.trip = e.1 ∧ t.dev.flag e.2.1 0 = true ∧ t.dev.flag F.PWR_RESET_CAUSE_MRST 0 = false ∧
         t.dev.out = .stagesOff :: s.dev.out ∧ t.dev.mem = Mem.init s.dev.mem.retire s.dev.mem.ppr ∧ t.dev.flt = Flt.init ∧ t.dev.slices = [] ∧ t.dev.scaler = Scaler.init s.dev.scaler.flashA s.dev.scaler.flashB)) ∧
     (s.dev.pwr.trip ≠ 1 → exec .tripRestart s = .next s) ∧
     (s.dev.pwr.trip = 1 → ∃ t, exec .tripRestart s = .next t ∧ t.pending = s.pending ∧ t.dev.pwr = { Power.init with cold := true } ∧ t.dev.flag F.PWR_RESET_CAUSE_UV_RESET 0 = true ∧ t.dev.scaler.boot = .reset ∧ t.dev.slices = [] ∧ t.dev.bark.ident = none) ∧
     (s.dev.pwr.input = true → s.dev.pwr.stages = true → exec .powerOn s = .next s) ∧
     ((s.dev.pwr.input = false ∨ s.dev.pwr.stages = false) → ∃ t, exec .powerOn s = .next t ∧ t.pending = s.pending ∧ t.dev.pwr = { Power.init with cold := true } ∧ t.dev.flag F.PWR_RESET_CAUSE_POWER_ON 0 = true ∧
       t.dev.flag F.PWR_RESET_CAUSE_UV_RESET 0 = false ∧ t.dev.scaler = Scaler.init s.dev.scaler.flashA s.dev.scaler.flashB ∧ t.dev.ring = Ring.init))) ∧
  (∀ (s : State) (volt cur power die f : Nat) (temps : List Nat) (overCap : Bool), (∀ a ∈ s.dev.scaler.activations, a.deferred = false) →
    (let off := s.dev.pwr.stages = false ∨ s.dev.pwr.state = 4
     (off → exec (.rangerLoop volt cur power temps [(die, f)] overCap) s = .next s) ∧
     (¬ off → volt < 2 ^ 16 → cur < 2 ^ 16 → power < 2 ^ 16 → s.dev.fld F.PWR_METER_PEAK 0 < 2 ^ 16 → ∃ t, exec (.rangerLoop volt cur power temps [(die, f)] overCap) s = .next t ∧ t.pending = s.pending ∧
       t.dev.fld F.PWR_INPUT_VOLT 0 = volt ∧ t.dev.fld F.PWR_INPUT_CURRENT 0 = cur ∧ t.dev.fld F.PWR_METER_POWER 0 = power ∧ t.dev.fld F.PWR_METER_PEAK 0 = max power (s.dev.fld F.PWR_METER_PEAK 0) ∧
       t.dev.flag F.PWR_STATUS_LOW_IN 0 = decide (s.dev.uvWarn * 10 ≤ volt ∧ volt < 4800) ∧ t.dev.flag F.PWR_STATUS_HIGH_IN 0 = decide (6000 < volt ∧ volt ≤ 6400) ∧
       t.dev.pwr.hot = temps.any (fun x => decide (signed8 x ≥ 95)) ∧ (∀ k, k < 6 → ∀ x, temps[k]? = some x → t.dev.fld (F.PWR_TEMP_NOW k) 0 = x % 256) ∧
       (let sets := die < 4 ∧ f % 25 = 0 ∧ 500 ≤ f ∧ f ≤ s.dev.mclkMax ∧ s.dev.rangersUp die = true
        (sets → t.dev.mclkOf die = f) ∧ (¬ sets → t.dev.pwr.mclk = s.dev.pwr.mclk)) ∧
       (overCap = true → power > s.dev.fld F.PWR_CTRL_CAP 0 → (∀ k, k < 4 → t.dev.mclkOf k = 500) → t.dev.flag F.PWR_STATUS_CAP_UNMET 0 = true) ∧
       (overCap = false → t.dev.flag F.PWR_STATUS_CAP_UNMET 0 = s.dev.flag F.PWR_STATUS_CAP_UNMET 0) ∧ t.dev.skid = s.dev.skid ∧ t.dev.mem = s.dev.mem))) ∧
  (∀ (s : State) (low xa xb restart : Bool),
    (let stuck := s.dev.pwr.input = false ∨ s.dev.pwr.trip = 1 ∨ (s.dev.pwr.trip ≠ 0 ∧ restart = false)
     (stuck → exec (.coldReset low xa xb restart) s = .next ⟨{ s.dev with pins := { s.dev.pins with mrstLow := low } }, s.pending⟩) ∧
     (¬ stuck → low = false → exec (.coldReset low xa xb restart) s = .next ⟨{ s.dev with pins := { s.dev.pins with mrstLow := false, xclkA := xa, xclkB := xb } }, s.pending⟩) ∧
     (¬ stuck → low = true → ∃ t, exec (.coldReset low xa xb restart) s = .next t ∧ t.pending = s.pending ∧ t.dev.pins = { s.dev.pins with mrstLow := true } ∧ t.dev.pwr = { Power.init with cold := true } ∧
       t.dev.flag (if s.dev.pwr.trip = 2 then F.PWR_RESET_CAUSE_OV_TRIP else if s.dev.pwr.trip = 3 then F.PWR_RESET_CAUSE_THERM_TRIP else F.PWR_RESET_CAUSE_MRST) 0 = true ∧ t.dev.flag F.PWR_RESET_CAUSE_POWER_ON 0 = false ∧
       t.dev.flag F.PWR_RESET_CAUSE_WARM 0 = false ∧ t.dev.mem = Mem.init s.dev.mem.retire s.dev.mem.ppr ∧ t.dev.ring = Ring.init ∧ t.dev.slices = [] ∧ t.dev.scaler = Scaler.init s.dev.scaler.flashA s.dev.scaler.flashB ∧
       t.dev.mill = Mill.init ∧ t.dev.skid = Skid.init ∧ t.dev.nvm = Nvme.init ∧ t.dev.cord = Cord.init ∧ t.dev.kerf = Kerf.init ∧ t.dev.out = s.dev.out))) ∧
  (∀ (s : State) (low : Bool),
    (let deaf := low = false ∨ s.dev.pwr.stages = false ∨ s.dev.pwr.input = false ∨ s.dev.pwr.state = 4 ∨ s.dev.pwr.cold = true ∨ s.dev.pins.mrstLow = true ∨ s.dev.scaler.boot = .hold
     (deaf → exec (.warmReset low) s = .next ⟨{ s.dev with pins := { s.dev.pins with wrstLow := low } }, s.pending⟩) ∧
     (¬ deaf → s.dev.cord.phase = .idle → ∃ t, exec (.warmReset low) s = .next t ∧ t.pending = s.pending ∧ t.dev.pins.wrstLow = true ∧ t.dev.scaler.boot = .imageRead ∧ t.dev.scaler.lease.epoch = s.dev.scaler.lease.epoch + 1 ∧
       t.dev.scaler.lease.acting = [] ∧ t.dev.scaler.flashA = s.dev.scaler.flashA ∧ t.dev.scaler.flashB = s.dev.scaler.flashB ∧ t.dev.slices = [] ∧ t.dev.mill = Mill.init ∧ t.dev.skid = Skid.init ∧ t.dev.path = Path.init ∧
       t.dev.nvm = Nvme.init ∧ t.dev.bark.slots = [] ∧ t.dev.bark.sessions = [] ∧ t.dev.pwr = { Power.init with dips := s.dev.pwr.dips } ∧ t.dev.ring.acc = s.dev.ring.acc ∧ t.dev.flt.log = s.dev.flt.log ∧ t.dev.links.msgs = [] ∧ t.dev.bark.ident = s.dev.bark.ident ∧
       t.dev.lanes = { s.dev.lanes with up := [] } ∧ t.dev.mem.retire = s.dev.mem.retire ∧
       (s.dev.mem.wf = true → (∀ a, a < 0x10000000000 → cellGet t.dev.mem.cells a = cellGet s.dev.mem.cells a) ∧ (∀ a, 0x10000000000 ≤ a → a < 0x10080000000 → cellGet t.dev.mem.cells a = blankByte)) ∧
       (∀ p, p < 4 → t.dev.flag (F.EPX_PORT_STATUS_HOTRST p) 0 = true ∧ (t.dev.port p).up = false ∧ (t.dev.port p).slots = []) ∧
       (let mine := fun (n : Nat) => ∃ p, p < 4 ∧ (n = fldKey (F.EPX_PORT_STATUS_HOTRST p) 0 ∨ n = fldKey (F.EPX_PORT_STATUS_DOWNS p) 0)
        (∀ n e, tblGet s.dev.regs n = some e → e.kept = .c → ¬ mine n → tblGet t.dev.regs n = some e) ∧ (∀ n e, tblGet t.dev.regs n = some e → ¬ mine n → e.kept = .c)))))

/-- For every state whose memories are in canonical form, whose TIM_ADDEND is within 8,589,935 units of nominal,
and whose power state and pending target are among W0 to W4: after one step, whatever the command, the same
holds. The canonical form of the memories is the representation of this model; unlisted bytes read as 0 (log
12). (05_memory, R35, R161, R412) -/
def Obligations.EveryStepKeepsTheInvariant : Prop :=
  ∀ (s t : State), Inv s → step s = .next t → Inv t

/-- In every state whose power state and pending target are codes of Table 14.2, a step leaves them so. When a
step changes the power state, the command was POWER_STATE, or the end of the transition that such a command
started, or a reset, a trip, a restart or power-on, and those leave W0 (a reset may also be the cold reset
that the activation of a configuration image over PLDM starts, R374). A trip turns the stages off with the
device reset, and its restart is a cold reset; cold and warm reset leave W0. Commands for which it says that
exec answers a next state with their effect, under conditions on the state and the operands alone: coldReset,
warmReset, uvResetTrip, ovTrip, thermalTrip, tripRestart. (R412) -/
def Obligations.PowerStateChangesOnlyOnCommand : Prop :=
  (∀ (s t : State) (c : Instr) (rest : List Instr), s.pending = c :: rest → s.dev.pwr.state ≤ 4 → (∀ m, s.dev.pwr.move = some m → m.target ≤ 4) → step s = .next t →
    t.dev.pwr.state ≤ 4 ∧ (∀ m, t.dev.pwr.move = some m → m.target ≤ 4) ∧
    (t.dev.pwr.state ≠ s.dev.pwr.state → (∃ cm q, c = .powerState cm q) ∨ c = .powerTransitionDone ∨
      (t.dev.pwr.state = 0 ∧ (c = .uvResetTrip ∨ c = .ovTrip ∨ c = .thermalTrip ∨ c = .tripRestart ∨ c = .powerOn ∨ c = .pldmActivateFirmware ∨ (∃ xa xb r, c = .coldReset true xa xb r) ∨ c = .warmReset true)))) ∧
  (∀ (s : State) (xa xb r : Bool), s.dev.pwr.input = true → s.dev.pwr.trip = 0 → ∃ t, exec (.coldReset true xa xb r) s = .next t ∧ t.dev.pwr.state = 0 ∧ t.dev.scaler.boot = .reset) ∧
  (∀ (s : State), s.dev.pwr.stages = true → s.dev.pwr.input = true → s.dev.pwr.state ≠ 4 → s.dev.pwr.cold = false → s.dev.pins.mrstLow = false → s.dev.scaler.boot ≠ .hold →
    ∃ t, exec (.warmReset true) s = .next t ∧ t.dev.pwr.state = 0 ∧ t.dev.scaler.boot = .imageRead) ∧
  (∀ (s : State), s.dev.pwr.stages = true → s.dev.pwr.state ≠ 4 → ∀ c ∈ [Instr.uvResetTrip, Instr.ovTrip, Instr.thermalTrip], ∃ t, exec c s = .next t ∧ t.dev.pwr.stages = false ∧ t.dev.pwr.state = 0 ∧ t.dev.scaler.boot = .reset ∧
    ∀ xa xb, ∃ u, (exec .tripRestart t = .next u ∨ exec (.coldReset true xa xb true) t = .next u) ∧ u.dev.pwr.stages = true ∧ u.dev.pwr.state = 0 ∧ u.dev.scaler.boot = .reset ∧ u.dev.pwr.cold = true)
end

