-- ==== Sys2Proof/Laws/State.lean ====
section
/-! SUPPORT. The updates of the state: for each shared update that changes one field of the device, what every field then holds. -/

namespace Sys2Proof.Machine

/-! ### The state -/

@[simp] theorem State.dev_mk (d : Dev) (p : List Instr) : (State.mk d p).dev = d := rfl
@[simp] theorem State.pending_mk (d : Dev) (p : List Instr) : (State.mk d p).pending = p := rfl
@[simp] theorem State.reset_dev : State.reset.dev = Dev.init := rfl
@[simp] theorem State.reset_pending : State.reset.pending = [] := rfl

/-- A command's answer is always a next state with the queue as it was. -/
@[simp] theorem onDev_eq (s : State) (f : Dev → Dev) : s.onDev f = .next { s with dev := f s.dev } := rfl

/-! ### setFld -/

@[simp] theorem setFld_clk (d : Dev) (f : Fld) (i v : Nat) : (d.setFld f i v).clk = d.clk := rfl
@[simp] theorem setFld_freeCtr (d : Dev) (f : Fld) (i v : Nat) : (d.setFld f i v).freeCtr = d.freeCtr := rfl
@[simp] theorem setFld_host (d : Dev) (f : Fld) (i v : Nat) : (d.setFld f i v).host = d.host := rfl
@[simp] theorem setFld_ring (d : Dev) (f : Fld) (i v : Nat) : (d.setFld f i v).ring = d.ring := rfl
@[simp] theorem setFld_links (d : Dev) (f : Fld) (i v : Nat) : (d.setFld f i v).links = d.links := rfl
@[simp] theorem setFld_flt (d : Dev) (f : Fld) (i v : Nat) : (d.setFld f i v).flt = d.flt := rfl
@[simp] theorem setFld_tally (d : Dev) (f : Fld) (i v : Nat) : (d.setFld f i v).tally = d.tally := rfl
@[simp] theorem setFld_tel (d : Dev) (f : Fld) (i v : Nat) : (d.setFld f i v).tel = d.tel := rfl
@[simp] theorem setFld_ports (d : Dev) (f : Fld) (i v : Nat) : (d.setFld f i v).ports = d.ports := rfl
@[simp] theorem setFld_slices (d : Dev) (f : Fld) (i v : Nat) : (d.setFld f i v).slices = d.slices := rfl
@[simp] theorem setFld_scaler (d : Dev) (f : Fld) (i v : Nat) : (d.setFld f i v).scaler = d.scaler := rfl
@[simp] theorem setFld_mill (d : Dev) (f : Fld) (i v : Nat) : (d.setFld f i v).mill = d.mill := rfl
@[simp] theorem setFld_mem (d : Dev) (f : Fld) (i v : Nat) : (d.setFld f i v).mem = d.mem := rfl
@[simp] theorem setFld_skid (d : Dev) (f : Fld) (i v : Nat) : (d.setFld f i v).skid = d.skid := rfl
@[simp] theorem setFld_path (d : Dev) (f : Fld) (i v : Nat) : (d.setFld f i v).path = d.path := rfl
@[simp] theorem setFld_bark (d : Dev) (f : Fld) (i v : Nat) : (d.setFld f i v).bark = d.bark := rfl
@[simp] theorem setFld_kerf (d : Dev) (f : Fld) (i v : Nat) : (d.setFld f i v).kerf = d.kerf := rfl
@[simp] theorem setFld_nvm (d : Dev) (f : Fld) (i v : Nat) : (d.setFld f i v).nvm = d.nvm := rfl
@[simp] theorem setFld_cord (d : Dev) (f : Fld) (i v : Nat) : (d.setFld f i v).cord = d.cord := rfl
@[simp] theorem setFld_pwr (d : Dev) (f : Fld) (i v : Nat) : (d.setFld f i v).pwr = d.pwr := rfl
@[simp] theorem setFld_lanes (d : Dev) (f : Fld) (i v : Nat) : (d.setFld f i v).lanes = d.lanes := rfl
@[simp] theorem setFld_pins (d : Dev) (f : Fld) (i v : Nat) : (d.setFld f i v).pins = d.pins := rfl
@[simp] theorem setFld_out (d : Dev) (f : Fld) (i v : Nat) : (d.setFld f i v).out = d.out := rfl

/-! ### setFlag -/

@[simp] theorem setFlag_clk (d : Dev) (f : Fld) (i : Nat) (b : Bool) : (d.setFlag f i b).clk = d.clk := rfl
@[simp] theorem setFlag_freeCtr (d : Dev) (f : Fld) (i : Nat) (b : Bool) : (d.setFlag f i b).freeCtr = d.freeCtr := rfl
@[simp] theorem setFlag_host (d : Dev) (f : Fld) (i : Nat) (b : Bool) : (d.setFlag f i b).host = d.host := rfl
@[simp] theorem setFlag_ring (d : Dev) (f : Fld) (i : Nat) (b : Bool) : (d.setFlag f i b).ring = d.ring := rfl
@[simp] theorem setFlag_links (d : Dev) (f : Fld) (i : Nat) (b : Bool) : (d.setFlag f i b).links = d.links := rfl
@[simp] theorem setFlag_flt (d : Dev) (f : Fld) (i : Nat) (b : Bool) : (d.setFlag f i b).flt = d.flt := rfl
@[simp] theorem setFlag_tally (d : Dev) (f : Fld) (i : Nat) (b : Bool) : (d.setFlag f i b).tally = d.tally := rfl
@[simp] theorem setFlag_tel (d : Dev) (f : Fld) (i : Nat) (b : Bool) : (d.setFlag f i b).tel = d.tel := rfl
@[simp] theorem setFlag_ports (d : Dev) (f : Fld) (i : Nat) (b : Bool) : (d.setFlag f i b).ports = d.ports := rfl
@[simp] theorem setFlag_slices (d : Dev) (f : Fld) (i : Nat) (b : Bool) : (d.setFlag f i b).slices = d.slices := rfl
@[simp] theorem setFlag_scaler (d : Dev) (f : Fld) (i : Nat) (b : Bool) : (d.setFlag f i b).scaler = d.scaler := rfl
@[simp] theorem setFlag_mill (d : Dev) (f : Fld) (i : Nat) (b : Bool) : (d.setFlag f i b).mill = d.mill := rfl
@[simp] theorem setFlag_mem (d : Dev) (f : Fld) (i : Nat) (b : Bool) : (d.setFlag f i b).mem = d.mem := rfl
@[simp] theorem setFlag_skid (d : Dev) (f : Fld) (i : Nat) (b : Bool) : (d.setFlag f i b).skid = d.skid := rfl
@[simp] theorem setFlag_path (d : Dev) (f : Fld) (i : Nat) (b : Bool) : (d.setFlag f i b).path = d.path := rfl
@[simp] theorem setFlag_bark (d : Dev) (f : Fld) (i : Nat) (b : Bool) : (d.setFlag f i b).bark = d.bark := rfl
@[simp] theorem setFlag_kerf (d : Dev) (f : Fld) (i : Nat) (b : Bool) : (d.setFlag f i b).kerf = d.kerf := rfl
@[simp] theorem setFlag_nvm (d : Dev) (f : Fld) (i : Nat) (b : Bool) : (d.setFlag f i b).nvm = d.nvm := rfl
@[simp] theorem setFlag_cord (d : Dev) (f : Fld) (i : Nat) (b : Bool) : (d.setFlag f i b).cord = d.cord := rfl
@[simp] theorem setFlag_pwr (d : Dev) (f : Fld) (i : Nat) (b : Bool) : (d.setFlag f i b).pwr = d.pwr := rfl
@[simp] theorem setFlag_lanes (d : Dev) (f : Fld) (i : Nat) (b : Bool) : (d.setFlag f i b).lanes = d.lanes := rfl
@[simp] theorem setFlag_pins (d : Dev) (f : Fld) (i : Nat) (b : Bool) : (d.setFlag f i b).pins = d.pins := rfl
@[simp] theorem setFlag_out (d : Dev) (f : Fld) (i : Nat) (b : Bool) : (d.setFlag f i b).out = d.out := rfl

/-! ### bumpFld -/

@[simp] theorem bumpFld_clk (d : Dev) (f : Fld) (i n : Nat) : (d.bumpFld f i n).clk = d.clk := rfl
@[simp] theorem bumpFld_freeCtr (d : Dev) (f : Fld) (i n : Nat) : (d.bumpFld f i n).freeCtr = d.freeCtr := rfl
@[simp] theorem bumpFld_host (d : Dev) (f : Fld) (i n : Nat) : (d.bumpFld f i n).host = d.host := rfl
@[simp] theorem bumpFld_ring (d : Dev) (f : Fld) (i n : Nat) : (d.bumpFld f i n).ring = d.ring := rfl
@[simp] theorem bumpFld_links (d : Dev) (f : Fld) (i n : Nat) : (d.bumpFld f i n).links = d.links := rfl
@[simp] theorem bumpFld_flt (d : Dev) (f : Fld) (i n : Nat) : (d.bumpFld f i n).flt = d.flt := rfl
@[simp] theorem bumpFld_tally (d : Dev) (f : Fld) (i n : Nat) : (d.bumpFld f i n).tally = d.tally := rfl
@[simp] theorem bumpFld_tel (d : Dev) (f : Fld) (i n : Nat) : (d.bumpFld f i n).tel = d.tel := rfl
@[simp] theorem bumpFld_ports (d : Dev) (f : Fld) (i n : Nat) : (d.bumpFld f i n).ports = d.ports := rfl
@[simp] theorem bumpFld_slices (d : Dev) (f : Fld) (i n : Nat) : (d.bumpFld f i n).slices = d.slices := rfl
@[simp] theorem bumpFld_scaler (d : Dev) (f : Fld) (i n : Nat) : (d.bumpFld f i n).scaler = d.scaler := rfl
@[simp] theorem bumpFld_mill (d : Dev) (f : Fld) (i n : Nat) : (d.bumpFld f i n).mill = d.mill := rfl
@[simp] theorem bumpFld_mem (d : Dev) (f : Fld) (i n : Nat) : (d.bumpFld f i n).mem = d.mem := rfl
@[simp] theorem bumpFld_skid (d : Dev) (f : Fld) (i n : Nat) : (d.bumpFld f i n).skid = d.skid := rfl
@[simp] theorem bumpFld_path (d : Dev) (f : Fld) (i n : Nat) : (d.bumpFld f i n).path = d.path := rfl
@[simp] theorem bumpFld_bark (d : Dev) (f : Fld) (i n : Nat) : (d.bumpFld f i n).bark = d.bark := rfl
@[simp] theorem bumpFld_kerf (d : Dev) (f : Fld) (i n : Nat) : (d.bumpFld f i n).kerf = d.kerf := rfl
@[simp] theorem bumpFld_nvm (d : Dev) (f : Fld) (i n : Nat) : (d.bumpFld f i n).nvm = d.nvm := rfl
@[simp] theorem bumpFld_cord (d : Dev) (f : Fld) (i n : Nat) : (d.bumpFld f i n).cord = d.cord := rfl
@[simp] theorem bumpFld_pwr (d : Dev) (f : Fld) (i n : Nat) : (d.bumpFld f i n).pwr = d.pwr := rfl
@[simp] theorem bumpFld_lanes (d : Dev) (f : Fld) (i n : Nat) : (d.bumpFld f i n).lanes = d.lanes := rfl
@[simp] theorem bumpFld_pins (d : Dev) (f : Fld) (i n : Nat) : (d.bumpFld f i n).pins = d.pins := rfl
@[simp] theorem bumpFld_out (d : Dev) (f : Fld) (i n : Nat) : (d.bumpFld f i n).out = d.out := rfl

/-! ### resetRegs -/

@[simp] theorem resetRegs_clk (d : Dev) (k : ResetKind) (c : Kept → Nat → Bool) : (d.resetRegs k c).clk = d.clk := rfl
@[simp] theorem resetRegs_freeCtr (d : Dev) (k : ResetKind) (c : Kept → Nat → Bool) : (d.resetRegs k c).freeCtr = d.freeCtr := rfl
@[simp] theorem resetRegs_host (d : Dev) (k : ResetKind) (c : Kept → Nat → Bool) : (d.resetRegs k c).host = d.host := rfl
@[simp] theorem resetRegs_ring (d : Dev) (k : ResetKind) (c : Kept → Nat → Bool) : (d.resetRegs k c).ring = d.ring := rfl
@[simp] theorem resetRegs_links (d : Dev) (k : ResetKind) (c : Kept → Nat → Bool) : (d.resetRegs k c).links = d.links := rfl
@[simp] theorem resetRegs_flt (d : Dev) (k : ResetKind) (c : Kept → Nat → Bool) : (d.resetRegs k c).flt = d.flt := rfl
@[simp] theorem resetRegs_tally (d : Dev) (k : ResetKind) (c : Kept → Nat → Bool) : (d.resetRegs k c).tally = d.tally := rfl
@[simp] theorem resetRegs_tel (d : Dev) (k : ResetKind) (c : Kept → Nat → Bool) : (d.resetRegs k c).tel = d.tel := rfl
@[simp] theorem resetRegs_ports (d : Dev) (k : ResetKind) (c : Kept → Nat → Bool) : (d.resetRegs k c).ports = d.ports := rfl
@[simp] theorem resetRegs_slices (d : Dev) (k : ResetKind) (c : Kept → Nat → Bool) : (d.resetRegs k c).slices = d.slices := rfl
@[simp] theorem resetRegs_scaler (d : Dev) (k : ResetKind) (c : Kept → Nat → Bool) : (d.resetRegs k c).scaler = d.scaler := rfl
@[simp] theorem resetRegs_mill (d : Dev) (k : ResetKind) (c : Kept → Nat → Bool) : (d.resetRegs k c).mill = d.mill := rfl
@[simp] theorem resetRegs_mem (d : Dev) (k : ResetKind) (c : Kept → Nat → Bool) : (d.resetRegs k c).mem = d.mem := rfl
@[simp] theorem resetRegs_skid (d : Dev) (k : ResetKind) (c : Kept → Nat → Bool) : (d.resetRegs k c).skid = d.skid := rfl
@[simp] theorem resetRegs_path (d : Dev) (k : ResetKind) (c : Kept → Nat → Bool) : (d.resetRegs k c).path = d.path := rfl
@[simp] theorem resetRegs_bark (d : Dev) (k : ResetKind) (c : Kept → Nat → Bool) : (d.resetRegs k c).bark = d.bark := rfl
@[simp] theorem resetRegs_kerf (d : Dev) (k : ResetKind) (c : Kept → Nat → Bool) : (d.resetRegs k c).kerf = d.kerf := rfl
@[simp] theorem resetRegs_nvm (d : Dev) (k : ResetKind) (c : Kept → Nat → Bool) : (d.resetRegs k c).nvm = d.nvm := rfl
@[simp] theorem resetRegs_cord (d : Dev) (k : ResetKind) (c : Kept → Nat → Bool) : (d.resetRegs k c).cord = d.cord := rfl
@[simp] theorem resetRegs_pwr (d : Dev) (k : ResetKind) (c : Kept → Nat → Bool) : (d.resetRegs k c).pwr = d.pwr := rfl
@[simp] theorem resetRegs_lanes (d : Dev) (k : ResetKind) (c : Kept → Nat → Bool) : (d.resetRegs k c).lanes = d.lanes := rfl
@[simp] theorem resetRegs_pins (d : Dev) (k : ResetKind) (c : Kept → Nat → Bool) : (d.resetRegs k c).pins = d.pins := rfl
@[simp] theorem resetRegs_out (d : Dev) (k : ResetKind) (c : Kept → Nat → Bool) : (d.resetRegs k c).out = d.out := rfl

/-! ### emit -/

@[simp] theorem emit_clk (d : Dev) (o : Out) : (d.emit o).clk = d.clk := rfl
@[simp] theorem emit_freeCtr (d : Dev) (o : Out) : (d.emit o).freeCtr = d.freeCtr := rfl
@[simp] theorem emit_regs (d : Dev) (o : Out) : (d.emit o).regs = d.regs := rfl
@[simp] theorem emit_host (d : Dev) (o : Out) : (d.emit o).host = d.host := rfl
@[simp] theorem emit_ring (d : Dev) (o : Out) : (d.emit o).ring = d.ring := rfl
@[simp] theorem emit_links (d : Dev) (o : Out) : (d.emit o).links = d.links := rfl
@[simp] theorem emit_flt (d : Dev) (o : Out) : (d.emit o).flt = d.flt := rfl
@[simp] theorem emit_tally (d : Dev) (o : Out) : (d.emit o).tally = d.tally := rfl
@[simp] theorem emit_tel (d : Dev) (o : Out) : (d.emit o).tel = d.tel := rfl
@[simp] theorem emit_ports (d : Dev) (o : Out) : (d.emit o).ports = d.ports := rfl
@[simp] theorem emit_slices (d : Dev) (o : Out) : (d.emit o).slices = d.slices := rfl
@[simp] theorem emit_scaler (d : Dev) (o : Out) : (d.emit o).scaler = d.scaler := rfl
@[simp] theorem emit_mill (d : Dev) (o : Out) : (d.emit o).mill = d.mill := rfl
@[simp] theorem emit_mem (d : Dev) (o : Out) : (d.emit o).mem = d.mem := rfl
@[simp] theorem emit_skid (d : Dev) (o : Out) : (d.emit o).skid = d.skid := rfl
@[simp] theorem emit_path (d : Dev) (o : Out) : (d.emit o).path = d.path := rfl
@[simp] theorem emit_bark (d : Dev) (o : Out) : (d.emit o).bark = d.bark := rfl
@[simp] theorem emit_kerf (d : Dev) (o : Out) : (d.emit o).kerf = d.kerf := rfl
@[simp] theorem emit_nvm (d : Dev) (o : Out) : (d.emit o).nvm = d.nvm := rfl
@[simp] theorem emit_cord (d : Dev) (o : Out) : (d.emit o).cord = d.cord := rfl
@[simp] theorem emit_pwr (d : Dev) (o : Out) : (d.emit o).pwr = d.pwr := rfl
@[simp] theorem emit_lanes (d : Dev) (o : Out) : (d.emit o).lanes = d.lanes := rfl
@[simp] theorem emit_pins (d : Dev) (o : Out) : (d.emit o).pins = d.pins := rfl

/-! ### modPort -/

@[simp] theorem modPort_clk (d : Dev) (p : Nat) (f : Port → Port) : (d.modPort p f).clk = d.clk := rfl
@[simp] theorem modPort_freeCtr (d : Dev) (p : Nat) (f : Port → Port) : (d.modPort p f).freeCtr = d.freeCtr := rfl
@[simp] theorem modPort_regs (d : Dev) (p : Nat) (f : Port → Port) : (d.modPort p f).regs = d.regs := rfl
@[simp] theorem modPort_host (d : Dev) (p : Nat) (f : Port → Port) : (d.modPort p f).host = d.host := rfl
@[simp] theorem modPort_ring (d : Dev) (p : Nat) (f : Port → Port) : (d.modPort p f).ring = d.ring := rfl
@[simp] theorem modPort_links (d : Dev) (p : Nat) (f : Port → Port) : (d.modPort p f).links = d.links := rfl
@[simp] theorem modPort_flt (d : Dev) (p : Nat) (f : Port → Port) : (d.modPort p f).flt = d.flt := rfl
@[simp] theorem modPort_tally (d : Dev) (p : Nat) (f : Port → Port) : (d.modPort p f).tally = d.tally := rfl
@[simp] theorem modPort_tel (d : Dev) (p : Nat) (f : Port → Port) : (d.modPort p f).tel = d.tel := rfl
@[simp] theorem modPort_slices (d : Dev) (p : Nat) (f : Port → Port) : (d.modPort p f).slices = d.slices := rfl
@[simp] theorem modPort_scaler (d : Dev) (p : Nat) (f : Port → Port) : (d.modPort p f).scaler = d.scaler := rfl
@[simp] theorem modPort_mill (d : Dev) (p : Nat) (f : Port → Port) : (d.modPort p f).mill = d.mill := rfl
@[simp] theorem modPort_mem (d : Dev) (p : Nat) (f : Port → Port) : (d.modPort p f).mem = d.mem := rfl
@[simp] theorem modPort_skid (d : Dev) (p : Nat) (f : Port → Port) : (d.modPort p f).skid = d.skid := rfl
@[simp] theorem modPort_path (d : Dev) (p : Nat) (f : Port → Port) : (d.modPort p f).path = d.path := rfl
@[simp] theorem modPort_bark (d : Dev) (p : Nat) (f : Port → Port) : (d.modPort p f).bark = d.bark := rfl
@[simp] theorem modPort_kerf (d : Dev) (p : Nat) (f : Port → Port) : (d.modPort p f).kerf = d.kerf := rfl
@[simp] theorem modPort_nvm (d : Dev) (p : Nat) (f : Port → Port) : (d.modPort p f).nvm = d.nvm := rfl
@[simp] theorem modPort_cord (d : Dev) (p : Nat) (f : Port → Port) : (d.modPort p f).cord = d.cord := rfl
@[simp] theorem modPort_pwr (d : Dev) (p : Nat) (f : Port → Port) : (d.modPort p f).pwr = d.pwr := rfl
@[simp] theorem modPort_lanes (d : Dev) (p : Nat) (f : Port → Port) : (d.modPort p f).lanes = d.lanes := rfl
@[simp] theorem modPort_pins (d : Dev) (p : Nat) (f : Port → Port) : (d.modPort p f).pins = d.pins := rfl
@[simp] theorem modPort_out (d : Dev) (p : Nat) (f : Port → Port) : (d.modPort p f).out = d.out := rfl

/-! ### modSlice -/

@[simp] theorem modSlice_clk (d : Dev) (s : Nat) (f : Slice → Slice) : (d.modSlice s f).clk = d.clk := rfl
@[simp] theorem modSlice_freeCtr (d : Dev) (s : Nat) (f : Slice → Slice) : (d.modSlice s f).freeCtr = d.freeCtr := rfl
@[simp] theorem modSlice_regs (d : Dev) (s : Nat) (f : Slice → Slice) : (d.modSlice s f).regs = d.regs := rfl
@[simp] theorem modSlice_host (d : Dev) (s : Nat) (f : Slice → Slice) : (d.modSlice s f).host = d.host := rfl
@[simp] theorem modSlice_ring (d : Dev) (s : Nat) (f : Slice → Slice) : (d.modSlice s f).ring = d.ring := rfl
@[simp] theorem modSlice_links (d : Dev) (s : Nat) (f : Slice → Slice) : (d.modSlice s f).links = d.links := rfl
@[simp] theorem modSlice_flt (d : Dev) (s : Nat) (f : Slice → Slice) : (d.modSlice s f).flt = d.flt := rfl
@[simp] theorem modSlice_tally (d : Dev) (s : Nat) (f : Slice → Slice) : (d.modSlice s f).tally = d.tally := rfl
@[simp] theorem modSlice_tel (d : Dev) (s : Nat) (f : Slice → Slice) : (d.modSlice s f).tel = d.tel := rfl
@[simp] theorem modSlice_ports (d : Dev) (s : Nat) (f : Slice → Slice) : (d.modSlice s f).ports = d.ports := rfl
@[simp] theorem modSlice_scaler (d : Dev) (s : Nat) (f : Slice → Slice) : (d.modSlice s f).scaler = d.scaler := rfl
@[simp] theorem modSlice_mill (d : Dev) (s : Nat) (f : Slice → Slice) : (d.modSlice s f).mill = d.mill := rfl
@[simp] theorem modSlice_mem (d : Dev) (s : Nat) (f : Slice → Slice) : (d.modSlice s f).mem = d.mem := rfl
@[simp] theorem modSlice_skid (d : Dev) (s : Nat) (f : Slice → Slice) : (d.modSlice s f).skid = d.skid := rfl
@[simp] theorem modSlice_path (d : Dev) (s : Nat) (f : Slice → Slice) : (d.modSlice s f).path = d.path := rfl
@[simp] theorem modSlice_bark (d : Dev) (s : Nat) (f : Slice → Slice) : (d.modSlice s f).bark = d.bark := rfl
@[simp] theorem modSlice_kerf (d : Dev) (s : Nat) (f : Slice → Slice) : (d.modSlice s f).kerf = d.kerf := rfl
@[simp] theorem modSlice_nvm (d : Dev) (s : Nat) (f : Slice → Slice) : (d.modSlice s f).nvm = d.nvm := rfl
@[simp] theorem modSlice_cord (d : Dev) (s : Nat) (f : Slice → Slice) : (d.modSlice s f).cord = d.cord := rfl
@[simp] theorem modSlice_pwr (d : Dev) (s : Nat) (f : Slice → Slice) : (d.modSlice s f).pwr = d.pwr := rfl
@[simp] theorem modSlice_lanes (d : Dev) (s : Nat) (f : Slice → Slice) : (d.modSlice s f).lanes = d.lanes := rfl
@[simp] theorem modSlice_pins (d : Dev) (s : Nat) (f : Slice → Slice) : (d.modSlice s f).pins = d.pins := rfl
@[simp] theorem modSlice_out (d : Dev) (s : Nat) (f : Slice → Slice) : (d.modSlice s f).out = d.out := rfl

@[simp] theorem emit_out (d : Dev) (o : Out) : (d.emit o).out = o :: d.out := rfl

/-! ### holdMsg -/

@[simp] theorem holdMsg_clk (d : Dev) (k c n : Nat) : (d.holdMsg k c n).clk = d.clk := rfl
@[simp] theorem holdMsg_freeCtr (d : Dev) (k c n : Nat) : (d.holdMsg k c n).freeCtr = d.freeCtr := rfl
@[simp] theorem holdMsg_regs (d : Dev) (k c n : Nat) : (d.holdMsg k c n).regs = d.regs := rfl
@[simp] theorem holdMsg_host (d : Dev) (k c n : Nat) : (d.holdMsg k c n).host = d.host := rfl
@[simp] theorem holdMsg_ring (d : Dev) (k c n : Nat) : (d.holdMsg k c n).ring = d.ring := rfl
@[simp] theorem holdMsg_flt (d : Dev) (k c n : Nat) : (d.holdMsg k c n).flt = d.flt := rfl
@[simp] theorem holdMsg_tally (d : Dev) (k c n : Nat) : (d.holdMsg k c n).tally = d.tally := rfl
@[simp] theorem holdMsg_tel (d : Dev) (k c n : Nat) : (d.holdMsg k c n).tel = d.tel := rfl
@[simp] theorem holdMsg_ports (d : Dev) (k c n : Nat) : (d.holdMsg k c n).ports = d.ports := rfl
@[simp] theorem holdMsg_slices (d : Dev) (k c n : Nat) : (d.holdMsg k c n).slices = d.slices := rfl
@[simp] theorem holdMsg_scaler (d : Dev) (k c n : Nat) : (d.holdMsg k c n).scaler = d.scaler := rfl
@[simp] theorem holdMsg_mill (d : Dev) (k c n : Nat) : (d.holdMsg k c n).mill = d.mill := rfl
@[simp] theorem holdMsg_mem (d : Dev) (k c n : Nat) : (d.holdMsg k c n).mem = d.mem := rfl
@[simp] theorem holdMsg_skid (d : Dev) (k c n : Nat) : (d.holdMsg k c n).skid = d.skid := rfl
@[simp] theorem holdMsg_path (d : Dev) (k c n : Nat) : (d.holdMsg k c n).path = d.path := rfl
@[simp] theorem holdMsg_bark (d : Dev) (k c n : Nat) : (d.holdMsg k c n).bark = d.bark := rfl
@[simp] theorem holdMsg_kerf (d : Dev) (k c n : Nat) : (d.holdMsg k c n).kerf = d.kerf := rfl
@[simp] theorem holdMsg_nvm (d : Dev) (k c n : Nat) : (d.holdMsg k c n).nvm = d.nvm := rfl
@[simp] theorem holdMsg_cord (d : Dev) (k c n : Nat) : (d.holdMsg k c n).cord = d.cord := rfl
@[simp] theorem holdMsg_pwr (d : Dev) (k c n : Nat) : (d.holdMsg k c n).pwr = d.pwr := rfl
@[simp] theorem holdMsg_lanes (d : Dev) (k c n : Nat) : (d.holdMsg k c n).lanes = d.lanes := rfl
@[simp] theorem holdMsg_pins (d : Dev) (k c n : Nat) : (d.holdMsg k c n).pins = d.pins := rfl
@[simp] theorem holdMsg_out (d : Dev) (k c n : Nat) : (d.holdMsg k c n).out = d.out := rfl

/-- A held message stands behind those held before it (R27). -/
@[simp] theorem holdMsg_links (d : Dev) (k c n : Nat) :
    (d.holdMsg k c n).links = { d.links with msgs := d.links.msgs ++ [(k, c, n)] } := rfl

/-! ### wakeReplicas -/

@[simp] theorem wakeReplicas_clk (d : Dev) : (d.wakeReplicas).clk = d.clk := rfl
@[simp] theorem wakeReplicas_freeCtr (d : Dev) : (d.wakeReplicas).freeCtr = d.freeCtr := rfl
@[simp] theorem wakeReplicas_regs (d : Dev) : (d.wakeReplicas).regs = d.regs := rfl
@[simp] theorem wakeReplicas_host (d : Dev) : (d.wakeReplicas).host = d.host := rfl
@[simp] theorem wakeReplicas_links (d : Dev) : (d.wakeReplicas).links = d.links := rfl
@[simp] theorem wakeReplicas_flt (d : Dev) : (d.wakeReplicas).flt = d.flt := rfl
@[simp] theorem wakeReplicas_tally (d : Dev) : (d.wakeReplicas).tally = d.tally := rfl
@[simp] theorem wakeReplicas_tel (d : Dev) : (d.wakeReplicas).tel = d.tel := rfl
@[simp] theorem wakeReplicas_ports (d : Dev) : (d.wakeReplicas).ports = d.ports := rfl
@[simp] theorem wakeReplicas_slices (d : Dev) : (d.wakeReplicas).slices = d.slices := rfl
@[simp] theorem wakeReplicas_scaler (d : Dev) : (d.wakeReplicas).scaler = d.scaler := rfl
@[simp] theorem wakeReplicas_mill (d : Dev) : (d.wakeReplicas).mill = d.mill := rfl
@[simp] theorem wakeReplicas_mem (d : Dev) : (d.wakeReplicas).mem = d.mem := rfl
@[simp] theorem wakeReplicas_skid (d : Dev) : (d.wakeReplicas).skid = d.skid := rfl
@[simp] theorem wakeReplicas_path (d : Dev) : (d.wakeReplicas).path = d.path := rfl
@[simp] theorem wakeReplicas_bark (d : Dev) : (d.wakeReplicas).bark = d.bark := rfl
@[simp] theorem wakeReplicas_kerf (d : Dev) : (d.wakeReplicas).kerf = d.kerf := rfl
@[simp] theorem wakeReplicas_nvm (d : Dev) : (d.wakeReplicas).nvm = d.nvm := rfl
@[simp] theorem wakeReplicas_cord (d : Dev) : (d.wakeReplicas).cord = d.cord := rfl
@[simp] theorem wakeReplicas_pwr (d : Dev) : (d.wakeReplicas).pwr = d.pwr := rfl
@[simp] theorem wakeReplicas_lanes (d : Dev) : (d.wakeReplicas).lanes = d.lanes := rfl
@[simp] theorem wakeReplicas_pins (d : Dev) : (d.wakeReplicas).pins = d.pins := rfl
@[simp] theorem wakeReplicas_out (d : Dev) : (d.wakeReplicas).out = d.out := rfl

/-! ### deriveIdentity -/

@[simp] theorem deriveIdentity_clk (d : Dev) : (d.deriveIdentity).clk = d.clk := rfl
@[simp] theorem deriveIdentity_freeCtr (d : Dev) : (d.deriveIdentity).freeCtr = d.freeCtr := rfl
@[simp] theorem deriveIdentity_regs (d : Dev) : (d.deriveIdentity).regs = d.regs := rfl
@[simp] theorem deriveIdentity_host (d : Dev) : (d.deriveIdentity).host = d.host := rfl
@[simp] theorem deriveIdentity_ring (d : Dev) : (d.deriveIdentity).ring = d.ring := rfl
@[simp] theorem deriveIdentity_links (d : Dev) : (d.deriveIdentity).links = d.links := rfl
@[simp] theorem deriveIdentity_flt (d : Dev) : (d.deriveIdentity).flt = d.flt := rfl
@[simp] theorem deriveIdentity_tally (d : Dev) : (d.deriveIdentity).tally = d.tally := rfl
@[simp] theorem deriveIdentity_tel (d : Dev) : (d.deriveIdentity).tel = d.tel := rfl
@[simp] theorem deriveIdentity_ports (d : Dev) : (d.deriveIdentity).ports = d.ports := rfl
@[simp] theorem deriveIdentity_slices (d : Dev) : (d.deriveIdentity).slices = d.slices := rfl
@[simp] theorem deriveIdentity_scaler (d : Dev) : (d.deriveIdentity).scaler = d.scaler := rfl
@[simp] theorem deriveIdentity_mill (d : Dev) : (d.deriveIdentity).mill = d.mill := rfl
@[simp] theorem deriveIdentity_mem (d : Dev) : (d.deriveIdentity).mem = d.mem := rfl
@[simp] theorem deriveIdentity_skid (d : Dev) : (d.deriveIdentity).skid = d.skid := rfl
@[simp] theorem deriveIdentity_path (d : Dev) : (d.deriveIdentity).path = d.path := rfl
@[simp] theorem deriveIdentity_kerf (d : Dev) : (d.deriveIdentity).kerf = d.kerf := rfl
@[simp] theorem deriveIdentity_nvm (d : Dev) : (d.deriveIdentity).nvm = d.nvm := rfl
@[simp] theorem deriveIdentity_cord (d : Dev) : (d.deriveIdentity).cord = d.cord := rfl
@[simp] theorem deriveIdentity_pwr (d : Dev) : (d.deriveIdentity).pwr = d.pwr := rfl
@[simp] theorem deriveIdentity_lanes (d : Dev) : (d.deriveIdentity).lanes = d.lanes := rfl
@[simp] theorem deriveIdentity_pins (d : Dev) : (d.deriveIdentity).pins = d.pins := rfl
@[simp] theorem deriveIdentity_out (d : Dev) : (d.deriveIdentity).out = d.out := rfl

/-- Bark holds the identity that its seed gives (R385). -/
@[simp] theorem deriveIdentity_ident (d : Dev) : d.deriveIdentity.bark.ident = some (identityOf Config.puf) := rfl

/-! ### Signals between dies -/

/-- A signal whose old route is being drained waits at its source (R27). -/
theorem signalFrom_held (d : Dev) (src : Node) (c n k : Nat) (h : d.heldLink src (coreNode c) = some k) :
    d.signalFrom src c n = d.holdMsg k c n := by simp [Dev.signalFrom, h]

/-- Any other signal reaches its counter. -/
theorem signalFrom_free (d : Dev) (src : Node) (c n : Nat) (h : d.heldLink src (coreNode c) = none) :
    d.signalFrom src c n = d.signal c n := by simp [Dev.signalFrom, h]

end Sys2Proof.Machine
end

