-- ==== Sys2Proof/Laws/Frames.lean ====
section
/-! SUPPORT. The frames of the operations that every chapter shares: which parts of the device each leaves as they are. -/

namespace Sys2Proof.Machine

/-! ### countN -/

@[simp] theorem countN_clk (d : Dev) (ev n : Nat) : (d.countN ev n).clk = d.clk := by
  unfold Dev.countN; dsimp only; split <;> (try split) <;> (try split) <;> (try split) <;> rfl
@[simp] theorem countN_freeCtr (d : Dev) (ev n : Nat) : (d.countN ev n).freeCtr = d.freeCtr := by
  unfold Dev.countN; dsimp only; split <;> (try split) <;> (try split) <;> (try split) <;> rfl
@[simp] theorem countN_regs (d : Dev) (ev n : Nat) : (d.countN ev n).regs = d.regs := by
  unfold Dev.countN; dsimp only; split <;> (try split) <;> (try split) <;> (try split) <;> rfl
@[simp] theorem countN_host (d : Dev) (ev n : Nat) : (d.countN ev n).host = d.host := by
  unfold Dev.countN; dsimp only; split <;> (try split) <;> (try split) <;> (try split) <;> rfl
@[simp] theorem countN_ring (d : Dev) (ev n : Nat) : (d.countN ev n).ring = d.ring := by
  unfold Dev.countN; dsimp only; split <;> (try split) <;> (try split) <;> (try split) <;> rfl
@[simp] theorem countN_links (d : Dev) (ev n : Nat) : (d.countN ev n).links = d.links := by
  unfold Dev.countN; dsimp only; split <;> (try split) <;> (try split) <;> (try split) <;> rfl
@[simp] theorem countN_flt (d : Dev) (ev n : Nat) : (d.countN ev n).flt = d.flt := by
  unfold Dev.countN; dsimp only; split <;> (try split) <;> (try split) <;> (try split) <;> rfl
@[simp] theorem countN_tel (d : Dev) (ev n : Nat) : (d.countN ev n).tel = d.tel := by
  unfold Dev.countN; dsimp only; split <;> (try split) <;> (try split) <;> (try split) <;> rfl
@[simp] theorem countN_ports (d : Dev) (ev n : Nat) : (d.countN ev n).ports = d.ports := by
  unfold Dev.countN; dsimp only; split <;> (try split) <;> (try split) <;> (try split) <;> rfl
@[simp] theorem countN_slices (d : Dev) (ev n : Nat) : (d.countN ev n).slices = d.slices := by
  unfold Dev.countN; dsimp only; split <;> (try split) <;> (try split) <;> (try split) <;> rfl
@[simp] theorem countN_scaler (d : Dev) (ev n : Nat) : (d.countN ev n).scaler = d.scaler := by
  unfold Dev.countN; dsimp only; split <;> (try split) <;> (try split) <;> (try split) <;> rfl
@[simp] theorem countN_mill (d : Dev) (ev n : Nat) : (d.countN ev n).mill = d.mill := by
  unfold Dev.countN; dsimp only; split <;> (try split) <;> (try split) <;> (try split) <;> rfl
@[simp] theorem countN_mem (d : Dev) (ev n : Nat) : (d.countN ev n).mem = d.mem := by
  unfold Dev.countN; dsimp only; split <;> (try split) <;> (try split) <;> (try split) <;> rfl
@[simp] theorem countN_skid (d : Dev) (ev n : Nat) : (d.countN ev n).skid = d.skid := by
  unfold Dev.countN; dsimp only; split <;> (try split) <;> (try split) <;> (try split) <;> rfl
@[simp] theorem countN_path (d : Dev) (ev n : Nat) : (d.countN ev n).path = d.path := by
  unfold Dev.countN; dsimp only; split <;> (try split) <;> (try split) <;> (try split) <;> rfl
@[simp] theorem countN_bark (d : Dev) (ev n : Nat) : (d.countN ev n).bark = d.bark := by
  unfold Dev.countN; dsimp only; split <;> (try split) <;> (try split) <;> (try split) <;> rfl
@[simp] theorem countN_kerf (d : Dev) (ev n : Nat) : (d.countN ev n).kerf = d.kerf := by
  unfold Dev.countN; dsimp only; split <;> (try split) <;> (try split) <;> (try split) <;> rfl
@[simp] theorem countN_nvm (d : Dev) (ev n : Nat) : (d.countN ev n).nvm = d.nvm := by
  unfold Dev.countN; dsimp only; split <;> (try split) <;> (try split) <;> (try split) <;> rfl
@[simp] theorem countN_cord (d : Dev) (ev n : Nat) : (d.countN ev n).cord = d.cord := by
  unfold Dev.countN; dsimp only; split <;> (try split) <;> (try split) <;> (try split) <;> rfl
@[simp] theorem countN_pwr (d : Dev) (ev n : Nat) : (d.countN ev n).pwr = d.pwr := by
  unfold Dev.countN; dsimp only; split <;> (try split) <;> (try split) <;> (try split) <;> rfl
@[simp] theorem countN_lanes (d : Dev) (ev n : Nat) : (d.countN ev n).lanes = d.lanes := by
  unfold Dev.countN; dsimp only; split <;> (try split) <;> (try split) <;> (try split) <;> rfl
@[simp] theorem countN_pins (d : Dev) (ev n : Nat) : (d.countN ev n).pins = d.pins := by
  unfold Dev.countN; dsimp only; split <;> (try split) <;> (try split) <;> (try split) <;> rfl
@[simp] theorem countN_out (d : Dev) (ev n : Nat) : (d.countN ev n).out = d.out := by
  unfold Dev.countN; dsimp only; split <;> (try split) <;> (try split) <;> (try split) <;> rfl

/-! ### count -/

@[simp] theorem count_clk (d : Dev) (ev : Nat) : (d.count ev).clk = d.clk := by
  unfold Dev.count; simp
@[simp] theorem count_freeCtr (d : Dev) (ev : Nat) : (d.count ev).freeCtr = d.freeCtr := by
  unfold Dev.count; simp
@[simp] theorem count_regs (d : Dev) (ev : Nat) : (d.count ev).regs = d.regs := by
  unfold Dev.count; simp
@[simp] theorem count_host (d : Dev) (ev : Nat) : (d.count ev).host = d.host := by
  unfold Dev.count; simp
@[simp] theorem count_ring (d : Dev) (ev : Nat) : (d.count ev).ring = d.ring := by
  unfold Dev.count; simp
@[simp] theorem count_links (d : Dev) (ev : Nat) : (d.count ev).links = d.links := by
  unfold Dev.count; simp
@[simp] theorem count_flt (d : Dev) (ev : Nat) : (d.count ev).flt = d.flt := by
  unfold Dev.count; simp
@[simp] theorem count_tel (d : Dev) (ev : Nat) : (d.count ev).tel = d.tel := by
  unfold Dev.count; simp
@[simp] theorem count_ports (d : Dev) (ev : Nat) : (d.count ev).ports = d.ports := by
  unfold Dev.count; simp
@[simp] theorem count_slices (d : Dev) (ev : Nat) : (d.count ev).slices = d.slices := by
  unfold Dev.count; simp
@[simp] theorem count_scaler (d : Dev) (ev : Nat) : (d.count ev).scaler = d.scaler := by
  unfold Dev.count; simp
@[simp] theorem count_mill (d : Dev) (ev : Nat) : (d.count ev).mill = d.mill := by
  unfold Dev.count; simp
@[simp] theorem count_mem (d : Dev) (ev : Nat) : (d.count ev).mem = d.mem := by
  unfold Dev.count; simp
@[simp] theorem count_skid (d : Dev) (ev : Nat) : (d.count ev).skid = d.skid := by
  unfold Dev.count; simp
@[simp] theorem count_path (d : Dev) (ev : Nat) : (d.count ev).path = d.path := by
  unfold Dev.count; simp
@[simp] theorem count_bark (d : Dev) (ev : Nat) : (d.count ev).bark = d.bark := by
  unfold Dev.count; simp
@[simp] theorem count_kerf (d : Dev) (ev : Nat) : (d.count ev).kerf = d.kerf := by
  unfold Dev.count; simp
@[simp] theorem count_nvm (d : Dev) (ev : Nat) : (d.count ev).nvm = d.nvm := by
  unfold Dev.count; simp
@[simp] theorem count_cord (d : Dev) (ev : Nat) : (d.count ev).cord = d.cord := by
  unfold Dev.count; simp
@[simp] theorem count_pwr (d : Dev) (ev : Nat) : (d.count ev).pwr = d.pwr := by
  unfold Dev.count; simp
@[simp] theorem count_lanes (d : Dev) (ev : Nat) : (d.count ev).lanes = d.lanes := by
  unfold Dev.count; simp
@[simp] theorem count_pins (d : Dev) (ev : Nat) : (d.count ev).pins = d.pins := by
  unfold Dev.count; simp
@[simp] theorem count_out (d : Dev) (ev : Nat) : (d.count ev).out = d.out := by
  unfold Dev.count; simp

/-! ### stream -/

@[simp] theorem stream_clk (d : Dev) (ty sr n : Nat) (b : List Byte) : (d.stream ty sr n b).clk = d.clk := by
  unfold Dev.stream; split <;> rfl
@[simp] theorem stream_freeCtr (d : Dev) (ty sr n : Nat) (b : List Byte) : (d.stream ty sr n b).freeCtr = d.freeCtr := by
  unfold Dev.stream; split <;> rfl
@[simp] theorem stream_regs (d : Dev) (ty sr n : Nat) (b : List Byte) : (d.stream ty sr n b).regs = d.regs := by
  unfold Dev.stream; split <;> rfl
@[simp] theorem stream_host (d : Dev) (ty sr n : Nat) (b : List Byte) : (d.stream ty sr n b).host = d.host := by
  unfold Dev.stream; split <;> rfl
@[simp] theorem stream_ring (d : Dev) (ty sr n : Nat) (b : List Byte) : (d.stream ty sr n b).ring = d.ring := by
  unfold Dev.stream; split <;> rfl
@[simp] theorem stream_links (d : Dev) (ty sr n : Nat) (b : List Byte) : (d.stream ty sr n b).links = d.links := by
  unfold Dev.stream; split <;> rfl
@[simp] theorem stream_flt (d : Dev) (ty sr n : Nat) (b : List Byte) : (d.stream ty sr n b).flt = d.flt := by
  unfold Dev.stream; split <;> rfl
@[simp] theorem stream_tally (d : Dev) (ty sr n : Nat) (b : List Byte) : (d.stream ty sr n b).tally = d.tally := by
  unfold Dev.stream; split <;> rfl
@[simp] theorem stream_ports (d : Dev) (ty sr n : Nat) (b : List Byte) : (d.stream ty sr n b).ports = d.ports := by
  unfold Dev.stream; split <;> rfl
@[simp] theorem stream_slices (d : Dev) (ty sr n : Nat) (b : List Byte) : (d.stream ty sr n b).slices = d.slices := by
  unfold Dev.stream; split <;> rfl
@[simp] theorem stream_scaler (d : Dev) (ty sr n : Nat) (b : List Byte) : (d.stream ty sr n b).scaler = d.scaler := by
  unfold Dev.stream; split <;> rfl
@[simp] theorem stream_mill (d : Dev) (ty sr n : Nat) (b : List Byte) : (d.stream ty sr n b).mill = d.mill := by
  unfold Dev.stream; split <;> rfl
@[simp] theorem stream_mem (d : Dev) (ty sr n : Nat) (b : List Byte) : (d.stream ty sr n b).mem = d.mem := by
  unfold Dev.stream; split <;> rfl
@[simp] theorem stream_skid (d : Dev) (ty sr n : Nat) (b : List Byte) : (d.stream ty sr n b).skid = d.skid := by
  unfold Dev.stream; split <;> rfl
@[simp] theorem stream_path (d : Dev) (ty sr n : Nat) (b : List Byte) : (d.stream ty sr n b).path = d.path := by
  unfold Dev.stream; split <;> rfl
@[simp] theorem stream_bark (d : Dev) (ty sr n : Nat) (b : List Byte) : (d.stream ty sr n b).bark = d.bark := by
  unfold Dev.stream; split <;> rfl
@[simp] theorem stream_kerf (d : Dev) (ty sr n : Nat) (b : List Byte) : (d.stream ty sr n b).kerf = d.kerf := by
  unfold Dev.stream; split <;> rfl
@[simp] theorem stream_nvm (d : Dev) (ty sr n : Nat) (b : List Byte) : (d.stream ty sr n b).nvm = d.nvm := by
  unfold Dev.stream; split <;> rfl
@[simp] theorem stream_cord (d : Dev) (ty sr n : Nat) (b : List Byte) : (d.stream ty sr n b).cord = d.cord := by
  unfold Dev.stream; split <;> rfl
@[simp] theorem stream_pwr (d : Dev) (ty sr n : Nat) (b : List Byte) : (d.stream ty sr n b).pwr = d.pwr := by
  unfold Dev.stream; split <;> rfl
@[simp] theorem stream_lanes (d : Dev) (ty sr n : Nat) (b : List Byte) : (d.stream ty sr n b).lanes = d.lanes := by
  unfold Dev.stream; split <;> rfl
@[simp] theorem stream_pins (d : Dev) (ty sr n : Nat) (b : List Byte) : (d.stream ty sr n b).pins = d.pins := by
  unfold Dev.stream; split <;> rfl
@[simp] theorem stream_out (d : Dev) (ty sr n : Nat) (b : List Byte) : (d.stream ty sr n b).out = d.out := by
  unfold Dev.stream; split <;> rfl

/-! ### record -/

@[simp] theorem record_clk (d : Dev) (ty sr : Nat) (b : List Byte) : (d.record ty sr b).clk = d.clk := by
  unfold Dev.record Dev.nextSeq; simp
@[simp] theorem record_freeCtr (d : Dev) (ty sr : Nat) (b : List Byte) : (d.record ty sr b).freeCtr = d.freeCtr := by
  unfold Dev.record Dev.nextSeq; simp
@[simp] theorem record_regs (d : Dev) (ty sr : Nat) (b : List Byte) : (d.record ty sr b).regs = d.regs := by
  unfold Dev.record Dev.nextSeq; simp
@[simp] theorem record_host (d : Dev) (ty sr : Nat) (b : List Byte) : (d.record ty sr b).host = d.host := by
  unfold Dev.record Dev.nextSeq; simp
@[simp] theorem record_ring (d : Dev) (ty sr : Nat) (b : List Byte) : (d.record ty sr b).ring = d.ring := by
  unfold Dev.record Dev.nextSeq; simp
@[simp] theorem record_links (d : Dev) (ty sr : Nat) (b : List Byte) : (d.record ty sr b).links = d.links := by
  unfold Dev.record Dev.nextSeq; simp
@[simp] theorem record_tally (d : Dev) (ty sr : Nat) (b : List Byte) : (d.record ty sr b).tally = d.tally := by
  unfold Dev.record Dev.nextSeq; simp
@[simp] theorem record_ports (d : Dev) (ty sr : Nat) (b : List Byte) : (d.record ty sr b).ports = d.ports := by
  unfold Dev.record Dev.nextSeq; simp
@[simp] theorem record_slices (d : Dev) (ty sr : Nat) (b : List Byte) : (d.record ty sr b).slices = d.slices := by
  unfold Dev.record Dev.nextSeq; simp
@[simp] theorem record_scaler (d : Dev) (ty sr : Nat) (b : List Byte) : (d.record ty sr b).scaler = d.scaler := by
  unfold Dev.record Dev.nextSeq; simp
@[simp] theorem record_mill (d : Dev) (ty sr : Nat) (b : List Byte) : (d.record ty sr b).mill = d.mill := by
  unfold Dev.record Dev.nextSeq; simp
@[simp] theorem record_mem (d : Dev) (ty sr : Nat) (b : List Byte) : (d.record ty sr b).mem = d.mem := by
  unfold Dev.record Dev.nextSeq; simp
@[simp] theorem record_skid (d : Dev) (ty sr : Nat) (b : List Byte) : (d.record ty sr b).skid = d.skid := by
  unfold Dev.record Dev.nextSeq; simp
@[simp] theorem record_path (d : Dev) (ty sr : Nat) (b : List Byte) : (d.record ty sr b).path = d.path := by
  unfold Dev.record Dev.nextSeq; simp
@[simp] theorem record_bark (d : Dev) (ty sr : Nat) (b : List Byte) : (d.record ty sr b).bark = d.bark := by
  unfold Dev.record Dev.nextSeq; simp
@[simp] theorem record_kerf (d : Dev) (ty sr : Nat) (b : List Byte) : (d.record ty sr b).kerf = d.kerf := by
  unfold Dev.record Dev.nextSeq; simp
@[simp] theorem record_nvm (d : Dev) (ty sr : Nat) (b : List Byte) : (d.record ty sr b).nvm = d.nvm := by
  unfold Dev.record Dev.nextSeq; simp
@[simp] theorem record_cord (d : Dev) (ty sr : Nat) (b : List Byte) : (d.record ty sr b).cord = d.cord := by
  unfold Dev.record Dev.nextSeq; simp
@[simp] theorem record_pwr (d : Dev) (ty sr : Nat) (b : List Byte) : (d.record ty sr b).pwr = d.pwr := by
  unfold Dev.record Dev.nextSeq; simp
@[simp] theorem record_lanes (d : Dev) (ty sr : Nat) (b : List Byte) : (d.record ty sr b).lanes = d.lanes := by
  unfold Dev.record Dev.nextSeq; simp
@[simp] theorem record_pins (d : Dev) (ty sr : Nat) (b : List Byte) : (d.record ty sr b).pins = d.pins := by
  unfold Dev.record Dev.nextSeq; simp
@[simp] theorem record_out (d : Dev) (ty sr : Nat) (b : List Byte) : (d.record ty sr b).out = d.out := by
  unfold Dev.record Dev.nextSeq; simp

/-! ### msix -/

@[simp] theorem msix_clk (d : Dev) (p : Nat) (k : FnKind) (v : Nat) : (d.msix p k v).clk = d.clk := by
  unfold Dev.msix; split <;> rfl
@[simp] theorem msix_freeCtr (d : Dev) (p : Nat) (k : FnKind) (v : Nat) : (d.msix p k v).freeCtr = d.freeCtr := by
  unfold Dev.msix; split <;> rfl
@[simp] theorem msix_regs (d : Dev) (p : Nat) (k : FnKind) (v : Nat) : (d.msix p k v).regs = d.regs := by
  unfold Dev.msix; split <;> rfl
@[simp] theorem msix_host (d : Dev) (p : Nat) (k : FnKind) (v : Nat) : (d.msix p k v).host = d.host := by
  unfold Dev.msix; split <;> rfl
@[simp] theorem msix_ring (d : Dev) (p : Nat) (k : FnKind) (v : Nat) : (d.msix p k v).ring = d.ring := by
  unfold Dev.msix; split <;> rfl
@[simp] theorem msix_links (d : Dev) (p : Nat) (k : FnKind) (v : Nat) : (d.msix p k v).links = d.links := by
  unfold Dev.msix; split <;> rfl
@[simp] theorem msix_flt (d : Dev) (p : Nat) (k : FnKind) (v : Nat) : (d.msix p k v).flt = d.flt := by
  unfold Dev.msix; split <;> rfl
@[simp] theorem msix_tally (d : Dev) (p : Nat) (k : FnKind) (v : Nat) : (d.msix p k v).tally = d.tally := by
  unfold Dev.msix; split <;> rfl
@[simp] theorem msix_tel (d : Dev) (p : Nat) (k : FnKind) (v : Nat) : (d.msix p k v).tel = d.tel := by
  unfold Dev.msix; split <;> rfl
@[simp] theorem msix_ports (d : Dev) (p : Nat) (k : FnKind) (v : Nat) : (d.msix p k v).ports = d.ports := by
  unfold Dev.msix; split <;> rfl
@[simp] theorem msix_slices (d : Dev) (p : Nat) (k : FnKind) (v : Nat) : (d.msix p k v).slices = d.slices := by
  unfold Dev.msix; split <;> rfl
@[simp] theorem msix_scaler (d : Dev) (p : Nat) (k : FnKind) (v : Nat) : (d.msix p k v).scaler = d.scaler := by
  unfold Dev.msix; split <;> rfl
@[simp] theorem msix_mill (d : Dev) (p : Nat) (k : FnKind) (v : Nat) : (d.msix p k v).mill = d.mill := by
  unfold Dev.msix; split <;> rfl
@[simp] theorem msix_mem (d : Dev) (p : Nat) (k : FnKind) (v : Nat) : (d.msix p k v).mem = d.mem := by
  unfold Dev.msix; split <;> rfl
@[simp] theorem msix_skid (d : Dev) (p : Nat) (k : FnKind) (v : Nat) : (d.msix p k v).skid = d.skid := by
  unfold Dev.msix; split <;> rfl
@[simp] theorem msix_path (d : Dev) (p : Nat) (k : FnKind) (v : Nat) : (d.msix p k v).path = d.path := by
  unfold Dev.msix; split <;> rfl
@[simp] theorem msix_bark (d : Dev) (p : Nat) (k : FnKind) (v : Nat) : (d.msix p k v).bark = d.bark := by
  unfold Dev.msix; split <;> rfl
@[simp] theorem msix_kerf (d : Dev) (p : Nat) (k : FnKind) (v : Nat) : (d.msix p k v).kerf = d.kerf := by
  unfold Dev.msix; split <;> rfl
@[simp] theorem msix_nvm (d : Dev) (p : Nat) (k : FnKind) (v : Nat) : (d.msix p k v).nvm = d.nvm := by
  unfold Dev.msix; split <;> rfl
@[simp] theorem msix_cord (d : Dev) (p : Nat) (k : FnKind) (v : Nat) : (d.msix p k v).cord = d.cord := by
  unfold Dev.msix; split <;> rfl
@[simp] theorem msix_pwr (d : Dev) (p : Nat) (k : FnKind) (v : Nat) : (d.msix p k v).pwr = d.pwr := by
  unfold Dev.msix; split <;> rfl
@[simp] theorem msix_lanes (d : Dev) (p : Nat) (k : FnKind) (v : Nat) : (d.msix p k v).lanes = d.lanes := by
  unfold Dev.msix; split <;> rfl
@[simp] theorem msix_pins (d : Dev) (p : Nat) (k : FnKind) (v : Nat) : (d.msix p k v).pins = d.pins := by
  unfold Dev.msix; split <;> rfl

theorem foldl_keep {α β γ : Type} (g : α → γ) (f : α → β → α) (h : ∀ a b, g (f a b) = g a) (l : List β) (a : α) :
    g (l.foldl f a) = g a := by
  induction l generalizing a with
  | nil => rfl
  | cons b l ih => simp [ih, h]

/-! ### fltIrq -/

@[simp] theorem fltIrq_clk (d : Dev) (c : FClass) : (d.fltIrq c).clk = d.clk := by
  unfold Dev.fltIrq; refine foldl_keep Dev.clk _ (fun a b => ?_) _ _; split <;> simp
@[simp] theorem fltIrq_freeCtr (d : Dev) (c : FClass) : (d.fltIrq c).freeCtr = d.freeCtr := by
  unfold Dev.fltIrq; refine foldl_keep Dev.freeCtr _ (fun a b => ?_) _ _; split <;> simp
@[simp] theorem fltIrq_regs (d : Dev) (c : FClass) : (d.fltIrq c).regs = d.regs := by
  unfold Dev.fltIrq; refine foldl_keep Dev.regs _ (fun a b => ?_) _ _; split <;> simp
@[simp] theorem fltIrq_host (d : Dev) (c : FClass) : (d.fltIrq c).host = d.host := by
  unfold Dev.fltIrq; refine foldl_keep Dev.host _ (fun a b => ?_) _ _; split <;> simp
@[simp] theorem fltIrq_ring (d : Dev) (c : FClass) : (d.fltIrq c).ring = d.ring := by
  unfold Dev.fltIrq; refine foldl_keep Dev.ring _ (fun a b => ?_) _ _; split <;> simp
@[simp] theorem fltIrq_links (d : Dev) (c : FClass) : (d.fltIrq c).links = d.links := by
  unfold Dev.fltIrq; refine foldl_keep Dev.links _ (fun a b => ?_) _ _; split <;> simp
@[simp] theorem fltIrq_flt (d : Dev) (c : FClass) : (d.fltIrq c).flt = d.flt := by
  unfold Dev.fltIrq; refine foldl_keep Dev.flt _ (fun a b => ?_) _ _; split <;> simp
@[simp] theorem fltIrq_tally (d : Dev) (c : FClass) : (d.fltIrq c).tally = d.tally := by
  unfold Dev.fltIrq; refine foldl_keep Dev.tally _ (fun a b => ?_) _ _; split <;> simp
@[simp] theorem fltIrq_tel (d : Dev) (c : FClass) : (d.fltIrq c).tel = d.tel := by
  unfold Dev.fltIrq; refine foldl_keep Dev.tel _ (fun a b => ?_) _ _; split <;> simp
@[simp] theorem fltIrq_ports (d : Dev) (c : FClass) : (d.fltIrq c).ports = d.ports := by
  unfold Dev.fltIrq; refine foldl_keep Dev.ports _ (fun a b => ?_) _ _; split <;> simp
@[simp] theorem fltIrq_slices (d : Dev) (c : FClass) : (d.fltIrq c).slices = d.slices := by
  unfold Dev.fltIrq; refine foldl_keep Dev.slices _ (fun a b => ?_) _ _; split <;> simp
@[simp] theorem fltIrq_scaler (d : Dev) (c : FClass) : (d.fltIrq c).scaler = d.scaler := by
  unfold Dev.fltIrq; refine foldl_keep Dev.scaler _ (fun a b => ?_) _ _; split <;> simp
@[simp] theorem fltIrq_mill (d : Dev) (c : FClass) : (d.fltIrq c).mill = d.mill := by
  unfold Dev.fltIrq; refine foldl_keep Dev.mill _ (fun a b => ?_) _ _; split <;> simp
@[simp] theorem fltIrq_mem (d : Dev) (c : FClass) : (d.fltIrq c).mem = d.mem := by
  unfold Dev.fltIrq; refine foldl_keep Dev.mem _ (fun a b => ?_) _ _; split <;> simp
@[simp] theorem fltIrq_skid (d : Dev) (c : FClass) : (d.fltIrq c).skid = d.skid := by
  unfold Dev.fltIrq; refine foldl_keep Dev.skid _ (fun a b => ?_) _ _; split <;> simp
@[simp] theorem fltIrq_path (d : Dev) (c : FClass) : (d.fltIrq c).path = d.path := by
  unfold Dev.fltIrq; refine foldl_keep Dev.path _ (fun a b => ?_) _ _; split <;> simp
@[simp] theorem fltIrq_bark (d : Dev) (c : FClass) : (d.fltIrq c).bark = d.bark := by
  unfold Dev.fltIrq; refine foldl_keep Dev.bark _ (fun a b => ?_) _ _; split <;> simp
@[simp] theorem fltIrq_kerf (d : Dev) (c : FClass) : (d.fltIrq c).kerf = d.kerf := by
  unfold Dev.fltIrq; refine foldl_keep Dev.kerf _ (fun a b => ?_) _ _; split <;> simp
@[simp] theorem fltIrq_nvm (d : Dev) (c : FClass) : (d.fltIrq c).nvm = d.nvm := by
  unfold Dev.fltIrq; refine foldl_keep Dev.nvm _ (fun a b => ?_) _ _; split <;> simp
@[simp] theorem fltIrq_cord (d : Dev) (c : FClass) : (d.fltIrq c).cord = d.cord := by
  unfold Dev.fltIrq; refine foldl_keep Dev.cord _ (fun a b => ?_) _ _; split <;> simp
@[simp] theorem fltIrq_pwr (d : Dev) (c : FClass) : (d.fltIrq c).pwr = d.pwr := by
  unfold Dev.fltIrq; refine foldl_keep Dev.pwr _ (fun a b => ?_) _ _; split <;> simp
@[simp] theorem fltIrq_lanes (d : Dev) (c : FClass) : (d.fltIrq c).lanes = d.lanes := by
  unfold Dev.fltIrq; refine foldl_keep Dev.lanes _ (fun a b => ?_) _ _; split <;> simp
@[simp] theorem fltIrq_pins (d : Dev) (c : FClass) : (d.fltIrq c).pins = d.pins := by
  unfold Dev.fltIrq; refine foldl_keep Dev.pins _ (fun a b => ?_) _ _; split <;> simp

/-! ### fatalStop -/

@[simp] theorem fatalStop_clk (d : Dev) : (d.fatalStop).clk = d.clk := by
  unfold Dev.fatalStop; rfl
@[simp] theorem fatalStop_freeCtr (d : Dev) : (d.fatalStop).freeCtr = d.freeCtr := by
  unfold Dev.fatalStop; rfl
@[simp] theorem fatalStop_host (d : Dev) : (d.fatalStop).host = d.host := by
  unfold Dev.fatalStop; rfl
@[simp] theorem fatalStop_ring (d : Dev) : (d.fatalStop).ring = d.ring := by
  unfold Dev.fatalStop; rfl
@[simp] theorem fatalStop_links (d : Dev) : (d.fatalStop).links = d.links := by
  unfold Dev.fatalStop; rfl
@[simp] theorem fatalStop_flt (d : Dev) : (d.fatalStop).flt = d.flt := by
  unfold Dev.fatalStop; rfl
@[simp] theorem fatalStop_tally (d : Dev) : (d.fatalStop).tally = d.tally := by
  unfold Dev.fatalStop; rfl
@[simp] theorem fatalStop_tel (d : Dev) : (d.fatalStop).tel = d.tel := by
  unfold Dev.fatalStop; rfl
@[simp] theorem fatalStop_ports (d : Dev) : (d.fatalStop).ports = d.ports := by
  unfold Dev.fatalStop; rfl
@[simp] theorem fatalStop_slices (d : Dev) : (d.fatalStop).slices = d.slices := by
  unfold Dev.fatalStop; rfl
@[simp] theorem fatalStop_scaler (d : Dev) : (d.fatalStop).scaler = d.scaler := by
  unfold Dev.fatalStop; rfl
@[simp] theorem fatalStop_mem (d : Dev) : (d.fatalStop).mem = d.mem := by
  unfold Dev.fatalStop; rfl
@[simp] theorem fatalStop_skid (d : Dev) : (d.fatalStop).skid = d.skid := by
  unfold Dev.fatalStop; rfl
@[simp] theorem fatalStop_path (d : Dev) : (d.fatalStop).path = d.path := by
  unfold Dev.fatalStop; rfl
@[simp] theorem fatalStop_bark (d : Dev) : (d.fatalStop).bark = d.bark := by
  unfold Dev.fatalStop; rfl
@[simp] theorem fatalStop_kerf (d : Dev) : (d.fatalStop).kerf = d.kerf := by
  unfold Dev.fatalStop; rfl
@[simp] theorem fatalStop_nvm (d : Dev) : (d.fatalStop).nvm = d.nvm := by
  unfold Dev.fatalStop; rfl
@[simp] theorem fatalStop_pwr (d : Dev) : (d.fatalStop).pwr = d.pwr := by
  unfold Dev.fatalStop; rfl
@[simp] theorem fatalStop_lanes (d : Dev) : (d.fatalStop).lanes = d.lanes := by
  unfold Dev.fatalStop; rfl
@[simp] theorem fatalStop_pins (d : Dev) : (d.fatalStop).pins = d.pins := by
  unfold Dev.fatalStop; rfl
@[simp] theorem fatalStop_out (d : Dev) : (d.fatalStop).out = d.out := by
  unfold Dev.fatalStop; rfl

/-! ### faultN -/

@[simp] theorem faultN_clk (d : Dev) (sr : Nat) (c : FClass) (co u n a : Nat) (fo : Bool) : (d.faultN sr c co u n a fo).clk = d.clk := by
  unfold Dev.faultN Dev.nextSeq; dsimp only; split <;> split <;> simp
@[simp] theorem faultN_freeCtr (d : Dev) (sr : Nat) (c : FClass) (co u n a : Nat) (fo : Bool) : (d.faultN sr c co u n a fo).freeCtr = d.freeCtr := by
  unfold Dev.faultN Dev.nextSeq; dsimp only; split <;> split <;> simp
@[simp] theorem faultN_host (d : Dev) (sr : Nat) (c : FClass) (co u n a : Nat) (fo : Bool) : (d.faultN sr c co u n a fo).host = d.host := by
  unfold Dev.faultN Dev.nextSeq; dsimp only; split <;> split <;> simp
@[simp] theorem faultN_ring (d : Dev) (sr : Nat) (c : FClass) (co u n a : Nat) (fo : Bool) : (d.faultN sr c co u n a fo).ring = d.ring := by
  unfold Dev.faultN Dev.nextSeq; dsimp only; split <;> split <;> simp
@[simp] theorem faultN_links (d : Dev) (sr : Nat) (c : FClass) (co u n a : Nat) (fo : Bool) : (d.faultN sr c co u n a fo).links = d.links := by
  unfold Dev.faultN Dev.nextSeq; dsimp only; split <;> split <;> simp
@[simp] theorem faultN_tally (d : Dev) (sr : Nat) (c : FClass) (co u n a : Nat) (fo : Bool) : (d.faultN sr c co u n a fo).tally = d.tally := by
  unfold Dev.faultN Dev.nextSeq; dsimp only; split <;> split <;> simp
@[simp] theorem faultN_ports (d : Dev) (sr : Nat) (c : FClass) (co u n a : Nat) (fo : Bool) : (d.faultN sr c co u n a fo).ports = d.ports := by
  unfold Dev.faultN Dev.nextSeq; dsimp only; split <;> split <;> simp
@[simp] theorem faultN_slices (d : Dev) (sr : Nat) (c : FClass) (co u n a : Nat) (fo : Bool) : (d.faultN sr c co u n a fo).slices = d.slices := by
  unfold Dev.faultN Dev.nextSeq; dsimp only; split <;> split <;> simp
@[simp] theorem faultN_scaler (d : Dev) (sr : Nat) (c : FClass) (co u n a : Nat) (fo : Bool) : (d.faultN sr c co u n a fo).scaler = d.scaler := by
  unfold Dev.faultN Dev.nextSeq; dsimp only; split <;> split <;> simp
@[simp] theorem faultN_mem (d : Dev) (sr : Nat) (c : FClass) (co u n a : Nat) (fo : Bool) : (d.faultN sr c co u n a fo).mem = d.mem := by
  unfold Dev.faultN Dev.nextSeq; dsimp only; split <;> split <;> simp
@[simp] theorem faultN_skid (d : Dev) (sr : Nat) (c : FClass) (co u n a : Nat) (fo : Bool) : (d.faultN sr c co u n a fo).skid = d.skid := by
  unfold Dev.faultN Dev.nextSeq; dsimp only; split <;> split <;> simp
@[simp] theorem faultN_path (d : Dev) (sr : Nat) (c : FClass) (co u n a : Nat) (fo : Bool) : (d.faultN sr c co u n a fo).path = d.path := by
  unfold Dev.faultN Dev.nextSeq; dsimp only; split <;> split <;> simp
@[simp] theorem faultN_bark (d : Dev) (sr : Nat) (c : FClass) (co u n a : Nat) (fo : Bool) : (d.faultN sr c co u n a fo).bark = d.bark := by
  unfold Dev.faultN Dev.nextSeq; dsimp only; split <;> split <;> simp
@[simp] theorem faultN_kerf (d : Dev) (sr : Nat) (c : FClass) (co u n a : Nat) (fo : Bool) : (d.faultN sr c co u n a fo).kerf = d.kerf := by
  unfold Dev.faultN Dev.nextSeq; dsimp only; split <;> split <;> simp
@[simp] theorem faultN_nvm (d : Dev) (sr : Nat) (c : FClass) (co u n a : Nat) (fo : Bool) : (d.faultN sr c co u n a fo).nvm = d.nvm := by
  unfold Dev.faultN Dev.nextSeq; dsimp only; split <;> split <;> simp
@[simp] theorem faultN_pwr (d : Dev) (sr : Nat) (c : FClass) (co u n a : Nat) (fo : Bool) : (d.faultN sr c co u n a fo).pwr = d.pwr := by
  unfold Dev.faultN Dev.nextSeq; dsimp only; split <;> split <;> simp
@[simp] theorem faultN_lanes (d : Dev) (sr : Nat) (c : FClass) (co u n a : Nat) (fo : Bool) : (d.faultN sr c co u n a fo).lanes = d.lanes := by
  unfold Dev.faultN Dev.nextSeq; dsimp only; split <;> split <;> simp
@[simp] theorem faultN_pins (d : Dev) (sr : Nat) (c : FClass) (co u n a : Nat) (fo : Bool) : (d.faultN sr c co u n a fo).pins = d.pins := by
  unfold Dev.faultN Dev.nextSeq; dsimp only; split <;> split <;> simp

theorem faultN_cord (d : Dev) (sr : Nat) (c : FClass) (co u n a : Nat) (fo : Bool) (h : c ≠ .fatal) :
    (d.faultN sr c co u n a fo).cord = d.cord := by
  unfold Dev.faultN Dev.nextSeq; simp only [h, if_false]; split <;> simp
theorem faultN_mill (d : Dev) (sr : Nat) (c : FClass) (co u n a : Nat) (fo : Bool) (h : c ≠ .fatal) :
    (d.faultN sr c co u n a fo).mill = d.mill := by
  unfold Dev.faultN Dev.nextSeq; simp only [h, if_false]; split <;> simp

/-! ### fault -/

@[simp] theorem fault_clk (d : Dev) (sr : Nat) (c : FClass) (co u a : Nat) : (d.fault sr c co u a).clk = d.clk := by
  simp [Dev.fault]
@[simp] theorem fault_freeCtr (d : Dev) (sr : Nat) (c : FClass) (co u a : Nat) : (d.fault sr c co u a).freeCtr = d.freeCtr := by
  simp [Dev.fault]
@[simp] theorem fault_host (d : Dev) (sr : Nat) (c : FClass) (co u a : Nat) : (d.fault sr c co u a).host = d.host := by
  simp [Dev.fault]
@[simp] theorem fault_ring (d : Dev) (sr : Nat) (c : FClass) (co u a : Nat) : (d.fault sr c co u a).ring = d.ring := by
  simp [Dev.fault]
@[simp] theorem fault_links (d : Dev) (sr : Nat) (c : FClass) (co u a : Nat) : (d.fault sr c co u a).links = d.links := by
  simp [Dev.fault]
@[simp] theorem fault_tally (d : Dev) (sr : Nat) (c : FClass) (co u a : Nat) : (d.fault sr c co u a).tally = d.tally := by
  simp [Dev.fault]
@[simp] theorem fault_ports (d : Dev) (sr : Nat) (c : FClass) (co u a : Nat) : (d.fault sr c co u a).ports = d.ports := by
  simp [Dev.fault]
@[simp] theorem fault_slices (d : Dev) (sr : Nat) (c : FClass) (co u a : Nat) : (d.fault sr c co u a).slices = d.slices := by
  simp [Dev.fault]
@[simp] theorem fault_scaler (d : Dev) (sr : Nat) (c : FClass) (co u a : Nat) : (d.fault sr c co u a).scaler = d.scaler := by
  simp [Dev.fault]
@[simp] theorem fault_mem (d : Dev) (sr : Nat) (c : FClass) (co u a : Nat) : (d.fault sr c co u a).mem = d.mem := by
  simp [Dev.fault]
@[simp] theorem fault_skid (d : Dev) (sr : Nat) (c : FClass) (co u a : Nat) : (d.fault sr c co u a).skid = d.skid := by
  simp [Dev.fault]
@[simp] theorem fault_path (d : Dev) (sr : Nat) (c : FClass) (co u a : Nat) : (d.fault sr c co u a).path = d.path := by
  simp [Dev.fault]
@[simp] theorem fault_bark (d : Dev) (sr : Nat) (c : FClass) (co u a : Nat) : (d.fault sr c co u a).bark = d.bark := by
  simp [Dev.fault]
@[simp] theorem fault_kerf (d : Dev) (sr : Nat) (c : FClass) (co u a : Nat) : (d.fault sr c co u a).kerf = d.kerf := by
  simp [Dev.fault]
@[simp] theorem fault_nvm (d : Dev) (sr : Nat) (c : FClass) (co u a : Nat) : (d.fault sr c co u a).nvm = d.nvm := by
  simp [Dev.fault]
@[simp] theorem fault_pwr (d : Dev) (sr : Nat) (c : FClass) (co u a : Nat) : (d.fault sr c co u a).pwr = d.pwr := by
  simp [Dev.fault]
@[simp] theorem fault_lanes (d : Dev) (sr : Nat) (c : FClass) (co u a : Nat) : (d.fault sr c co u a).lanes = d.lanes := by
  simp [Dev.fault]
@[simp] theorem fault_pins (d : Dev) (sr : Nat) (c : FClass) (co u a : Nat) : (d.fault sr c co u a).pins = d.pins := by
  simp [Dev.fault]

theorem fault_cord (d : Dev) (sr : Nat) (c : FClass) (co u a : Nat) (h : c ≠ .fatal) : (d.fault sr c co u a).cord = d.cord := by
  simp [Dev.fault, faultN_cord _ _ _ _ _ _ _ _ h]
theorem fault_mill (d : Dev) (sr : Nat) (c : FClass) (co u a : Nat) (h : c ≠ .fatal) : (d.fault sr c co u a).mill = d.mill := by
  simp [Dev.fault, faultN_mill _ _ _ _ _ _ _ _ h]

/-! ### faultOpen -/

@[simp] theorem faultOpen_clk (d : Dev) (sr : Nat) (c : FClass) (u a : Nat) : (d.faultOpen sr c u a).clk = d.clk := by
  simp [Dev.fault, Dev.faultOpen]
@[simp] theorem faultOpen_freeCtr (d : Dev) (sr : Nat) (c : FClass) (u a : Nat) : (d.faultOpen sr c u a).freeCtr = d.freeCtr := by
  simp [Dev.fault, Dev.faultOpen]
@[simp] theorem faultOpen_host (d : Dev) (sr : Nat) (c : FClass) (u a : Nat) : (d.faultOpen sr c u a).host = d.host := by
  simp [Dev.fault, Dev.faultOpen]
@[simp] theorem faultOpen_ring (d : Dev) (sr : Nat) (c : FClass) (u a : Nat) : (d.faultOpen sr c u a).ring = d.ring := by
  simp [Dev.fault, Dev.faultOpen]
@[simp] theorem faultOpen_links (d : Dev) (sr : Nat) (c : FClass) (u a : Nat) : (d.faultOpen sr c u a).links = d.links := by
  simp [Dev.fault, Dev.faultOpen]
@[simp] theorem faultOpen_tally (d : Dev) (sr : Nat) (c : FClass) (u a : Nat) : (d.faultOpen sr c u a).tally = d.tally := by
  simp [Dev.fault, Dev.faultOpen]
@[simp] theorem faultOpen_ports (d : Dev) (sr : Nat) (c : FClass) (u a : Nat) : (d.faultOpen sr c u a).ports = d.ports := by
  simp [Dev.fault, Dev.faultOpen]
@[simp] theorem faultOpen_slices (d : Dev) (sr : Nat) (c : FClass) (u a : Nat) : (d.faultOpen sr c u a).slices = d.slices := by
  simp [Dev.fault, Dev.faultOpen]
@[simp] theorem faultOpen_scaler (d : Dev) (sr : Nat) (c : FClass) (u a : Nat) : (d.faultOpen sr c u a).scaler = d.scaler := by
  simp [Dev.fault, Dev.faultOpen]
@[simp] theorem faultOpen_mem (d : Dev) (sr : Nat) (c : FClass) (u a : Nat) : (d.faultOpen sr c u a).mem = d.mem := by
  simp [Dev.fault, Dev.faultOpen]
@[simp] theorem faultOpen_skid (d : Dev) (sr : Nat) (c : FClass) (u a : Nat) : (d.faultOpen sr c u a).skid = d.skid := by
  simp [Dev.fault, Dev.faultOpen]
@[simp] theorem faultOpen_path (d : Dev) (sr : Nat) (c : FClass) (u a : Nat) : (d.faultOpen sr c u a).path = d.path := by
  simp [Dev.fault, Dev.faultOpen]
@[simp] theorem faultOpen_bark (d : Dev) (sr : Nat) (c : FClass) (u a : Nat) : (d.faultOpen sr c u a).bark = d.bark := by
  simp [Dev.fault, Dev.faultOpen]
@[simp] theorem faultOpen_kerf (d : Dev) (sr : Nat) (c : FClass) (u a : Nat) : (d.faultOpen sr c u a).kerf = d.kerf := by
  simp [Dev.fault, Dev.faultOpen]
@[simp] theorem faultOpen_nvm (d : Dev) (sr : Nat) (c : FClass) (u a : Nat) : (d.faultOpen sr c u a).nvm = d.nvm := by
  simp [Dev.fault, Dev.faultOpen]
@[simp] theorem faultOpen_pwr (d : Dev) (sr : Nat) (c : FClass) (u a : Nat) : (d.faultOpen sr c u a).pwr = d.pwr := by
  simp [Dev.fault, Dev.faultOpen]
@[simp] theorem faultOpen_lanes (d : Dev) (sr : Nat) (c : FClass) (u a : Nat) : (d.faultOpen sr c u a).lanes = d.lanes := by
  simp [Dev.fault, Dev.faultOpen]
@[simp] theorem faultOpen_pins (d : Dev) (sr : Nat) (c : FClass) (u a : Nat) : (d.faultOpen sr c u a).pins = d.pins := by
  simp [Dev.fault, Dev.faultOpen]

theorem faultOpen_cord (d : Dev) (sr : Nat) (c : FClass) (u a : Nat) (h : c ≠ .fatal) : (d.faultOpen sr c u a).cord = d.cord := by
  simp [Dev.fault, Dev.faultOpen, faultN_cord _ _ _ _ _ _ _ _ h]
theorem faultOpen_mill (d : Dev) (sr : Nat) (c : FClass) (u a : Nat) (h : c ≠ .fatal) : (d.faultOpen sr c u a).mill = d.mill := by
  simp [Dev.fault, Dev.faultOpen, faultN_mill _ _ _ _ _ _ _ _ h]

end Sys2Proof.Machine
end

