-- ==== Sys2Proof/Laws/Tables.lean ====
section
/-! SUPPORT. Tables by number and register fields: what a read finds after an update. -/

namespace Sys2Proof.Machine

/-- Reading the number just set. -/
@[simp] theorem tblGet_put_same {α : Type} (t : Tbl α) (n : Nat) (v : α) : tblGet (tblPut t n v) n = some v := by
  induction t with
  | nil => simp [tblPut, tblGet]
  | cons e t ih =>
    obtain ⟨k, w⟩ := e
    simp only [tblPut]
    split
    · simp [tblGet]
    · split
      · simp [tblGet]
      · rename_i h _
        simp [tblGet, h, ih]

/-- Setting one number leaves every other number as it was. -/
theorem tblGet_put_other {α : Type} (t : Tbl α) {n m : Nat} (v : α) (h : m ≠ n) :
    tblGet (tblPut t n v) m = tblGet t m := by
  induction t with
  | nil => simp [tblPut, tblGet, Ne.symm h]
  | cons e t ih =>
    obtain ⟨k, w⟩ := e
    simp only [tblPut]
    split
    · rename_i hk
      subst hk
      simp [tblGet, Ne.symm h]
    · split
      · simp [tblGet, Ne.symm h]
      · simp [tblGet, ih]

/-- Reading with a default after an update, in one form. -/
theorem tblGetD_put {α : Type} (t : Tbl α) (n m : Nat) (v dflt : α) :
    tblGetD (tblPut t n v) m dflt = if m = n then v else tblGetD t m dflt := by
  by_cases h : m = n
  · subst h; simp [tblGetD]
  · simp [tblGetD, tblGet_put_other t v h, h]

/-- A removed number reads as absent. -/
@[simp] theorem tblGet_del_same {α : Type} (t : Tbl α) (n : Nat) : tblGet (tblDel t n) n = none := by
  induction t with
  | nil => rfl
  | cons e t ih =>
    obtain ⟨k, w⟩ := e
    by_cases h : k = n
    · subst h; simpa [tblDel, List.filter_cons] using ih
    · have h' : (k != n) = true := by simpa using h
      simpa [tblDel, List.filter_cons, h', tblGet, h] using ih

/-- The bound of a field's value. -/
theorem setFld_lt (f : Fld) (v : Nat) : v % 2 ^ f.w < 2 ^ f.w := Nat.mod_lt _ (Nat.two_pow_pos _)

/-- A field reads as the low bits of the value just set. -/
@[simp] theorem fld_setFld_same (d : Dev) (f : Fld) (i v : Nat) : (d.setFld f i v).fld f i = v % 2 ^ f.w := by
  simp [Dev.fld, Dev.setFld]

/-- Setting a field leaves every field of another key as it was. -/
theorem fld_setFld_other (d : Dev) {f g : Fld} {i j : Nat} (v : Nat) (h : fldKey g j ≠ fldKey f i) :
    (d.setFld f i v).fld g j = d.fld g j := by
  simp [Dev.fld, Dev.setFld, tblGet_put_other _ _ h]

/-- A one-bit field reads as the bit just set. -/
theorem flag_setFlag_same (d : Dev) (f : Fld) (i : Nat) (b : Bool) (h : f.w = 1) : (d.setFlag f i b).flag f i = b := by
  cases b <;> simp [Dev.flag, Dev.setFlag, h, b2n]

end Sys2Proof.Machine
end

