-- ==== Sys2Proof/Laws/Command.lean ====
section
/-! SUPPORT. Commands: taking the entry, the completion, and what a served command answers. -/

namespace Sys2Proof.Machine

open Sys2Proof

/-! ### The rings of an issuer -/

@[simp] theorem cmdRing_setCmdRing (d : Dev) (i : Issuer) (r : CmdRing) : (d.setCmdRing i r).cmdRing i = r := by
  simp [Dev.setCmdRing, Dev.cmdRing, tblGetD]

theorem cmdRing_congr {d e : Dev} (h : e.scaler.rings = d.scaler.rings) (i : Issuer) : e.cmdRing i = d.cmdRing i := by
  simp [Dev.cmdRing, h]

/-- Taking the entry changes the rings alone. -/
theorem takeEntry_eq (d : Dev) (c : Cmd) (op : Nat) :
    d.takeEntry c op = { d with scaler := { d.scaler with rings := (d.takeEntry c op).scaler.rings } } := by
  unfold Dev.takeEntry
  dsimp only
  split
  · split <;> rfl
  · rfl

theorem takeEntry_gen (d : Dev) (c : Cmd) (op : Nat) :
    ((d.takeEntry c op).cmdRing c.iss).gen = (d.cmdRing c.iss).gen := by
  unfold Dev.takeEntry
  dsimp only
  split
  · split <;> simp
  · rfl

theorem takeEntry_ownerOf (d : Dev) (c : Cmd) (op : Nat) : (d.takeEntry c op).ownerOf c op = d.ownerOf c op := by
  simp [Dev.ownerOf, takeEntry_gen]

/-- The common checks look at nothing that taking the entry changes. -/
theorem takeEntry_preCheck (d : Dev) (c : Cmd) (op : Nat) (ps : List CmdPath) :
    (d.takeEntry c op).preCheck c op ps = d.preCheck c op ps := by
  rw [takeEntry_eq]; rfl

theorem takeEntry_serves (d : Dev) (c : Cmd) (op : Nat) (i : Issuer) : (d.takeEntry c op).serves i = d.serves i := by
  rw [takeEntry_eq]; rfl

/-! ### The completion -/

@[simp] theorem ringIrq_scaler (d : Dev) (i : Issuer) : (d.ringIrq i).scaler = d.scaler := by
  unfold Dev.ringIrq
  split
  · simp
  · dsimp only; split <;> simp
  · rfl

theorem writeCpl_ring (d : Dev) (i : Issuer) (k : Cpl) (q : Bool) :
    (d.writeCpl i k q).cmdRing i = { d.cmdRing i with writePos := (d.cmdRing i).writePos + 1 } := by
  unfold Dev.writeCpl
  dsimp only
  split
  · simp
  · rw [cmdRing_congr (congrArg Scaler.rings (ringIrq_scaler _ i))]; simp

theorem foldl_setFld_scaler (l : List Nat) (f : Nat → Fld) (p : Nat) (v : Nat → Nat) (d : Dev) :
    (l.foldl (fun d i => d.setFld (f i) p (v i)) d).scaler = d.scaler := by
  induction l generalizing d with
  | nil => rfl
  | cons a l ih => simp [ih]

@[simp] theorem putMbox_scaler (d : Dev) (p : Nat) (bs : List Byte) : (d.putMbox p bs).scaler = d.scaler := by
  unfold Dev.putMbox; exact foldl_setFld_scaler _ _ _ _ _

/-- A completion leaves the generation and the waiting entries of its rings. -/
theorem deliver_ring (d : Dev) (o : Owner) (k : Cpl) :
    ((d.deliver o k).cmdRing o.iss).gen = (d.cmdRing o.iss).gen ∧
    ((d.deliver o k).cmdRing o.iss).waiting = (d.cmdRing o.iss).waiting := by
  unfold Dev.deliver
  split
  · exact ⟨rfl, rfl⟩
  · split
    · dsimp only
      split <;> simp [Dev.cmdRing]
    · exact ⟨rfl, rfl⟩
  · split
    · unfold Dev.postRing
      dsimp only
      split
      · simp [writeCpl_ring]
      · simp
    · exact ⟨rfl, rfl⟩

/-- A quiet ring needs no answer of its own. -/
theorem pump_quiet (d : Dev) (i : Issuer) (n : Nat) (h : quietRing (d.cmdRing i) = true) : d.pump i n = d := by
  cases n with
  | zero => rfl
  | succ n =>
    unfold Dev.pump
    unfold quietRing at h
    dsimp only
    split
    · rfl
    · split <;> simp_all

/-- A served command: its own rules act on the device without the entry, and their answer is its completion. -/
theorem command_served {d : Dev} {c : Cmd} {op : Nat} {ps : List CmdPath} (h : Served d c op ps) (body : Owner → Dev → Reply)
    (hb : (body (d.ownerOf c op) (d.takeEntry c op)).dev.scaler.rings = (d.takeEntry c op).scaler.rings)
    (hs : (body (d.ownerOf c op) (d.takeEntry c op)).status ≠ stHeld) :
    d.command c op ps body =
      let r := body (d.ownerOf c op) (d.takeEntry c op)
      replied r.dev c op r.status r.reason r.result := by
  obtain ⟨h0, h1, h2, h3⟩ := h
  unfold Dev.command
  simp only [h0, takeEntry_serves, h1, takeEntry_preCheck, h3, Bool.not_true, Bool.false_eq_true, if_false]
  generalize body (d.ownerOf c op) (d.takeEntry c op) = r at *
  rw [if_neg hs]
  have ho : r.dev.ownerOf c op = d.ownerOf c op := by
    simp [Dev.ownerOf, cmdRing_congr hb, takeEntry_gen]
  rw [pump_quiet]
  · simp [replied, ho]
  · have := deliver_ring r.dev (d.ownerOf c op) ⟨op, c.tag, r.status, r.reason, r.status != stDeferred, r.result⟩
    have hi : (d.ownerOf c op).iss = c.iss := rfl
    rw [hi] at this
    unfold quietRing at h2 ⊢
    rw [this.2, cmdRing_congr hb]
    exact h2

/-- No common check holds a command back. -/
theorem preCheck_not_held {d : Dev} {c : Cmd} {op st rs : Nat} {res : List Byte} {ps : List CmdPath}
    (h : d.preCheck c op ps = some (st, rs, res)) : st ≠ stHeld := by
  unfold Dev.preCheck at h
  simp only [stRefused, stNotLead, stVersion, stHeld] at *
  repeat' split at h
  all_goals simp at h
  all_goals omega

/-- A command that a common check stops: the check's answer, and nothing of its own rules. -/
theorem command_stopped {d : Dev} {c : Cmd} {op st rs : Nat} {res : List Byte} {ps : List CmdPath}
    (h0 : d.readHeld (.cmdRing c.iss) = false) (h1 : d.serves c.iss = true) (h2 : quietRing ((d.takeEntry c op).cmdRing c.iss) = true)
    (h3 : d.preCheck c op ps = some (st, rs, res)) (body : Owner → Dev → Reply) :
    d.command c op ps body = replied (d.takeEntry c op) c op st rs res := by
  unfold Dev.command
  simp only [h0, takeEntry_serves, h1, takeEntry_preCheck, h3, Bool.not_true, Bool.false_eq_true, if_false,
    if_neg (preCheck_not_held h3)]
  rw [pump_quiet]
  · simp [replied, takeEntry_ownerOf]
  · have := deliver_ring (d.takeEntry c op) (d.ownerOf c op) ⟨op, c.tag, st, rs, st != stDeferred, res⟩
    have hi : (d.ownerOf c op).iss = c.iss := rfl
    rw [hi] at this
    unfold quietRing at h2 ⊢
    rw [this.2]
    exact h2

end Sys2Proof.Machine
end

