-- ==== Sys2Proof/Laws/Memory.lean ====
section
/-! SUPPORT. Laws of the memories: what a write reads back as, what it leaves, and that every operation of the memories keeps
their canonical form. -/

namespace Sys2Proof.Machine

/-! ### Reading -/

/-- Below the least key of rising cells every byte is blank. -/
theorem cellGet_below : ∀ (cs : List Host.Cell) (k a : Nat), cellsWf (some k) cs = true → a ≤ k → cellGet cs a = blankByte
  | [], _, _, _, _ => rfl
  | (k', v) :: t, k, a, h, ha => by
    simp only [cellsWf, Bool.and_eq_true, decide_eq_true_eq] at h
    have : ¬ k' = a := by omega
    have h2 : a < k' := by omega
    simp only [cellGet, if_neg this, if_pos h2]

/-- The byte of an address after it was put. -/
theorem cellGet_put_same : ∀ (cs : List Host.Cell) (lo : Option Nat) (a : Nat) (b : Byte), cellsWf lo cs = true →
    cellGet (cellPut cs a b) a = b
  | [], _, a, b, _ => by
    by_cases hb : b = blankByte
    · simp only [cellPut, hb, if_pos, cellGet]
    · simp only [cellPut, if_neg hb, cellGet, if_pos]
  | (k, v) :: t, lo, a, b, h => by
    simp only [cellsWf, Bool.and_eq_true] at h
    by_cases hk : k = a
    · subst hk
      by_cases hb : b = blankByte
      · simp only [cellPut, if_pos, hb]
        exact cellGet_below t k k h.2 (Nat.le_refl _)
      · simp only [cellPut, if_pos, if_neg hb, cellGet]
    · by_cases hl : a < k
      · by_cases hb : b = blankByte
        · simp only [cellPut, if_neg hk, if_pos hl, hb, if_pos, cellGet]
        · simp only [cellPut, if_neg hk, if_pos hl, if_neg hb, cellGet, if_pos]
      · simp only [cellPut, if_neg hk, if_neg hl, cellGet]
        exact cellGet_put_same t (some k) a b h.2

/-- The byte of another address stays. -/
theorem cellGet_put_other : ∀ (cs : List Host.Cell) (lo : Option Nat) (a c : Nat) (b : Byte), cellsWf lo cs = true → c ≠ a →
    cellGet (cellPut cs a b) c = cellGet cs c
  | [], _, a, c, b, _, hc => by
    by_cases hb : b = blankByte
    · simp only [cellPut, hb, if_pos]
    · have : ¬ a = c := fun h => hc h.symm
      simp only [cellPut, if_neg hb, cellGet, if_neg this]
      split <;> rfl
  | (k, v) :: t, lo, a, c, b, h, hc => by
    have hac : ¬ a = c := fun h => hc h.symm
    simp only [cellsWf, Bool.and_eq_true] at h
    by_cases hk : k = a
    · subst hk
      have below : c < k → cellGet t c = blankByte := fun hl => cellGet_below t k c h.2 (Nat.le_of_lt hl)
      by_cases hb : b = blankByte
      · simp only [cellPut, if_pos, hb, cellGet, if_neg hac]
        split
        · exact below ‹_›
        · rfl
      · simp only [cellPut, if_pos, if_neg hb, cellGet, if_neg hac]
    · by_cases hl : a < k
      · by_cases hb : b = blankByte
        · simp only [cellPut, if_neg hk, if_pos hl, hb, if_pos]
        · simp only [cellPut, if_neg hk, if_pos hl, if_neg hb, cellGet, if_neg hac]
          by_cases hca : c < a
          · have h1 : ¬ k = c := by omega
            have h2 : c < k := by omega
            simp only [if_pos hca, if_neg h1, if_pos h2]
          · simp only [if_neg hca]
      · simp only [cellPut, if_neg hk, if_neg hl, cellGet]
        rw [cellGet_put_other t (some k) a c b h.2 hc]

/-! ### The canonical form -/

/-- A put keeps cells canonical above a bound below its address. -/
theorem cellsWf_put : ∀ (cs : List Host.Cell) (lo : Option Nat) (a : Nat) (b : Byte), cellsWf lo cs = true →
    (∀ l, lo = some l → l < a) → cellsWf lo (cellPut cs a b) = true
  | [], lo, a, b, _, hl => by
    by_cases hb : b = blankByte
    · simp only [cellPut, hb, if_pos, cellsWf]
    · cases lo with
      | none => simp only [cellPut, if_neg hb, cellsWf, Bool.and_true, Bool.true_and, decide_eq_true_eq]; exact hb
      | some l =>
        simp only [cellPut, if_neg hb, cellsWf, Bool.and_true, Bool.and_eq_true, decide_eq_true_eq]
        exact ⟨hl l rfl, hb⟩
  | (k, v) :: t, lo, a, b, h, hl => by
    have h' := h
    simp only [cellsWf, Bool.and_eq_true] at h
    by_cases hk : k = a
    · subst hk
      by_cases hb : b = blankByte
      · simp only [cellPut, if_pos, hb]
        cases t with
        | nil => rfl
        | cons e t =>
          obtain ⟨k2, v2⟩ := e
          have h2 := h.2
          simp only [cellsWf, Bool.and_eq_true, decide_eq_true_eq] at h2 ⊢
          refine ⟨⟨?_, h2.1.2⟩, h2.2⟩
          cases lo with
          | none => rfl
          | some l => exact decide_eq_true (Nat.lt_trans (hl l rfl) h2.1.1)
      · simp only [cellPut, if_pos, if_neg hb, cellsWf, Bool.and_eq_true]
        exact ⟨⟨h.1.1, decide_eq_true hb⟩, h.2⟩
    · by_cases hlt : a < k
      · by_cases hb : b = blankByte
        · simp only [cellPut, if_neg hk, if_pos hlt, hb, if_pos]; exact h'
        · simp only [cellPut, if_neg hk, if_pos hlt, if_neg hb, cellsWf, Bool.and_eq_true]
          refine ⟨⟨?_, decide_eq_true hb⟩, ⟨decide_eq_true hlt, h.1.2⟩, h.2⟩
          cases lo with
          | none => rfl
          | some l => exact decide_eq_true (hl l rfl)
      · simp only [cellPut, if_neg hk, if_neg hlt, cellsWf, Bool.and_eq_true]
        refine ⟨h.1, cellsWf_put t (some k) a b h.2 ?_⟩
        intro l hh
        cases hh
        omega

/-- Writing bytes keeps cells canonical. -/
theorem cellsWf_write (bs : List Byte) : ∀ (cs : List Host.Cell) (a : Nat), cellsWf none cs = true →
    cellsWf none (cellsWrite cs a bs) = true := by
  induction bs with
  | nil => intro cs a h; exact h
  | cons b bs ih => intro cs a h; exact ih _ _ (cellsWf_put cs none a b h (fun _ hh => nomatch hh))

/-- A looser bound. -/
theorem cellsWf_bound (cs : List Host.Cell) (k : Nat) (lo : Option Nat) (h : cellsWf (some k) cs = true)
    (hl : ∀ l, lo = some l → l ≤ k) : cellsWf lo cs = true := by
  cases cs with
  | nil => rfl
  | cons e t =>
    obtain ⟨k', v⟩ := e
    simp only [cellsWf, Bool.and_eq_true, decide_eq_true_eq] at h ⊢
    refine ⟨⟨?_, h.1.2⟩, h.2⟩
    cases lo with
    | none => rfl
    | some l => exact decide_eq_true (Nat.lt_of_le_of_lt (hl l rfl) h.1.1)

/-- Removing cells keeps them canonical. -/
theorem cellsWf_filter (p : Host.Cell → Bool) : ∀ (cs : List Host.Cell) (lo : Option Nat), cellsWf lo cs = true →
    cellsWf lo (cs.filter p) = true
  | [], _, _ => rfl
  | (k, v) :: t, lo, h => by
    simp only [cellsWf, Bool.and_eq_true] at h
    have ih := cellsWf_filter p t (some k) h.2
    by_cases hp : p (k, v) = true
    · simp only [List.filter_cons_of_pos hp, cellsWf, Bool.and_eq_true]
      exact ⟨h.1, ih⟩
    · rw [List.filter_cons_of_neg hp]
      refine cellsWf_bound _ k lo ih ?_
      intro l hh
      subst hh
      exact Nat.le_of_lt (of_decide_eq_true h.1.1)

/-- A looser bound of marks. -/
theorem risingFrom_bound (ps : List Nat) (k : Nat) (lo : Option Nat) (h : risingFrom (some k) ps = true)
    (hl : ∀ l, lo = some l → l ≤ k) : risingFrom lo ps = true := by
  cases ps with
  | nil => rfl
  | cons e t =>
    simp only [risingFrom, Bool.and_eq_true, decide_eq_true_eq] at h ⊢
    refine ⟨?_, h.2⟩
    cases lo with
    | none => rfl
    | some l => exact decide_eq_true (Nat.lt_of_le_of_lt (hl l rfl) h.1)

/-- Inserting a mark keeps marks rising. -/
theorem risingFrom_ins : ∀ (ps : List Nat) (lo : Option Nat) (g : Nat), risingFrom lo ps = true → (∀ l, lo = some l → l < g) →
    risingFrom lo (markIns ps g) = true
  | [], lo, g, _, hl => by
    cases lo with
    | none => rfl
    | some l => simp only [markIns, risingFrom, Bool.and_true]; exact decide_eq_true (hl l rfl)
  | k :: t, lo, g, h, hl => by
    have h' := h
    simp only [risingFrom, Bool.and_eq_true] at h
    by_cases hk : k = g
    · simp only [markIns, if_pos hk]; exact h'
    · by_cases hlt : g < k
      · simp only [markIns, if_neg hk, if_pos hlt, risingFrom, Bool.and_eq_true]
        refine ⟨?_, decide_eq_true hlt, h.2⟩
        cases lo with
        | none => rfl
        | some l => exact decide_eq_true (hl l rfl)
      · simp only [markIns, if_neg hk, if_neg hlt, risingFrom, Bool.and_eq_true]
        refine ⟨h.1, risingFrom_ins t (some k) g h.2 ?_⟩
        intro l hh
        cases hh
        omega

/-- Removing a mark keeps marks rising. -/
theorem risingFrom_del : ∀ (ps : List Nat) (lo : Option Nat) (g : Nat), risingFrom lo ps = true → risingFrom lo (markDel ps g) = true
  | [], _, _, _ => rfl
  | k :: t, lo, g, h => by
    have h' := h
    simp only [risingFrom, Bool.and_eq_true] at h
    by_cases hk : k = g
    · simp only [markDel, if_pos hk]
      refine risingFrom_bound t k lo h.2 ?_
      intro l hh
      subst hh
      exact Nat.le_of_lt (of_decide_eq_true h.1)
    · by_cases hlt : g < k
      · simp only [markDel, if_neg hk, if_pos hlt]; exact h'
      · simp only [markDel, if_neg hk, if_neg hlt, risingFrom, Bool.and_eq_true]
        exact ⟨h.1, risingFrom_del t (some k) g h.2⟩

/-- Keeping some marks keeps them rising. -/
theorem risingFrom_filter (p : Nat → Bool) : ∀ (ps : List Nat) (lo : Option Nat), risingFrom lo ps = true →
    risingFrom lo (ps.filter p) = true
  | [], _, _ => rfl
  | k :: t, lo, h => by
    simp only [risingFrom, Bool.and_eq_true] at h
    have ih := risingFrom_filter p t (some k) h.2
    by_cases hp : p k = true
    · simp only [List.filter_cons_of_pos hp, risingFrom, Bool.and_eq_true]
      exact ⟨h.1, ih⟩
    · rw [List.filter_cons_of_neg hp]
      refine risingFrom_bound _ k lo ih ?_
      intro l hh
      subst hh
      exact Nat.le_of_lt (of_decide_eq_true h.1)

/-- The marks after a write keep rising. -/
theorem risingFrom_after (ps : List Nat) (a n : Nat) (poison : Bool) (h : risingFrom none ps = true) :
    risingFrom none (marksAfter ps a n poison) = true := by
  unfold marksAfter
  generalize granulesOf a n = gs
  induction gs generalizing ps with
  | nil => exact h
  | cons g gs ih =>
    refine ih _ ?_
    show risingFrom none (if poison then markIns ps g else if coversGranule a n g then markDel ps g else ps) = true
    split
    · exact risingFrom_ins ps none g h (fun _ hh => nomatch hh)
    · split
      · exact risingFrom_del ps none g h
      · exact h

/-- A write of the memories keeps their canonical form. -/
theorem Mem.wf_write (m : Mem) (a : Nat) (bs : List Byte) (poison : Bool) (h : m.wf = true) : (m.write a bs poison).wf = true := by
  simp only [Mem.wf, Bool.and_eq_true] at h ⊢
  exact ⟨cellsWf_write bs m.cells a h.1, risingFrom_after m.poison a bs.length poison h.2⟩

/-- Clearing a range keeps it. -/
theorem Mem.wf_clear (m : Mem) (a n : Nat) (h : m.wf = true) : (m.clear a n).wf = true := by
  simp only [Mem.wf, Bool.and_eq_true] at h ⊢
  exact ⟨cellsWf_filter _ m.cells none h.1, risingFrom_filter _ m.poison none h.2⟩

/-- Marking a granule keeps it. -/
theorem Mem.wf_mark (m : Mem) (g : Nat) (h : m.wf = true) : ({ m with poison := markIns m.poison g } : Mem).wf = true := by
  simp only [Mem.wf, Bool.and_eq_true] at h ⊢
  exact ⟨h.1, risingFrom_ins m.poison none g h.2 (fun _ hh => nomatch hh)⟩

/-- Copying granules leaves the memories. -/
theorem Dev.copyBefore_mem (gs : List Nat) : ∀ d : Dev, (d.copyBefore gs).mem = d.mem := by
  unfold Dev.copyBefore
  induction gs with
  | nil => intro d; rfl
  | cons g gs ih => intro d; exact (ih _).trans rfl

/-- A write to memory inside the package keeps it. -/
theorem Dev.wf_memWrite (d : Dev) (a : Nat) (bs : List Byte) (poison : Bool) (h : d.mem.wf = true) :
    (d.memWrite a bs poison).mem.wf = true := by
  unfold Dev.memWrite
  dsimp only
  split
  · exact Mem.wf_write _ _ _ _ h
  · split
    · exact Mem.wf_write _ _ _ _ (by rw [Dev.copyBefore_mem]; exact h)
    · exact h

/-- Copies of tracked granules change Cord, its registers and the counter of free values alone (R322). -/
theorem Dev.copyBefore_frame (gs : List Nat) : ∀ d : Dev, d.copyBefore gs =
    { d with cord := (d.copyBefore gs).cord, regs := (d.copyBefore gs).regs, freeCtr := (d.copyBefore gs).freeCtr } := by
  induction gs with
  | nil => intro d; rfl
  | cons g gs ih => intro d; exact ih _

/-- A write to state that is kept by its values changes no byte and nothing but what the copies change (R322). -/
theorem Dev.touch_frame (d : Dev) (a n : Nat) : d.touch a n =
    { d with cord := (d.touch a n).cord, regs := (d.touch a n).regs, freeCtr := (d.touch a n).freeCtr } := by
  unfold Dev.touch
  dsimp only
  split
  · rfl
  · split
    · exact Dev.copyBefore_frame _ _
    · rfl

/-- The memories after reset are canonical. -/
theorem reset_mem_wf : State.reset.dev.mem.wf = true := rfl

/-! ### Writing bytes and reading them back -/

/-- Addresses outside the written bytes read as before. -/
theorem cellGet_write_other (bs : List Byte) : ∀ (cs : List Host.Cell) (a c : Nat), cellsWf none cs = true →
    (c < a ∨ a + bs.length ≤ c) → cellGet (cellsWrite cs a bs) c = cellGet cs c := by
  induction bs with
  | nil => intro cs a c _ _; rfl
  | cons b bs ih =>
    intro cs a c h hc
    have hl : (b :: bs).length = bs.length + 1 := rfl
    have h1 := cellsWf_put cs none a b h (fun _ hh => nomatch hh)
    rw [cellsWrite, ih _ _ c h1 (by omega)]
    exact cellGet_put_other cs none a c b h (by omega)

/-- The written bytes read back. -/
theorem cellGet_write_same (bs : List Byte) : ∀ (cs : List Host.Cell) (a i : Nat), cellsWf none cs = true →
    i < bs.length → cellGet (cellsWrite cs a bs) (a + i) = bs.getD i 0 := by
  induction bs with
  | nil => intro cs a i _ hi; exact absurd hi (Nat.not_lt_zero i)
  | cons b bs ih =>
    intro cs a i h hi
    have h1 := cellsWf_put cs none a b h (fun _ hh => nomatch hh)
    cases i with
    | zero =>
      rw [cellsWrite, cellGet_write_other bs _ _ _ h1 (by omega)]
      exact cellGet_put_same cs none a b h
    | succ i =>
      have : a + (i + 1) = a + 1 + i := by omega
      rw [cellsWrite, this, ih _ _ i h1 (by simpa using hi)]
      rfl

end Sys2Proof.Machine
end

