-- ==== Sys2Proof/Laws/Path.lean ====
section
/-! SUPPORT. What putting a frame into a queue of Boom can change (07_packet_path). -/

namespace Sys2Proof.Machine

/-- Two devices differ in one queue, in other state of the packet path, in counts and in outputs, and in nothing else. -/
def SameButQueue (k : Nat) (d e : Dev) : Prop :=
  e = { d with path := e.path, tally := e.tally, out := e.out } ∧ ∀ j, j ≠ k → e.bq j = d.bq j

theorem SameButQueue.refl (k : Nat) (d : Dev) : SameButQueue k d d := ⟨rfl, fun _ _ => rfl⟩

theorem SameButQueue.trans {k : Nat} {d e f : Dev} (h : SameButQueue k d e) (g : SameButQueue k e f) : SameButQueue k d f :=
  ⟨by rw [g.1, h.1], fun j hj => (g.2 j hj).trans (h.2 j hj)⟩

/-- Counting an event leaves every queue. -/
theorem countN_queue (k : Nat) (d : Dev) (ev n : Nat) : SameButQueue k d (d.countN ev n) := by
  unfold Dev.countN
  dsimp only
  split
  · exact .refl k d
  · split
    · exact ⟨rfl, fun _ _ => rfl⟩
    · split
      · exact .refl k d
      · split <;> exact ⟨rfl, fun _ _ => rfl⟩

/-- A change of one queue. -/
theorem modBq_queue (d : Dev) (k : Nat) (f : BQueue → BQueue) : SameButQueue k d (d.modBq k f) :=
  ⟨rfl, fun j hj => by simp only [Dev.bq, Dev.modBq, tblGetD_put, hj, if_false]⟩

/-- The tags of a port's classes are no queue. -/
theorem keepClassTags_queue (k : Nat) (d : Dev) (port : Nat) : SameButQueue k d (d.keepClassTags port) := by
  unfold Dev.keepClassTags
  dsimp only
  suffices h : ∀ (g : Nat → VClass) (l : List Nat) (e : Dev), SameButQueue k d e →
      SameButQueue k d (l.foldl (fun d' c => d'.setVclass (512 + port * 8 + c) (g c)) e) from h _ _ d (.refl k d)
  intro g l
  induction l with
  | nil => exact fun e h => h
  | cons c l ih => exact fun e h => ih _ (h.trans ⟨rfl, fun _ _ => rfl⟩)

/-- A head's tag stands in its queue. -/
theorem tagHead_queue (d : Dev) (k : Nat) : SameButQueue k d (d.tagHead k) := by
  unfold Dev.tagHead
  dsimp only
  split
  · split
    · exact (modBq_queue d k _).trans (keepClassTags_queue k _ _)
    · exact .refl k d
  · exact .refl k d

/-- A notice is an output. -/
theorem notice_queue (k : Nat) (d : Dev) (die : Die) (q : Nat) : SameButQueue k d (d.notice die q) := by
  unfold Dev.notice
  split <;> exact ⟨rfl, fun _ _ => rfl⟩

/-- A frame put into a queue, or dropped before it (R235, R236). -/
theorem enqueue_queue (d : Dev) (die : Die) (q : Nat) (f : BFrame) :
    SameButQueue (queueKey die q) d (d.enqueue die q f).2 := by
  unfold Dev.enqueue
  dsimp only
  split
  · exact countN_queue _ d _ 1
  · refine SameButQueue.trans ?_ (notice_queue _ _ _ _)
    refine SameButQueue.trans ?_ (tagHead_queue _ _)
    exact (modBq_queue d _ _).trans ⟨rfl, fun _ _ => rfl⟩

/-- A raw frame goes into the raw egress queue of its port (R236, R237). -/
theorem rawEnqueue_queue (d : Dev) (t : RawTx) :
    SameButQueue (queueKey (portDie t.port) (65536 + t.port % 16)) d (d.rawEnqueue t) := enqueue_queue _ _ _ _

end Sys2Proof.Machine
end

