-- ==== Sys2Proof/WellFormed.lean ====
section
/-! DEFINITION. Well-formed commands: every operand that numbers an item of the device lies in the range the spec gives the
item. The meanings are total and do not rest on it. -/

namespace Sys2Proof

/-- A PCIe port or an Ethernet port: four of each. -/
def portOk (p : Nat) : Bool := p < 4
/-- A slice (SLICE of a command entry, 9 bits). -/
def sliceOk (s : Nat) : Bool := s < 512
/-- A plan slot (MIL_CAP_SLOTS.SLOTS). -/
def slotOk (s : Nat) : Bool := s < 64
/-- A die-to-die link (Table 1.2, R24). -/
def linkOk (k : Nat) : Bool := k < 13
/-- A Mill unit. -/
def unitOk (n : Nat) : Bool := n < 16
/-- A queue pair number, 24 bits (Table 6.3). -/
def qpnOk (q : Nat) : Bool := q < 2 ^ 24
/-- A core (the 202 core IDs of Table 11.1, R332). -/
def coreOk (c : Nat) : Bool := c < 0xCA
/-- A seed of the steering hash (BKR_HASH_SEED). -/
def seedOk (k : Nat) : Bool := k < 4
/-- A replica of Ring (TIM_REPLICA_ERR). -/
def replicaOk (m : Nat) : Bool := m < 5
/-- A channel of LPDDR5X (MEM_CH_STATE). -/
def channelOk (c : Nat) : Bool := c < 16
/-- A lane macro of an I/O die. -/
def macroOk (m : Nat) : Bool := m < 18
/-- A sync counter of a core (R332). -/
def counterOk (n : Nat) : Bool := n < 48
/-- A register of the spill window: base, size, IOVA. -/
def spillRegOk (r : Nat) : Bool := r < 3
/-- A fault source (Table 15.1). -/
def sourceOk (s : Nat) : Bool := s < 46
/-- A path of a queue pair (PATHS of Table 6.3, R199). -/
def pathOk (p : Nat) : Bool := p < 128
/-- A fetched send entry holds the opcode of its row, or a reserved one (Table 6.2), in its byte. -/
def wqeOk (op : Nat) (w : Wqe) : Bool :=
  w.opcode < 256 && (w.opcode == op || !wqeOpcodes.contains w.opcode)
/-- A memory unit that exists: a channel, or an SRAM of MEM_SRAM_AVAIL. -/
def memUnitOk : MemUnit → Bool
  | .chan c => channelOk c
  | .sram m => m < 6

/-- The path of a register access names a port and a slice that exist. -/
def viaOk : Via → Bool
  | .bar0 p => portOk p
  | .page p _ s => portOk p && sliceOk s
  | .rom p _ => portOk p

/-- The transport of an SPDM message names a port that exists, or a node number of 16 bits. -/
def spdmViaOk : SpdmVia → Bool
  | .doe p => portOk p
  | .mctp _ => true
  | .peer n => n < 2 ^ 16

/-- The issuer of a command entry exists. -/
def issuerOk : Issuer → Bool
  | .pf0 p => portOk p
  | .mbox p => portOk p
  | .page s => sliceOk s
  | .side _ => true

/-- A command entry: its issuer exists and its SLICE field is a 16-bit field (Table 12.5). -/
def cmdOk (c : Cmd) : Bool := issuerOk c.iss && c.slice < 2 ^ 16

/-- Every numbering operand of the command lies in its range. -/
def Instr.wf : Instr → Bool
  | .regWrite via _ _ _ _ => viaOk via
  | .lowWordWrite via _ _ => viaOk via
  | .highWordWrite via _ _ => viaOk via
  | .lowWordRead via _ => viaOk via
  | .readClear via _ _ => viaOk via
  | .access8b via _ _ => viaOk via
  | .lockSet via _ _ => viaOk via
  | .ringTick => true
  | .timAddendWrite port _ => portOk port
  | .timSetWrite port _ => portOk port
  | .timStepWrite port _ => portOk port
  | .timSlewWrite port _ => portOk port
  | .timNowRead port => portOk port
  | .timPpsCapRead port => portOk port
  | .replicaRealign replica _ => replicaOk replica
  | .ptpMessageReceive _ todo => todo.tx.all (fun t => portOk t.port)
  | .sourceLossHoldover _ => true
  | .ppsInEdge _ _ => true
  | .ppsOutRise => true
  | .ppsOutFall => true
  | .ptpConfig c => cmdOk c
  | .timeSecond c => cmdOk c
  | .ucieLaneRepair link => linkOk link
  | .ucieLinkRetrain link _ => linkOk link
  | .ucieLinkFail link => linkOk link
  | .rerouteRelease link => linkOk link
  | .planAdmit c _ _ => cmdOk c
  | .planStart c _ => cmdOk c
  | .planStop c => cmdOk c
  | .planRetire c => cmdOk c
  | .planEfReset c => cmdOk c
  | .planHyper c => cmdOk c
  | .planStatus c => cmdOk c
  | .milEvtClrWrite port _ => portOk port
  | .unitOutOfService n => unitOk n
  | .stepArm slot => slotOk slot
  | .planSignalWrite via slot _ _ _ => viaOk via && slotOk slot
  | .intakeStart slot _ => slotOk slot
  | .intakeEnd slot _ _ => slotOk slot
  | .residualFetchDone slot _ _ _ => slotOk slot
  | .residualWritebackDone slot _ _ => slotOk slot
  | .reduceDataReceive _ => true
  | .scalarPreStart slot => slotOk slot
  | .scalarReceive _ _ _ => true
  | .updateStart slot _ => slotOk slot
  | .updateEnd slot _ => slotOk slot
  | .scalarPostStart slot => slotOk slot
  | .gatherStart slot _ => slotOk slot
  | .gatherDataReceive _ => true
  | .readyRecordWrite slot _ _ => slotOk slot
  | .stepEnd slot => slotOk slot
  | .startReceive _ _ => true
  | .startWaitTimeout slot => slotOk slot
  | .peerTimeout slot _ _ => slotOk slot
  | .abortReceive _ => true
  | .embDoorbellWrite via slot _ _ _ _ => viaOk via && slotOk slot
  | .embLookup slot _ _ => slotOk slot
  | .embUpdate slot _ _ => slotOk slot
  | .embLoad slot _ _ => slotOk slot
  | .embRead slot _ _ => slotOk slot
  | .embReqReceive _ _ => true
  | .embRespReceive _ _ => true
  | .embUpdReceive _ _ => true
  | .embCompletion slot _ _ => slotOk slot
  | .eccCorrected u _ _ => memUnitOk u
  | .eccUncorrected u _ _ => memUnitOk u
  | .scrubRead u _ _ _ _ => memUnitOk u
  | .rowCopyDone ch _ => channelOk ch
  | .memSpareStartWrite _ => true
  | .spareChunkCopy => true
  | .pageZeroed => true
  | .poolZeroDone => true
  | .spillWindowWrite port reg _ => portOk port && spillRegOk reg
  | .spillBlockReadDone slot _ _ _ => slotOk slot
  | .qpCreate c _ => cmdOk c
  | .qpModify c _ _ => cmdOk c
  | .qpQuery c => cmdOk c
  | .qpDestroy c _ => cmdOk c
  | .cqCreate c => cmdOk c
  | .cqDestroy c => cmdOk c
  | .mrReg c => cmdOk c
  | .mrDereg c => cmdOk c
  | .ahCreate c _ => cmdOk c
  | .ahDestroy c => cmdOk c
  | .qpDoorbellWrite via _ _ _ _ => viaOk via
  | .cqDoorbellWrite via _ _ _ => viaOk via
  | .wqeSend qpn w _ => qpnOk qpn && wqeOk 0x00 w
  | .wqeSendImm qpn w _ => qpnOk qpn && wqeOk 0x01 w
  | .wqeWrite qpn w _ => qpnOk qpn && wqeOk 0x08 w
  | .wqeWriteImm qpn w _ => qpnOk qpn && wqeOk 0x09 w
  | .wqeRead qpn w _ => qpnOk qpn && wqeOk 0x10 w
  | .wqeCmpSwap qpn w _ => qpnOk qpn && wqeOk 0x18 w
  | .wqeFetchAdd qpn w _ => qpnOk qpn && wqeOk 0x19 w
  | .wqeAtomicWrite qpn w _ => qpnOk qpn && wqeOk 0x1A w
  | .wqeFlush qpn w _ => qpnOk qpn && wqeOk 0x20 w
  | .wqeWait qpn w _ => qpnOk qpn && wqeOk 0x30 w
  | .wqeNop qpn w _ => qpnOk qpn && wqeOk 0x31 w
  | .wqeComplete qpn => qpnOk qpn
  | .rxDataPacket _ => true
  | .rxReadRequest _ => true
  | .rxAtomicRequest _ _ => true
  | .rxFlushRequest _ _ => true
  | .rxSack _ _ _ => true
  | .rxNak _ _ => true
  | .rxReadResponse _ _ _ => true
  | .rxAtomicResponse _ _ => true
  | .rxCnp _ => true
  | .rxRcReport _ _ => true
  | .ackDelayExpiry qpn => qpnOk qpn
  | .reorderWinExpiry qpn => qpnOk qpn
  | .retransmitTimeout qpn => qpnOk qpn
  | .pathProbe qpn path => qpnOk qpn && pathOk path
  | .pathHoldExpiry qpn path => qpnOk qpn && pathOk path
  | .pressureDecay qpn => qpnOk qpn
  | .recoveryEvent qpn => qpnOk qpn
  | .contextFetchDone qpn _ => qpnOk qpn
  | .contextWritebackDone qpn => qpnOk qpn
  | .absentQpnExpiry qpn => qpnOk qpn
  | .frameReceive port _ => portOk port
  | .fragEntryTimeout _ _ => true
  | .frameTransmit port _ => portOk port
  | .calendarSlot _ => true
  | .bomQueueFlush _ _ => true
  | .cellSweep _ => true
  | .bkrTblDataWrite port _ => portOk port
  | .bkrTblDataRead port => portOk port
  | .bkrHashSeedWrite k _ => seedOk k
  | .fluPolCfgWrite port _ => portOk port
  | .queueSamplePeriod port => portOk port
  | .hotReset p _ => portOk p
  | .linkDown p => portOk p
  | .flr p _ => portOk p
  | .bmeClear p _ => portOk p
  | .bmeSet p _ => portOk p
  | .d3hotEntry p _ => portOk p
  | .d3hotExit p _ => portOk p
  | .pcieCompletionReceive p _ _ _ _ _ => portOk p
  | .completionTimeout p _ => portOk p
  | .quarantineEnd p _ => portOk p
  | .atsInvalidation p _ _ _ => portOk p
  | .malformedTlp p _ _ => portOk p
  | .sliceBind c => cmdOk c
  | .sliceQuota c => cmdOk c
  | .sliceWindow c => cmdOk c
  | .sliceQuiesce c => cmdOk c
  | .sliceQuiesced slice => sliceOk slice
  | .quiesceDeadline slice => sliceOk slice
  | .sliceResume c => cmdOk c
  | .sliceReset c => cmdOk c
  | .sliceUnbind c => cmdOk c
  | .ccEnable slice port _ => sliceOk slice && portOk port
  | .ccDisable slice port _ => sliceOk slice && portOk port
  | .ccShutdown slice port _ => sliceOk slice && portOk port
  | .nvmeSqDoorbell slice port _ _ => sliceOk slice && portOk port
  | .nvmeCqDoorbell slice port _ _ => sliceOk slice && portOk port
  | .createIoSq slice port _ => sliceOk slice && portOk port
  | .createIoCq slice port _ => sliceOk slice && portOk port
  | .deleteIoSq slice port _ => sliceOk slice && portOk port
  | .deleteIoCq slice port _ => sliceOk slice && portOk port
  | .getLogPage slice port _ => sliceOk slice && portOk port
  | .nvmeIdentify slice port _ => sliceOk slice && portOk port
  | .nvmeAbort slice port _ => sliceOk slice && portOk port
  | .setFeatures slice port _ => sliceOk slice && portOk port
  | .getFeatures slice port _ => sliceOk slice && portOk port
  | .asyncEventRequest slice port _ => sliceOk slice && portOk port
  | .queueRestart slice port _ _ => sliceOk slice && portOk port
  | .nvmeWrite slice port _ _ => sliceOk slice && portOk port
  | .nvmeRead slice port _ _ => sliceOk slice && portOk port
  | .nvmeFlush slice port _ _ => sliceOk slice && portOk port
  | .writeZeroes slice port _ _ => sliceOk slice && portOk port
  | .datasetManagement slice port _ _ _ => sliceOk slice && portOk port
  | .unitDestageStart _ _ => true
  | .oldBlocksReadDone _ _ _ => true
  | .extentWriteDone _ _ => true
  | .targetFlushDone _ _ => true
  | .mapCasDone _ _ _ => true
  | .mapPersistDone _ _ => true
  | .targetOpTimeout _ _ _ => true
  | .volAttach c _ _ => cmdOk c
  | .volDetach c => cmdOk c
  | .ckptRegions c _ => cmdOk c
  | .ckptStart c _ => cmdOk c
  | .ckptRelease c => cmdOk c
  | .ckptAbort c => cmdOk c
  | .ckptRestore c _ _ _ => cmdOk c
  | .failureWarning _ => true
  | .quietTimeEnd _ => true
  | .quiescePoint => true
  | .quiesceWaitExpiry => true
  | .regionCopyDone _ => true
  | .holdEnd => true
  | .drainChunkWritten => true
  | .cbwStallLimit => true
  | .drainFlushDone => true
  | .commitFlushDone => true
  | .restoreChunkRead _ _ _ _ _ => true
  | .crdVolWrite _ _ _ => true
  | .aluS core _ => coreOk core
  | .addiS core _ => coreOk core
  | .liS core _ => coreOk core
  | .shiS core _ => coreOk core
  | .lwS core _ => coreOk core
  | .swS core _ => coreOk core
  | .bezS core _ => coreOk core
  | .bnzS core _ => coreOk core
  | .jS core _ => coreOk core
  | .sigS core _ => coreOk core
  | .waitcS core _ => coreOk core
  | .jrS core _ => coreOk core
  | .nop core _ => coreOk core
  | .fence core _ => coreOk core
  | .eret core _ => coreOk core
  | .halt core _ => coreOk core
  | .brk core _ => coreOk core
  | .sys core _ => coreOk core
  | .wfi core _ => coreOk core
  | .rep core _ => coreOk core
  | .repx core _ => coreOk core
  | .alu core _ => coreOk core
  | .addi core _ => coreOk core
  | .andi core _ => coreOk core
  | .ori core _ => coreOk core
  | .xori core _ => coreOk core
  | .lui core _ => coreOk core
  | .seqi core _ => coreOk core
  | .slti core _ => coreOk core
  | .sltiu core _ => coreOk core
  | .shi core _ => coreOk core
  | .lw core _ => coreOk core
  | .sw core _ => coreOk core
  | .lk core _ => coreOk core
  | .sk core _ => coreOk core
  | .lbu core _ => coreOk core
  | .lhu core _ => coreOk core
  | .sb core _ => coreOk core
  | .sh core _ => coreOk core
  | .bez core _ => coreOk core
  | .bnz core _ => coreOk core
  | .jal core _ => coreOk core
  | .jalr core _ => coreOk core
  | .kop core _ => coreOk core
  | .cvt core _ => coreOk core
  | .csr core _ => coreOk core
  | .crc core _ => coreOk core
  | .issue core _ => coreOk core
  | .syncSig core _ => coreOk core
  | .syncSigr core _ => coreOk core
  | .syncWaitc core _ => coreOk core
  | .syncWaito core _ => coreOk core
  | .syncTryc core _ => coreOk core
  | .syncRdc core _ => coreOk core
  | .syncAdjc core _ => coreOk core
  | .syncClrc core _ => coreOk core
  | .syncWaitRelease core ctr => coreOk core && counterOk ctr
  | .issueOpComplete core _ => coreOk core
  | .interruptTake core => coreOk core
  | .samplingInterrupt core => coreOk core
  | .debugResume core => coreOk core
  | .stateDump port _ => portOk port
  | .deadlockFire => true
  | .negotiate c => cmdOk c
  | .identify c => cmdOk c
  | .powerState c _ => cmdOk c
  | .powerCap c => cmdOk c
  | .imageLoad c _ => cmdOk c
  | .imageActivate c => cmdOk c
  | .flashCommit c => cmdOk c
  | .coreRestart c => cmdOk c
  | .keySlotAlloc c => cmdOk c
  | .keySlotLoad c _ => cmdOk c
  | .keySlotErase c => cmdOk c
  | .keySlotQuery c => cmdOk c
  | .sessionOpen c => cmdOk c
  | .sessionClose c => cmdOk c
  | .sqTailWrite via _ _ => viaOk via
  | .cqHeadWrite via _ => viaOk via
  | .sqEnableWrite via _ => viaOk via
  | .mboxGo port => portOk port
  | .leaseRenew _ _ => true
  | .leaseLoss _ => true
  | .leaseClaim _ _ => true
  | .leaseConflictTimeout => true
  | .sramTestStage _ => true
  | .imageReadStage _ => true
  | .verifyStage => true
  | .applyStage _ _ _ => true
  | .watchdogExpiry core => coreOk core
  | .coreResume core _ => coreOk core
  | .handoffSavePoint core _ => coreOk core
  | .activationAbandon _ => true
  | .pldmRequestUpdate => true
  | .pldmPassComponentTable _ => true
  | .pldmUpdateComponent _ => true
  | .pldmFirmwareData _ => true
  | .pldmActivateFirmware => true
  | .pldmGetStatus => true
  | .spdmGetVersion via => spdmViaOk via
  | .spdmGetCapabilities via _ => spdmViaOk via
  | .spdmNegotiateAlgorithms via _ => spdmViaOk via
  | .spdmGetDigests via => spdmViaOk via
  | .spdmGetCertificate via _ _ _ => spdmViaOk via
  | .spdmChallenge via _ _ => spdmViaOk via
  | .spdmGetMeasurements via _ _ _ => spdmViaOk via
  | .spdmKeyExchange via => spdmViaOk via
  | .spdmFinish via _ => spdmViaOk via
  | .spdmEndSession via _ => spdmViaOk via
  | .spdmHeartbeat via _ => spdmViaOk via
  | .spdmVendorDefined via _ _ _ _ qpn => spdmViaOk via && qpnOk qpn
  | .spdmResponseReceive _ _ => true
  | .sessionHandshakeTimeout _ => true
  | .cipherSeal _ _ => true
  | .cipherOpen _ _ => true
  | .cipherXtsEnc _ _ => true
  | .cipherXtsDec _ _ => true
  | .cipherGmac _ _ => true
  | .oldSessionExpiry _ => true
  | .resealDone _ => true
  | .entropyFail _ => true
  | .brkSliceSlotsWrite port _ => portOk port
  | .powerTransitionDone => true
  | .w2StopTimeout => true
  | .supplyDipStart => true
  | .supplyDipEnd => true
  | .dipClampRelease => true
  | .thermalClampSet => true
  | .thermalClampRelease => true
  | .powerClampSet => true
  | .powerClampRelease => true
  | .uvResetTrip => true
  | .ovTrip => true
  | .thermalTrip => true
  | .tripRestart => true
  | .rangerLoop _ _ _ _ _ _ => true
  | .powerOn => true
  | .coldReset _ _ _ _ => true
  | .warmReset _ => true
  | .faultEvent src _ _ _ _ _ => sourceOk src
  | .faultNPulseEnd => true
  | .fltForceWrite port _ => portOk port
  | .fltLogIdxWrite port _ => portOk port
  | .tlySnapWrite => true
  | .snapshotDone => true
  | .tlyPolSelWrite port _ => portOk port
  | .mctpDiscovery port _ => portOk port
  | .sensorPoll port _ => portOk port
  | .sensorResponse port _ _ _ _ _ _ _ _ => portOk port
  | .sensorPollTimeout port _ => portOk port
  | .pdrChangeEvent port _ _ => portOk port
  | .telemetryDatagram _ _ => true
  | .xclkALoss => true
  | .xclkBLoss => true
  | .laneMacroFail _ m => macroOk m
  | .pcieLinkUp p _ _ _ => portOk p
  | .ethLinkUp port => portOk port
  | .rnrTimerExpiry qpn => qpnOk qpn
  | .targetReadDone slice port _ _ _ _ => sliceOk slice && portOk port
  | .configurationWrite p _ _ => portOk p
  | .flashWriteDone _ _ => true

end Sys2Proof
end

