-- ==== Sys2Proof/Tests/Slice0.lean ====
section
/-! SUPPORT. Tests: small checks of the well-formedness checks and of single commands, and for each statement a state that meets
its hypotheses. -/

namespace Sys2Proof.Tests

open Sys2Proof Sys2Proof.Machine

/-- A running device whose PF0 of port 0 and 1 and page 3 agreed the command interface. -/
def up : Dev :=
  { Dev.init with scaler := { Dev.init.scaler with
      boot := .running, lease := { Lease.init with acting := [.west] }, agreed := [(1, 0x0700), (2, 0x0703), (17, 0x0700), (257, 0x0700), (304, 0x0700), (305, 0x0700)] } }

/-- The device with register fields set. -/
def withRegs (d : Dev) (l : List (Fld × Nat × Nat)) : Dev := l.foldl (fun d e => d.setFld e.1 e.2.1 e.2.2) d

/-- A command entry of the PF0 of port 0 for a slice, with its first parameter words. -/
def cm (slice : Nat) (w : List W64) : Cmd :=
  ⟨.pf0 0, 0x0700, 5, 0, slice, w.getD 0 0, w.getD 1 0, w.getD 2 0, w.getD 3 0, w.getD 4 0, w.getD 5 0⟩

/-- The same entry through the mailbox of port 0. -/
def mb (slice : Nat) (w : List W64) : Cmd := { cm slice w with iss := .mbox 0 }

/-- The same entry of the page of a slice. -/
def pg (slice : Nat) (w : List W64) : Cmd := { cm slice w with iss := .page slice }

/-- A bound slice of PF0 of port 0. -/
def sl0 : Slice := { Slice.init with state := .active, ports := 1, qpQuota := 100, cellQuota := 1000, share := 50 }

/-- A plan of one node with nothing in it. -/
def cfg0 : PlanCfg :=
  { planId := 7, allowSpill := false, signed := false, seed := 0, step0 := 0, sramBytes := 0, lpddrBytes := 0, spillable := 0,
    xgroup := 0, garrays := 0, seq := 0, share := 1, contrib := 1, streams := [], xforms := [],
    sched := { levels := [], skipNonfinite := false, peerTimeout := 1, startWait := 1, peers := [0], regions := [], readyReg := 0, clip := 0 },
    opts := [], embQ := [], embT := [], syncs := [], progs := [], skipped := 0 }

/-- A device with slice 0 bound and active and the plan in slot 4. -/
def withPlan (d : Dev) : Dev :=
  { d with
    slices := [(0, sl0)]
    mill := { d.mill with plans := [(4, cfg0.plan 0 0 0 [] [] [] [] [] [] 0 [] [])] } }

/-- The command names a plan, and it is such. -/
def planIs (r : Nat ⊕ (Nat × Plan)) (f : Nat → Plan → Bool) : Bool :=
  match r with
  | .inr (n, p) => f n p
  | .inl _ => false

/-- A gradient stream of 1,000 bfloat16 elements that accelerator 2 supplies, with bfloat16 residuals. -/
def str0 : StreamCfg :=
  { num := 0, kind := 2, xform := 0, inFmt := 2, wireFmt := 2, outFmt := 2, acc := 1, resid := 2, h := 0, xprec := false, elements := 1000,
    tscale := 0, shapeN := 0, source := 0, dest := 0, rank := 0 }

/-- A parameter stream of it, and an optimizer group. -/
def par0 : StreamCfg := { str0 with num := 1, kind := 3, outFmt := 4, resid := 0xFF }
def opt0 : OptCfg :=
  { kind := 1, clip := false, init := false, program := 0, first := 0, count := 1, lr := 0, b1 := 0, b2 := 0, eps := 0, wd := 0,
    gscale := 0x3F800000, lrKind := 0, warmup := 0, decay := 0, lrMin := 0, t0 := 1, initSrc := 0 }

/-- The device with that stream in its plan. -/
def withStream (d : Dev) : Dev :=
  (withPlan d).modPlan 4 (fun p => { p with
    cfg := { p.cfg with streams := [str0], sched := { p.cfg.sched with regions := [⟨0, 0, 0, 0⟩, ⟨0, 0, 0, 0⟩, ⟨4, 0, 0x1000, 0x1000⟩] } }
    streams := [StreamSt.init []] })

/-- The device with a window of slice 0 over the first MiB of its addresses. -/
def withWin (d : Dev) : Dev :=
  d.modSlice 0 (fun x => { x with windows := [(0, ⟨true, 0, true, true, 0, 0x100000⟩)] })

/-- Port 0 up, with Bus Master Enable 1 on PF0. -/
def withLink (d : Dev) : Dev := d.modPort 0 (fun q => { q with up := true, pf0 := { q.pf0 with bme := true } })

/-- The device with an embedding table of 10 rows, all of this device, and one posted descriptor. -/
def tab0 : EmbTab :=
  { table := 9, rowFmt := 1, rowOpt := 0, dim := 4, rows := 10, lr := 0, b1 := 0, b2 := 0, eps := 0, shards := 1, firstRank := 0, stream := 0,
    sr := false, init := 0 }
def withEmb (d : Dev) : Dev :=
  (withWin (withStream d)).modPlan 4 (fun p => { p with
    cfg := { p.cfg with embT := [tab0], embQ := [⟨0, 2, 64, 0, 0⟩] }
    rings := [(0, ⟨1, 0, 0⟩)] })
def dsc0 : EmbDesc :=
  { op := 1, pool := 0, table := 9, bags := 1, fmt := 1, argmax := false, tag := 0x55, offsets := [0, 2], indices := [3, 12], weights := [],
    data := [[1, 2, 3, 4], [5, 6, 7, 8]], argmaxIn := [], offsetsAddr := 0x1000, indexAddr := 0x1100, weightsAddr := 0, dataAddr := 0x2000,
    argmaxAddr := 0, reservedOk := true }

/-- A loaded key that may seal and open, of the device. -/
def key0 : KeySlot :=
  { state := .loaded, use := 1, owner := .device, held := false, refs := 0, challenge := none, key := 5, salt := 0, limit := 2 ^ 40,
    next := 2000, leaseW := (0, 1000), leaseE := (1000, 2000) }
def withKey (d : Dev) (n : Nat) (k : KeySlot) : Dev := d.putKey n k

/-- A running device whose first lane group is eight single lanes, with the macros of a cold reset. -/
def withLanes : Dev := { up with lanes := { up.lanes with group := [2, 0, 3, 3], macros := (List.range 32).map (fun n => (n, n % 16)) } }

/-- A device with a completion queue, a region in LPDDR5X and an address handle of slice 0, and a key of it. -/
def withObjs (d : Dev) : Dev :=
  { (d.putKey 7 { key0 with owner := .slice 0 }) with skid := { d.skid with
    cqs := [(0, ⟨0, 0x8000, 6, 0, 0, 0, false, []⟩)]
    mrs := [(0, ⟨0, 1, 0, 4096, 15, 0, true, true, 0⟩)]
    ahs := [(0, ⟨0, 0, 0, 0, 0, 0, 5⟩)]
    pages := [(0, 3)] } }

/-- The words of a template: PMTU 1, one path, rings of 64, RTO_MIN 8, one request each way, key slot 7, all access rights. -/
def tpl0 : Nat :=
  2 ^ 336 + 2 ^ 344 + 6 * 2 ^ 784 + 6 * 2 ^ 816 + 8 * 2 ^ 432 + 2 ^ 960 + 2 ^ 968 + 7 * 2 ^ 384 + 15 * 2 ^ 376 + 7 * 2 ^ 416

/-- The states that the tests use. -/
inductive QS where
  | rtr
  | rts
  | sqd
  deriving DecidableEq, Repr

/-- A cached queue pair of slice 0 from that template, in Skid mode, in a state. -/
def qp0 (st : QS) : Qp :=
  let st := match st with
    | .rtr => 2
    | .rts => 3
    | .sqd => 4
  { Qp.of (BitVec.ofNat 2048 (tpl0 + 0x0100 + st * 2 ^ 16 + 4 * 2 ^ 24 + 2 * 2 ^ 32 + 9 * 2 ^ 64)) with cache := some 0 }
def withQp (d : Dev) (n : Nat) (q : Qp) : Dev := { d with skid := { d.skid with qps := tblPut d.skid.qps n q } }

/-- An entry of 8 bytes, signaled. -/
def wqe0 : Wqe :=
  { signaled := true, fence := false, disarmed := false, persist := false, solicited := false, opcode := 0x08, reserved := 0, imm := 0, wrId := 0x77,
    laddr := 0x1000, len := 8, rkey := 0, raddr := 0x2000, op1 := 0, op2 := 0, trigName := 0, trigCount := 0 }

/-- The header of a packet for queue pair 2 of slice 0 from a port of the west die, over IPv4, with an opcode and a PSN. -/
def hdr0 (op psn : Nat) (sxh : List Byte) : PktHdr :=
  { die := .west, slice := 0, net := zeros 12 ++ [8, 0, 0x45] ++ zeros 27, bth := bthBytes op false false 0 2 psn, sxh := sxh, aeth := 0, icv := [],
    icrc := [] }

/-- An SXH that names key slot 7, of node 1. -/
def sxh0 : List Byte := sxhBytes false false false 0 1 0 7 1 0 8 0

/-- A packet of standard mode with its ICRC. -/
def icrc0 (f : PktHdr → RxPkt) (h : PktHdr) : RxPkt := f { h with icrc := icrcOf h.net (h.bth ++ (f h).body) }

/-- Eight bytes for address 64 of the first region, or for a receive entry, with their ICRC. -/
def wr0 (h : PktHdr) : DataPkt :=
  let x : DataPkt := ⟨h, ⟨64, 0x01000000, 8⟩, 0, 0, 0, [1, 2, 3, 4, 5, 6, 7, 8], []⟩
  { x with hdr := rxHdr (icrc0 (fun h => .data { x with hdr := h }) h) }

/-- A queue pair without Skid headers. -/
def qp1 (st : QS) : Qp := (qp0 st).put cMode 0
def sent0 : Sent :=
  { psn := 0, pkt := ⟨0x06, false, [], [], [], 0, 0, 0⟩, path := 0, at_ := 0, stamp := 0, times := 1, sacked := false, left := false }

/-- A volume of slice 0 with namespace 1, 4 units, one target and no cache, attached with index 0, and a controller of port 0 with an
awaited admin and an awaited I/O entry. -/
def vol0 : Volume :=
  { desc := { version := 0x0100, volume := 1, slice := 0, nsid := 1, die := .west, force := false, ro := false, units := 4, cachePages := 0, keyData := 8, keyTag := 7, mapAh := 0, mapRkey := 0, mapAddr := 0x1000, targets := [(0, 0, 0)], reservedOk := true }
    ownerWord := 1
    fenced := false
    wce := false
    map := []
    extents := [8]
    jobs := []
    nextJob := 0
    qps := []
    detach := none
    tagFail := 0
    retried := 0
    freezes := 0
    conflicts := 0 }
def withNv (d : Dev) : Dev :=
  let d := d.putKey 7 { key0 with owner := .slice 0 }
  { d with
    ports := [(0, { (d.port 0) with up := true, pf0 := { Fn.init with bme := true } })]
    slices := [(0, { sl0 with nvq := 8, vecCount := 2, windows := [(0, ⟨true, 0, true, true, 0, 0x100000⟩)] })]
    nvm := { d.nvm with
      vols := [(0, vol0)]
      ctrls := [(0, { Ctrl.init with
        rdy := true
        sqs := [(0, ⟨0, 0x1000, 8, 1, 1, 0, false⟩), (1, ⟨1, 0x2000, 8, 1, 1, 0, false⟩)]
        cqs := [(0, ⟨0x3000, 8, true, 0, 0, 0, []⟩), (1, ⟨0x4000, 8, false, 0, 0, 0, []⟩)] })] } }

/-- The device with a checkpoint volume of 2^30 units, the staging reserve and a key of the device for its chunks. -/
def withCkpt (d : Dev) : Dev :=
  let d := withRegs (d.putKey 5 key0) [(F.MEM_CAP_STAGING_GIB, 0, 4), (F.CRD_VOL_VALID, 0, 1), (F.CRD_VOL_VOL, 0, 0), (F.CRD_KEY_SLOT, 0, 5), (F.SKD_NODE_NODE, 0, 1)]
  { d with nvm := { d.nvm with vols := [(0, { vol0 with desc := { vol0.desc with units := 2 ^ 30 } })] } }

/-- The device with a running core of some register values. -/
def withCore (d : Dev) (c : Nat) : Dev :=
  d.setCore c { Core.init with state := .running, regs := [(1, 5), (2, 0x1FFFFFFFF)], pc := 100, evec := 0x40, mem := [(5, 7)] }

/-- A configuration image that passes. -/
def img0 : CfgImage :=
  { seq := 1, sigOk := true, chainOk := true, version := 0x0100, minRom := 0x0700, badSection := 0, digest := 1, policyDigest := 2, node := 3,
    sparing := false, stagingGib := 4, scrubLp := 0, scrubSr := 0, ceiling := 950, mclkMax := 2000, uvWarn := 460, seeds := [], groups := [0, 0, 0, 0],
    txInv := 0, rxInv := 0, retireW := 0, retireE := 0, repairs := [], slices := [], signedPlans := false, operatorImages := false, scalerExt := none, fields := [] }

/-- A plan image of one device with nothing in it but a section that is skipped. -/
def planImg : List Byte :=
  [3, 7, 128, 0, 7, 0, 0, 0, 144, 0, 0, 0, 1] ++ List.replicate 0x2D 0 ++ [1, 1] ++ List.replicate 68 0 ++ [0, 0x80] ++ List.replicate 14 0

/-- The image passes the checks of its admission, and what it needs is free. -/
def admits (im : List Byte) (d : Dev) (c : Cmd) : Bool :=
  match planCheck im d.node (d.slice c.slice).holds with
  | .inl _ => false
  | .inr p => !p.signed && !d.signedPlans && p.xforms.all (fun x => x.kind ≠ 1 || orthogonal x) &&
    (match (d.takeEntry c 0x0101).fixedRes c.slice p (p.sched.peers.findIdx (· == d.node)) with
      | .inl _ => false
      | .inr (r, e) => (e.allocPages c.slice r.slot (pagesFor p.lpddrBytes)).isSome && decide (pagesFor p.lpddrBytes ≤ e.sliceFreePages c.slice))

/-- The hypotheses of StepRunsTheFrontCommand are met together (clause 1). -/
theorem test_wit_step_runs_the_front_command_1 : (⟨Dev.init, [.ringTick, .supplyDipEnd]⟩ : State).pending = Instr.ringTick :: [.supplyDipEnd] := by decide

/-- The hypotheses of StepRunsTheFrontCommand are met together (clause 2). -/
theorem test_wit_step_runs_the_front_command_2 : State.reset.pending = [] := by decide

/-- The hypotheses of RegisterWriteActsByAccessCode are met together. -/
theorem test_wit_register_write_acts_by_access_code_1 : let s : State := ⟨{ Dev.init with scaler := { Dev.init.scaler with boot := .running } }, []⟩
    s.dev.bar0Up 1 = true ∧ plainReg 0x1C = true ∧ s.dev.writeHeld 1 0x1C = none ∧ F.GEN_SCRATCH_DATA ∈ fieldsOf allRows 0x1C ∧
    (fieldsOf allRows 0x1C).filter (fun f => f.lo == F.GEN_SCRATCH_DATA.lo) = [F.GEN_SCRATCH_DATA] ∧
    s.dev.instOf 1 F.GEN_SCRATCH_DATA = some 1 ∧
    ∀ f ∈ fieldsOf allRows 0x1C, ∀ k ∈ s.dev.instOf 1 f, k < 4194304 := by decide

/-- The hypotheses of LockWriteSetsTheLock are met together. -/
theorem test_wit_lock_write_sets_the_lock_1 : let s : State := ⟨{ Dev.init with scaler := { Dev.init.scaler with boot := .running } }, []⟩
    s.dev.bar0Up 0 = true ∧ lockOf 0x100004 = some F.EPX_TAGCFG_LOCK ∧ F.EPX_TAGCFG_LOCK.off = 0x100004 ∧ plainReg 0x100004 = true ∧
    bit (BitVec.ofNat 32 (2 ^ F.EPX_TAGCFG_LOCK.lo)).toNat F.EPX_TAGCFG_LOCK.lo = true ∧ s.dev.writeHeld 0 0x100004 = none := by decide

/-- The hypotheses of ReservedOffsetsReadZeroAndCount are met together. -/
theorem test_wit_reserved_offsets_read_zero_and_count_1 : let d := { Dev.init with scaler := { Dev.init.scaler with boot := .hostWait } }
    d.bar0Up 0 = true ∧ fieldsOf allRows 0x100 = [] ∧ isPair 0xFC = false := by decide

/-- The hypotheses of PairWritesStageAndCommit are met together (clause 1). -/
theorem test_wit_pair_writes_stage_and_commit_1 : let s : State := ⟨{ Dev.init with scaler := { Dev.init.scaler with boot := .hostWait } }, []⟩
    s.dev.bar0Up 3 = true ∧ isPair 0x10010 = true ∧ isPair 0x10014 = false ∧ s.dev.flag F.SCL_SQ_CTRL_EN 3 = false := by decide

/-- The hypotheses of PairWritesStageAndCommit are met together (clause 2). -/
theorem test_wit_pair_writes_stage_and_commit_2 : let s : State := ⟨{ Dev.init with slices := [(7, { Slice.init with state := .active, kind := .tenant, ports := 4 })] }, []⟩
    s.dev.pageBound 2 .tenant 7 = true ∧ s.dev.flag F.PG_SQ_CTRL_EN 7 = false ∧
    { s.dev with regs := [(fldKey F.PG_SQ_CTRL_EN 7, ⟨1, 0, .w⟩)] }.flag F.PG_SQ_CTRL_EN 7 = true := by decide

/-- The hypotheses of PairWritesStageAndCommit are met together (clause 3). -/
theorem test_wit_pair_writes_stage_and_commit_3 : let s : State := ⟨{ Dev.init with scaler := { Dev.init.scaler with boot := .hostWait } }, []⟩
    s.dev.bar0Up 1 = true ∧ s.dev.fld F.TIM_CTRL_SRC 0 = 0 ∧ s.dev.ring.isSet = false ∧
    tblGet s.dev.host.staged (hostKey (.bar0 1) 0x40028) = none := by decide

/-- The hypotheses of ReadsLatchPairsAndClearCounts are met together (clause 1). -/
theorem test_wit_reads_latch_pairs_and_clear_counts_1 : let s : State := ⟨{ Dev.init with scaler := { Dev.init.scaler with boot := .running } }, []⟩
    s.dev.bar0Up 0 = true ∧ isPair 0x20020 = true ∧ isPair 0x2001C = false ∧
    (fieldsOf allRows 0x20020).all (fun f => f.acc != .rc) = true := by decide

/-- The hypotheses of ReadsLatchPairsAndClearCounts are met together (clause 2). -/
theorem test_wit_reads_latch_pairs_and_clear_counts_2 : let s : State := ⟨{ Dev.init with scaler := { Dev.init.scaler with boot := .running } }, []⟩
    s.dev.bar0Up 2 = true ∧ 0x20080 ∈ ([0x100018, 0x10001C, 0xD00030, 0x1002C, 0x90020, 0x20080] : List Nat) := by decide

/-- The hypotheses of ReadsLatchPairsAndClearCounts are met together (clause 3). -/
theorem test_wit_reads_latch_pairs_and_clear_counts_3 : let s : State := ⟨{ Dev.init with scaler := { Dev.init.scaler with boot := .running } }, []⟩
    s.dev.bar0Up 2 = true ∧ ¬((2 : Nat) = 4 ∧ 0x20080 % 4 = 0) ∧ ¬((2 : Nat) = 8 ∧ 0x20080 % 8 = 0) := by decide

/-- The hypotheses of RingAdvancesAtATick are met together. -/
theorem test_wit_ring_advances_at_a_tick_1 : up.bar0Up 2 = true ∧ up.fld F.TIM_CTRL_SRC 0 = 0 := by decide

/-- The hypotheses of TimWritesTakeEffectWithSourceZero are met together (clause 1). -/
theorem test_wit_tim_writes_take_effect_with_source_zero_1 : let s : State := ⟨{ Dev.init with scaler := { Dev.init.scaler with boot := .running } }, []⟩
    s.dev.bar0Up 1 = true ∧ s.dev.fld F.TIM_CTRL_SRC 0 = 0 ∧ s.dev.ring.isSet = false := by decide

/-- The hypotheses of TimWritesTakeEffectWithSourceZero are met together (clause 2). -/
theorem test_wit_tim_writes_take_effect_with_source_zero_2 : let s : State := ⟨{ Dev.init with scaler := { Dev.init.scaler with boot := .running }, ring := { Ring.init with isSet := true } }, []⟩
    s.dev.bar0Up 1 = true ∧ s.dev.fld F.TIM_CTRL_SRC 0 = 0 ∧ s.dev.ring.isSet = true := by decide

/-- The hypotheses of TimWritesDiscardedWhileServoOwnsRing are met together (clause 1). -/
theorem test_wit_tim_writes_discarded_while_servo_owns_ring_1 : let s : State := ⟨{ Dev.init with scaler := { Dev.init.scaler with boot := .running }, regs := [(fldKey F.TIM_CTRL_SRC 0, ⟨1, 0, .w⟩)] }, []⟩
    s.dev.bar0Up 1 = true ∧ s.dev.fld F.TIM_CTRL_SRC 0 ≠ 0 := by decide

/-- The hypotheses of TimWritesDiscardedWhileServoOwnsRing are met together (clause 2). -/
theorem test_wit_tim_writes_discarded_while_servo_owns_ring_2 : let d := { up with ring := { up.ring with isSet := true } }
    d.bar0Up 1 = true ∧ d.fld F.TIM_CTRL_SRC 0 = 0 ∧ d.ring.isSet = true := by decide

/-- The hypotheses of TimReadsLatchTheFraction are met together. -/
theorem test_wit_tim_reads_latch_the_fraction_1 : (⟨{ Dev.init with scaler := { Dev.init.scaler with boot := .running } }, []⟩ : State).dev.bar0Up 3 = true := by decide

/-- The hypotheses of ServoFollowsItsSource are met together (clause 1). -/
theorem test_wit_servo_follows_its_source_1 : let s : State := ⟨{ Dev.init with regs := [(fldKey F.TIM_CTRL_SRC 0, ⟨1, 0, .w⟩)], ring := { Ring.init with state := .locked } }, []⟩
    s.dev.fld F.TIM_CTRL_SRC 0 = 1 ∧ (4 : Nat) > 3 ∧ s.dev.ring.state = .locked ∧ s.dev.fld F.TIM_CTRL_SRC 0 ≠ 0 := by decide

/-- The hypotheses of ServoFollowsItsSource are met together (clause 2). -/
theorem test_wit_servo_follows_its_source_2 : let d := withRegs Dev.init [(F.TIM_CTRL_PPS_IN_EN, 0, 1), (F.TIM_CTRL_PPS_IN_EDGE, 0, 1)]
    d.flag F.TIM_CTRL_PPS_IN_EN 0 = true ∧ d.ring.ppsIn ≠ false ∧ false = !d.flag F.TIM_CTRL_PPS_IN_EDGE 0 ∧
    d.fld F.TIM_CTRL_SRC 0 < 2 := by decide

/-- The hypotheses of ServoFollowsItsSource are met together (clause 3). -/
theorem test_wit_servo_follows_its_source_3 : ((up.enqueue .west 65556 ⟨[1], 0, 0, none, none⟩).2.bq (queueKey .west 65556)).head = some ⟨[1], 0, 0, none, none⟩ ∧
    (up.bq (queueKey .east 65556)).head = none := by decide

/-- The hypotheses of ServoFollowsItsSource are met together (clause 4). -/
theorem test_wit_servo_follows_its_source_4 : State.reset.dev.flag F.TIM_CTRL_PPS_IN_EN 0 = false ∧ State.reset.dev.fld F.TIM_CTRL_SRC 0 ≠ 1 ∧ State.reset.dev.fld F.TIM_CTRL_SRC 0 ≠ 3 := by decide

/-- The hypotheses of ServoFollowsItsSource are met together (clause 5). -/
theorem test_wit_servo_follows_its_source_5 : let d := withRegs up [(F.TIM_CTRL_SRC, 0, 2)]
    let c := mb 0 []
    Served d c 0x0603 [.m] ∧ Served d c 0x0604 [.m, .b] ∧
    c.w 0 < 2 ^ 12 ∧ bits (c.w 0) 10 2 ≠ 3 ∧ d.fld F.TIM_CTRL_SRC 0 = 2 := by decide

/-- The hypotheses of PpsOutputAndReplicas are met together (clause 1). -/
theorem test_wit_pps_output_and_replicas_1 : let s : State := ⟨{ Dev.init with regs := [(fldKey F.TIM_CTRL_PPS_OUT_EN 0, ⟨1, 0, .w⟩)], ring := { Ring.init with ppsDue := true, isSet := true } }, []⟩
    s.dev.ring.ppsDue = true ∧ s.dev.flag F.TIM_CTRL_PPS_OUT_EN 0 = true ∧ s.dev.ring.isSet = true ∧ s.dev.ring.ppsOut = false := by decide

/-- The hypotheses of PpsOutputAndReplicas are met together (clause 2). -/
theorem test_wit_pps_output_and_replicas_2 : State.reset.dev.ring.isSet = false := by decide

/-- The hypotheses of PpsOutputAndReplicas are met together (clause 3). -/
theorem test_wit_pps_output_and_replicas_3 : (⟨{ Dev.init with ring := { Ring.init with ppsOut := true } }, []⟩ : State).dev.ring.ppsOut = true := by decide

/-- The hypotheses of PpsOutputAndReplicas are met together (clause 4). -/
theorem test_wit_pps_output_and_replicas_4 : let e := fun (k : Int) => tblGetD up.ring.skew 4 0 + k - (((10 / 2 : Nat) : Int) - 5)
    (e (2 ^ 32)).natAbs ≤ 2 ^ 32 ∧ 2 ^ 32 < (e (-4294967297)).natAbs ∧ up.ring.owed = [] ∧ up.path.unstamped = [] ∧ replicaOf (coreNode 0xB0) = some 4 := by decide

/-- The hypotheses of CommonChecksStopCommands are met together (clause 1). -/
theorem test_wit_common_checks_stop_commands_1 : let d := up
    let c := cm 0 []
    d.readHeld (.cmdRing c.iss) = false ∧ d.serves c.iss = true ∧ quietRing ((d.takeEntry c 0x0103).cmdRing c.iss) = true ∧ d.scaler.boot ≠ .hold ∧ d.agreedVer c.iss 1 ≠ none ∧
    c.version = 0x0700 ∧ c.flags.toNat < 2 ∧ c.slice < 512 ∧ c.iss.path ∈ [CmdPath.m] ∧ d.pwr.state ≠ 3 := by decide

/-- The hypotheses of CommonChecksStopCommands are met together (clause 2). -/
theorem test_wit_common_checks_stop_commands_2 : let d : Dev := { Dev.init with scaler := { Dev.init.scaler with boot := .hold, lease := { Lease.init with acting := [.west] } } }
    let c : Cmd := ⟨.side .west, 0x0700, 5, 0, 0, 0, 0, 0, 0, 0, 0⟩
    d.readHeld (.cmdRing c.iss) = false ∧ d.serves c.iss = true ∧ quietRing ((d.takeEntry c 0x0601).cmdRing c.iss) = true ∧ d.scaler.boot = .hold ∧ Die.east ≠ d.scaler.lease.lead := by decide

/-- The hypotheses of CompletionsReachTheirIssuer are met together (clause 1). -/
theorem test_wit_completions_reach_their_issuer_1 : let d : Dev := { Dev.init with ports := [(1, { Port.init with up := true, pf0 := { Fn.init with bme := true } })], regs := [(fldKey F.SCL_SQ_CTRL_EN 1, ⟨1, 1, .f⟩)] }
    let o : Owner := ⟨.pf0 1, 0x0103, 9, false, 0⟩
    d.ringEn o.iss = true ∧ (d.cmdRing o.iss).gen = o.gen ∧ (d.cmdRing o.iss).held = [] ∧ d.roomFor o.iss = true := by decide

/-- The hypotheses of CompletionsReachTheirIssuer are met together (clause 2). -/
theorem test_wit_completions_reach_their_issuer_2 : let o : Owner := ⟨.page 3, 0x0103, 9, false, 0⟩
    Dev.init.ringEn o.iss = false ∧ Dev.init.roomFor (.pf0 0) = false ∧ (Dev.init.cmdRing (.mbox 2)).gen = 0 := by decide

/-- The hypotheses of LinksRepairRetrainAndFail are met together (clause 1). -/
theorem test_wit_links_repair_retrain_and_fail_1 : (12 : Nat) < 13 ∧ 12 ∉ State.reset.dev.links.down ∧ State.reset.dev.cord.phase = .idle ∧ (State.reset.dev.links.failed.filter (fun e => e.1 = 12 ∧ State.reset.dev.clk - e.2 < sTicks 1)).length < 2 := by decide

/-- The hypotheses of LinksRepairRetrainAndFail are met together (clause 2). -/
theorem test_wit_links_repair_retrain_and_fail_2 : let d : Dev := { Dev.init with clk := 5, links := ⟨[], [(3, 4), (3, 2)], [], []⟩ }
    (3 : Nat) < 13 ∧ 3 ∉ d.links.down ∧ d.cord.phase = .idle ∧ 2 ≤ (d.links.failed.filter (fun e => e.1 = 3 ∧ d.clk - e.2 < sTicks 1)).length := by decide

/-- The hypotheses of LinksRepairRetrainAndFail are met together (clause 3). -/
theorem test_wit_links_repair_retrain_and_fail_3 : linkOf (.io .west) (coreNode 0x80) = some 0 ∧ linkOf (.mill 3) (coreNode 0xA0) = some 11 := by decide

/-- The hypotheses of PlanCommandsActOnTheirSlot are met together (clause 1). -/
theorem test_wit_plan_commands_act_on_their_slot_1 : let d := withPlan up
    let c := cm 0 [4]
    Served d c 0x0106 [.m] ∧ Served d c 0x0105 [.m] ∧ Served d c 0x0107 [.m] ∧ Served d c 0x0104 [.m] ∧ zeroFrom c 1 = true ∧
    zeroFrom c 2 = true ∧ c.w 1 < 0x7F800000 ∧ planIs (d.cmdPlan c) (fun n p => decide (n = 4 ∧ p.state = .admitted ∧ d.cordHolds p = false)) = true ∧ d.plan 9 = none := by decide

/-- The hypotheses of PlanCommandsActOnTheirSlot are met together (clause 2). -/
theorem test_wit_plan_commands_act_on_their_slot_2 : let d : Dev := { withPlan up with cord := { Cord.init with phase := .snapshot } }
    let c := cm 0 [4]
    Served d c 0x0104 [.m] ∧ planIs (d.cmdPlan c) (fun _ p => decide (p.state = .admitted ∧ d.cordHolds p = true)) = true := by decide

/-- The hypotheses of PlanStartAndStop are met together (clause 1). -/
theorem test_wit_plan_start_and_stop_1 : let d := withPlan up
    let c := cm 0 [4]
    Served d c 0x0102 [.m] ∧ zeroFrom c 1 = true ∧ d.fatal = false ∧ d.scaler.boot = .running ∧ d.pwr.state < 2 ∧ planIs (d.cmdPlan c) (fun n p => decide (n = 4 ∧ p.state = .admitted ∧ p.startX = none ∧ (d.slice p.slice).state = .active ∧ p.cfg.np = 1)) = true := by decide

/-- The hypotheses of PlanStartAndStop are met together (clause 2). -/
theorem test_wit_plan_start_and_stop_2 : let d := (withPlan up).modPlan 4 (fun p => { p with cfg := { p.cfg with sched := { p.cfg.sched with levels := [⟨2, 0, 1⟩], peers := [0, 1] } } })
    let c := cm 0 [4]
    Served d c 0x0102 [.m] ∧ planIs (d.cmdPlan c) (fun n p => decide (n = 4 ∧ p.state = .admitted ∧ p.startX = none ∧ (d.slice p.slice).state = .active ∧ p.cfg.np ≠ 1)) = true := by decide

/-- The hypotheses of PlanStartAndStop are met together (clause 3). -/
theorem test_wit_plan_start_and_stop_3 : let d := (withPlan up).modPlan 4 (fun p => { p with state := .running })
    let c := cm 0 [4]
    Served d c 0x0103 [.m] ∧ zeroFrom c 2 = true ∧ c.w 1 < 2 ∧ planIs (d.cmdPlan c) (fun n p => decide (n = 4 ∧ p.state = .running ∧ p.armed = false ∧ p.startX = none)) = true := by decide

/-- The hypotheses of PlanStartAndStop are met together (clause 4). -/
theorem test_wit_plan_start_and_stop_4 : let d := (withPlan up).modPlan 4 (fun p => { p with state := .running, armed := true })
    let c := cm 0 [4, 1]
    Served d c 0x0103 [.m] ∧ zeroFrom c 2 = true ∧ c.w 1 = 1 ∧ planIs (d.cmdPlan c) (fun n p => decide (n = 4 ∧ p.state = .running ∧ p.armed = true ∧ p.held = false)) = true := by decide

set_option maxRecDepth 100000 in
/-- The hypotheses of PlanAdmissionPlacesThePlan are met together (clause 1). -/
theorem test_wit_plan_admission_places_the_plan_1 : let im := planImg
    let d : Dev := { up with slices := [(0, sl0)] }
    let c := cm 0 [0x1000, 144]
    Served d c 0x0101 [.m] ∧ zeroFrom c 3 = true ∧ d.mayName c = true ∧ d.mill.admitBusy = false ∧ (d.slice c.slice).kind = .pf0 ∧ (d.slice c.slice).state = .active ∧ d.agreedVer c.iss 2 = some (half im 0) ∧
    c.w 1 = fieldAt im 8 4 ∧ c.w 1 = im.length := by decide

set_option maxRecDepth 100000 in
/-- The hypotheses of PlanAdmissionPlacesThePlan are met together (clause 2). -/
theorem test_wit_plan_admission_places_the_plan_2 : admits planImg (withRegs { up with slices := [(0, sl0)] } [(F.SKD_NODE_NODE, 0, 3), (F.MEM_POOL_PAGES_PAGES, 0, 10), (F.MEM_SRAM_AVAIL_BANKS_OK 2, 0, 384), (F.MEM_SRAM_AVAIL_BANKS_OK 3, 0, 384), (F.MEM_SRAM_AVAIL_BANKS_OK 4, 0, 384), (F.MEM_SRAM_AVAIL_BANKS_OK 5, 0, 384)]) (cm 0 [0x1000, 144]) = true := by decide +kernel

/-- The hypotheses of UnitsAndEventCounts are met together (clause 1). -/
theorem test_wit_units_and_event_counts_1 : (15 : Nat) < 16 ∧ (State.reset.dev.unit 15).state ≠ 3 ∧ State.reset.dev.plan (State.reset.dev.fld F.MIL_PLAN_SEL_SLOT 0) = none := by decide

/-- The hypotheses of UnitsAndEventCounts are met together (clause 2). -/
theorem test_wit_units_and_event_counts_2 : let d := withRegs (withPlan up) [(F.MIL_PLAN_SEL_SLOT, 0, 4)]
    (d.plan (d.fld F.MIL_PLAN_SEL_SLOT 0)).any (fun p => decide (d.manages 0 p.slice = true ∧ d.manages 1 p.slice = false)) = true := by decide

/-- The hypotheses of StepIsArmedAndTakesItsInputs are met together (clause 1). -/
theorem test_wit_step_is_armed_and_takes_its_inputs_1 : let d := (withStream up).modPlan 4 (fun p => { p with state := .running })
    (d.plan 4).any (fun p => decide (p.state = .running ∧ p.armed = false ∧ p.startX = none ∧ p.held = false ∧ p.heldPower = false)) = true := by decide

/-- The hypotheses of StepIsArmedAndTakesItsInputs are met together (clause 2). -/
theorem test_wit_step_is_armed_and_takes_its_inputs_2 : let d := (withStream up).modPlan 4 (fun p => { p with state := .running })
    let v : W32 := 0x02000000
    d.pageOk (.page 0 .pf0 0) 4 4 false = some 0 ∧ v.toNat < 2 ^ 27 ∧ (d.plan 4).any (fun p => (p.cfgOf (bits v.toNat 0 24)).any (fun c =>
      decide (p.slice = 0 ∧ p.state = .running ∧ c.kind ≤ 2 ∧ bits v.toNat 24 3 ∈ p.contributors c ∧ bits v.toNat 24 3 ∉ (p.stOf 0).latches ∧ p.maySignal 0 (bits v.toNat 24 3) = true))) = true ∧
    d.pageOk (.page 0 .pf0 0) 8 4 false = none := by decide

/-- The hypotheses of StepIsArmedAndTakesItsInputs are met together (clause 3). -/
theorem test_wit_step_is_armed_and_takes_its_inputs_3 : let d := (withStream up).modPlan 4 (fun p => { p with state := .running, armed := true, streams := p.streams.map (fun x => { x with latches := [2] }) })
    (d.plan 4).any (fun p => (p.cfgOf 0).any (fun c => decide (p.runs = true ∧ p.held = false ∧ p.rerun ≠ .gatherOnly ∧ c.kind ≤ 2 ∧
      0 < p.streams.length ∧ (p.stOf 0).phase = 0 ∧ (p.contributors c).all (fun a => (p.stOf 0).latches.contains a) = true))) = true := by decide

/-- The hypotheses of StepIsArmedAndTakesItsInputs are met together (clause 4). -/
theorem test_wit_step_is_armed_and_takes_its_inputs_4 : let d := (withStream up).modPlan 4 (fun p => { p with state := .running, armed := true, streams := p.streams.map (fun x => { x with phase := 1 }) })
    (d.plan 4).any (fun p => decide (p.runs = true ∧ 0 < p.streams.length ∧ (p.stOf 0).phase = 1 ∧ (p.stOf 0).ended = false ∧ p.cfg.np = 1)) = true := by decide

/-- The hypotheses of StepIsArmedAndTakesItsInputs are met together (clause 5). -/
theorem test_wit_step_is_armed_and_takes_its_inputs_5 : let d := (withStream up).modPlan 4 (fun p => { p with state := .running, armed := true, cfg := { p.cfg with sched := { p.cfg.sched with peers := [0, 1] } }, streams := p.streams.map (fun x => { x with phase := 2 }) })
    (d.plan 4).any (fun p => (p.cfgOf 0).any (fun c => decide (p.runs = true ∧ (p.stOf 0).phase = 2 ∧ (p.stOf 0).ended = false ∧ c.resid ≠ 0xFF ∧
      p.cfg.np ≠ 1 ∧ c.kind ≠ 1 ∧ (p.stOf 0).nextChunk = 0 ∧ 0 < p.rotLen c))) = true := by decide

/-- The hypotheses of StepIsArmedAndTakesItsInputs are met together (clause 6). -/
theorem test_wit_step_is_armed_and_takes_its_inputs_6 : let d := (withStream up).modPlan 4 (fun p => { p with streams := p.streams.map (fun x => { x with residNew := [(256, [5])] }) })
    (d.plan 4).any (fun p => decide (0 < p.streams.length ∧ (p.stOf 0).residNew.find? (fun e => e.1 = 256) = some (256, [5]))) = true := by decide

/-- The hypotheses of ScalarsUpdatesAndGather are met together (clause 1). -/
theorem test_wit_scalars_updates_and_gather_1 : let d := (withStream up).modPlan 4 (fun p => { p with state := .running, armed := true, cfg := { p.cfg with sched := { p.cfg.sched with skipNonfinite := true } } })
    (d.plan 4).any (fun p => decide (p.runs = true ∧ p.cfg.sched.levels = [] ∧ p.rerun ≠ .gatherOnly ∧ p.needsPre = true ∧ p.preDone = false ∧ p.scal = none ∧
      p.cfg.opts.all p.reduced = true)) = true := by decide

/-- The hypotheses of ScalarsUpdatesAndGather are met together (clause 2). -/
theorem test_wit_scalars_updates_and_gather_2 : let d := (withStream up).modPlan 4 (fun p => { p with state := .running, armed := true, cfg := { p.cfg with streams := p.cfg.streams ++ [par0], opts := [opt0] }, groups := [⟨3, true, true⟩], streams := p.streams ++ [StreamSt.init []] })
    (d.plan 4).any (fun p => decide (p.runs = true ∧ p.scaleStreams = [1] ∧ p.postDone = false ∧ p.scal = none ∧ p.skipped = false ∧ p.groupDone 0 = true)) = true ∧
    (d.plan 4).any (fun p => (p.cfgOf 1).any (fun c => decide (c.kind = 3 ∧ 1 < p.streams.length ∧ c.gradOf = 0))) = true := by decide

/-- The hypotheses of ScalarsUpdatesAndGather are met together (clause 3). -/
theorem test_wit_scalars_updates_and_gather_3 : let d := (withStream up).modPlan 4 (fun p => { p with state := .running, armed := true, cfg := { p.cfg with opts := [opt0] }, groups := [⟨3, false, false⟩], streams := p.streams.map (fun x => { x with phase := 3, ended := true }) })
    (d.plan 4).any (fun p => decide (p.mayUpdate 0 opt0 = true ∧ p.updates = true ∧ opt0.kind ≠ 0x0F ∧ p.spillBytes = 0 ∧ 0 ∈ opt0.streams ∧ 0 < p.streams.length)) = true := by decide

/-- The hypotheses of ScalarsUpdatesAndGather are met together (clause 4). -/
theorem test_wit_scalars_updates_and_gather_4 : let d := (withStream up).modPlan 4 (fun p => { p with state := .running, armed := true, cfg := { p.cfg with opts := [opt0] }, groups := [⟨3, true, false⟩] })
    d.programRuns 4 0 = false ∧ (d.plan 4).any (fun p => (p.groups[0]?).any (fun x => decide (p.runs = true ∧ x.started = true ∧ x.done = false))) = true := by decide

/-- The hypotheses of ScalarsUpdatesAndGather are met together (clause 5). -/
theorem test_wit_scalars_updates_and_gather_5 : let d := (withStream up).modPlan 4 (fun p => { p with state := .running, armed := true, cfg := { p.cfg with streams := p.cfg.streams ++ [{ par0 with dest := 8 }], opts := [opt0], sched := { p.cfg.sched with regions := p.cfg.sched.regions ++ List.replicate 8 ⟨1, 0, 0x1000, 0x1000⟩ } }, groups := [⟨3, true, true⟩], streams := p.streams ++ [StreamSt.init []], postDone := true })
    (d.plan 4).any (fun p => (p.cfgOf 1).any (fun c => decide (p.mayGather 1 c = true ∧ c.kind = 3 ∧ p.cfg.sched.levels = [] ∧ p.skipped = false ∧ 1 < p.streams.length))) = true := by decide

/-- The hypotheses of ScalarsUpdatesAndGather are met together (clause 6). -/
theorem test_wit_scalars_updates_and_gather_6 : let d := (withStream up).modPlan 4 (fun p => { p with state := .running, armed := true, cfg := { p.cfg with streams := [], sched := { p.cfg.sched with readyReg := 0 } }, streams := [] })
    (d.plan 4).any (fun p => decide (p.runs = true ∧ p.running = [] ∧ p.nextRedo = false ∧ p.cfg.streams.length = 0 ∧ p.state = .running)) = true := by decide

/-- The hypotheses of ScalarsUpdatesAndGather are met together (clause 7). -/
theorem test_wit_scalars_updates_and_gather_7 : let d := (withStream up).modPlan 4 (fun p => { p with state := .running, armed := true, cfg := { p.cfg with streams := p.cfg.streams.map (fun c => { c with dest := 8 }), sched := { p.cfg.sched with regions := p.cfg.sched.regions ++ List.replicate 8 ⟨4, 0, 0x1000, 0x1000⟩, readyReg := 8 } }, streams := p.streams.map (fun x => { x with phase := 8 }) })
    (d.plan 4).any (fun p => (p.cfgOf 0).any (fun c => decide (p.runs = true ∧ (p.stOf 0).phase = 8 ∧ 2 ∉ (p.stOf 0).ready ∧ p.serving = false ∧
      ((p.destRegs c).find? (fun r => r.mask.getLsbD 2)).isSome = true ∧ (p.cfg.sched.regions[p.cfg.sched.readyReg + 2]?).isSome = true))) = true := by decide

/-- The hypotheses of CollectiveMessagesAndFailures are met together (clause 1). -/
theorem test_wit_collective_messages_and_failures_1 : State.reset.dev.msgPlan 0x0100 7 0 0 1 = none := by decide

/-- The hypotheses of CollectiveMessagesAndFailures are met together (clause 2). -/
theorem test_wit_collective_messages_and_failures_2 : let d := (withStream up).modPlan 4 (fun p => { p with state := .running, armed := true, cfg := { p.cfg with sched := { p.cfg.sched with levels := [⟨2, 0, 1⟩], peers := [0, 1] } } })
    d.msgPlan 0x0100 7 0 0 1 = some 4 ∧ (d.plan 4).any (fun p => decide (p.state = .running ∧ p.scal = none ∧ p.runs = true ∧ 1 ∈ p.peers ∧
      p.cfg.streams.findIdx (fun x => x.num = 0) < p.cfg.streams.length)) = true := by decide

/-- The hypotheses of CollectiveMessagesAndFailures are met together (clause 3). -/
theorem test_wit_collective_messages_and_failures_3 : let d := (withStream up).modPlan 4 (fun p => { p with state := .running, startX := some ⟨⟨0, 0, [], []⟩, [], ⟨.pf0 0, 0x0102, 1, false, 0⟩, true⟩, cfg := { p.cfg with sched := { p.cfg.sched with levels := [⟨2, 0, 1⟩], peers := [0, 1] } } })
    (d.mill.plans.find? (fun e => e.2.slice = 0 && e.2.cfg.planId == 7 && (0x0100 : BitVec 16) == 0x0100 && e.2.peers.contains 1)).map (·.1) = some 4 ∧
    (d.plan 4).any (fun p => p.startX.any (·.sent)) = true := by decide

/-- The hypotheses of CollectiveMessagesAndFailures are met together (clause 4). -/
theorem test_wit_collective_messages_and_failures_4 : let d := (withStream up).modPlan 4 (fun p => { p with state := .failed, cfg := { p.cfg with sched := { p.cfg.sched with levels := [⟨2, 0, 1⟩], peers := [0, 1] } } })
    d.msgPlan 0x0100 7 0 0 1 = some 4 ∧ (d.plan 4).any (fun p => decide (p.state = .failed)) = true := by decide

/-- The hypotheses of EmbeddingDescriptorsRun are met together (clause 1). -/
theorem test_wit_embedding_descriptors_run_1 : let d := withEmb up
    d.pageOk (.page 0 .pf0 0) 4 4 false = some 0 ∧ (d.plan 4).any (fun p => (p.cfg.embQ[0]?).any (fun q => decide (p.slice = 0 ∧ q.ringReg ≠ 0xFFFF))) = true := by decide

/-- The hypotheses of EmbeddingDescriptorsRun are met together (clause 2). -/
theorem test_wit_embedding_descriptors_run_2 : let d := withEmb up
    (d.plan 4).any (fun p => (p.embTab 9).any (fun t => decide ((tblGetD p.rings 0 ⟨0, 0, 0⟩).fetched ≠ (tblGetD p.rings 0 ⟨0, 0, 0⟩).tail ∧ p.held = false ∧
      p.state ≠ .failed ∧ (∀ op ∈ [1, 2, 3, 4], embFieldsOk { dsc0 with op := op } op = true ∧ d.embDmaOk p.slice 0 t op { dsc0 with op := op } = true) ∧ (p.cfg.sched.regions[2]?.map (·.port)).getD 0 = 0 ∧
      (∀ x ∈ embItems dsc0 1, x.2.2.2 < t.rows → t.rankOf x.2.2.2 = p.rank) ∧ (∀ x ∈ embItems dsc0 3, x.2.2.2 < t.rows → t.rankOf x.2.2.2 = p.rank)))) = true := by decide

/-- The hypotheses of EmbeddingDescriptorsRun are met together (clause 3). -/
theorem test_wit_embedding_descriptors_run_3 : let d := (withEmb up).modPlan 4 (fun p => { p with jobs := [⟨0, 2, dsc0, 0, [], [], 0⟩] })
    (d.plan 4).any (fun p => (p.cfg.embQ[0]?).any (fun q => decide (p.jobs.findIdx (fun j => j.acc = 0 && j.desc.tag == dsc0.tag && (j.waiting.isEmpty || p.state == .failed || j.waiting.any (d.ownerLost 4 p))) = 0 ∧
      (p.cfg.sched.regions[q.cqReg]?).isSome = true ∧ p.state ≠ .failed))) = true := by decide

/-- The hypotheses of EmbeddingDescriptorsRun are met together (clause 4). -/
theorem test_wit_embedding_descriptors_run_4 : let d := (withEmb up).modPlan 4 (fun p => { p with state := .failed })
    (d.plan 4).any (fun p => decide (p.state = .failed ∧ p.held = false ∧ (tblGetD p.rings 0 ⟨0, 0, 0⟩).fetched ≠ (tblGetD p.rings 0 ⟨0, 0, 0⟩).tail)) = true := by decide

/-- The hypotheses of EmbeddingMessagesBetweenOwners are met together (clause 1). -/
theorem test_wit_embedding_messages_between_owners_1 : State.reset.dev.msgPlan 0x0100 7 0 0 1 = none := by decide

/-- The hypotheses of EmbeddingMessagesBetweenOwners are met together (clause 2). -/
theorem test_wit_embedding_messages_between_owners_2 : let d := (withEmb up).modPlan 4 (fun p => { p with cfg := { p.cfg with sched := { p.cfg.sched with levels := [⟨2, 0, 1⟩], peers := [0, 1] } }, jobs := [⟨0, 1, dsc0, 0, [1], [], 0⟩] })
    let x : EmbPart := ⟨0, dsc0.tag, 1, 0, 9, [[(0, 3)]], [[0]], [], [], [], []⟩
    d.msgPlan 0x0100 7 0 0 1 = some 4 ∧ (d.plan 4).any (fun p => (p.embTab 9).any (fun t => decide (p.state ≠ .failed ∧
      x.rows.flatten.all (fun y => y.2 < t.rows && t.rankOf y.2 = p.rank) = true ∧
      (p.jobs.find? (fun j => j.acc = x.acc && j.desc.tag == x.tag && !j.waiting.isEmpty)).any (fun j => decide (1 ∈ j.waiting ∧ j.op = 1)) = true))) = true := by decide

/-- The hypotheses of MemoryErrorsRecordAndPoison are met together (clause 1). -/
theorem test_wit_memory_errors_record_and_poison_1 : State.reset.dev.cord.phase = .idle ∧ tblGet State.reset.dev.flt.merge (memKey (.chan 15)) = none := by decide

/-- The hypotheses of MemoryErrorsRecordAndPoison are met together (clause 2). -/
theorem test_wit_memory_errors_record_and_poison_2 : let d : Dev := { Dev.init with clk := 9, flt := { Flt.init with merge := [(16, 9, 3)] } }
    d.cord.phase = .idle ∧ tblGet d.flt.merge (memKey (.sram 0)) = some (d.clk, 3) := by decide

/-- The hypotheses of SparingZeroingAndSpillWindows are met together (clause 1). -/
theorem test_wit_sparing_zeroing_and_spill_windows_1 : let d := withRegs Dev.init [(F.MEM_CAP_SPARING, 0, 1)]
    d.flag F.MEM_CAP_SPARING 0 = true ∧ d.flag F.MEM_SPARE_ACTIVE 0 = false ∧ d.flag F.MEM_SPARE_DONE 0 = false ∧ (0x1F : W32).getLsbD 4 = true := by decide

/-- The hypotheses of SparingZeroingAndSpillWindows are met together (clause 2). -/
theorem test_wit_sparing_zeroing_and_spill_windows_2 : let d := withRegs Dev.init [(F.MEM_SPARE_ACTIVE, 0, 1), (F.MEM_SPARE_WATERMARK, 0, 7602175), (F.MEM_SPARE_CHANNEL, 0, 15)]
    d.flag F.MEM_SPARE_ACTIVE 0 = true ∧ d.fld F.MEM_SPARE_WATERMARK 0 + 1 = spareChunks ∧ d.fld F.MEM_SPARE_CHANNEL 0 < 16 := by decide

/-- The hypotheses of SparingZeroingAndSpillWindows are met together (clause 3). -/
theorem test_wit_sparing_zeroing_and_spill_windows_3 : let d : Dev := { Dev.init with mem := { Mem.init [] [] with dirty := [(5, 1)] } }
    d.mem.wf = true ∧ d.cord.pending = [] ∧ d.cord.buffers.length ≤ 8192 ∧ runSort d.mem.dirty = [(5, 1)] ∧ d.flag F.MEM_STATUS_ZERO_BUSY 0 = true ∧ d.mill.waiting = [] := by decide

/-- The hypotheses of SparingZeroingAndSpillWindows are met together (clause 4). -/
theorem test_wit_sparing_zeroing_and_spill_windows_4 : let d := withPlan up
    d.manages 0 (d.fld F.MEM_SLICE_SEL_SLICE 0) = true ∧ d.spillUsed (d.fld F.MEM_SLICE_SEL_SLICE 0) = 0 ∧
    (d.setFld F.MEM_SPILL_BASE_ADDR 0 0x200000).spillOk 0 = true ∧ d.manages 3 (d.fld F.MEM_SLICE_SEL_SLICE 3) = false := by decide

/-- The hypotheses of SparingZeroingAndSpillWindows are met together (clause 5). -/
theorem test_wit_sparing_zeroing_and_spill_windows_5 : let d := (withPlan up).modPlan 4 (fun p => { p with spillTags := [(2, 9, [])] })
    (d.plan 4).any (fun p => decide (tblGet p.spillTags 2 = some (9, []) ∧ (d.openInternal (ikSpill p.slice) 9 [] [] []).isSome = false)) = true := by decide

/-- The hypotheses of FaultEventsAreRecorded are met together (clause 1). -/
theorem test_wit_fault_events_are_recorded_1 : State.reset.dev.cord.phase = .idle ∧ State.reset.dev.flt.log.length < 4096 ∧ (List.range 46).filter (fun k => (0 : W64).getLsbD k) = [] ∧ (List.range 46).filter (fun k => (5 : W64).getLsbD k) ≠ [] := by decide

/-- The hypotheses of FaultEventsAreRecorded are met together (clause 2). -/
theorem test_wit_fault_events_are_recorded_2 : (Dev.init.faultEvent 35 .fatal 1 3 1 0).fatal = true ∧ (Dev.init.faultEvent 35 .fatal 1 3 1 0).flt.pulse = true := by decide

/-- The hypotheses of FaultEventsAreRecorded are met together (clause 3). -/
theorem test_wit_fault_events_are_recorded_3 : State.reset.dev.flt.log.find? (fun e => e.1 = 3) = none ∧ ((Dev.init.fault 2 .corrected 4 0 0).flt.log.find? (fun e => e.1 = 0)).isSome = true := by decide

/-- The hypotheses of CountsAndTelemetryLeaveTheDevice are met together (clause 1). -/
theorem test_wit_counts_and_telemetry_leave_the_device_1 : State.reset.dev.tally.snapBusy = false ∧ (State.reset.dev.flag F.TLY_TEL_CTRL_EN 0 = false) := by decide

/-- The hypotheses of CountsAndTelemetryLeaveTheDevice are met together (clause 2). -/
theorem test_wit_counts_and_telemetry_leave_the_device_2 : let d := (withRegs up [(F.TLY_TEL_CTRL_EN, 0, 1), (F.TLY_TEL_CTRL_SNAP, 0, 1), (F.TLY_TEL_CTRL_MASK, 0, 31)]).snapshot
    d.tally.snapBusy = true ∧ d.flag F.TLY_TEL_CTRL_SNAP 0 = true ∧ d.flag F.TLY_TEL_CTRL_EN 0 = true ∧ bit (d.fld F.TLY_TEL_CTRL_MASK 0) 2 = true ∧ d.tel.stopped = false ∧ d.key (d.fld F.TLY_TEL_CTRL_SLOT 0) = none := by decide

/-- The hypotheses of CountsAndTelemetryLeaveTheDevice are met together (clause 3). -/
theorem test_wit_counts_and_telemetry_leave_the_device_3 : let d := withKey (withRegs up [(F.TLY_TEL_CTRL_EN, 0, 1)]) 0 key0
    d.flag F.TLY_TEL_CTRL_EN 0 = true ∧ d.tel.stopped = false ∧ (d.key (d.fld F.TLY_TEL_CTRL_SLOT 0)).any (fun k => decide (k.state = .loaded ∧ k.owner = .device ∧ useAllows k.use 1 = true)) = true := by decide

/-- The hypotheses of CountsAndTelemetryLeaveTheDevice are met together (clause 4). -/
theorem test_wit_counts_and_telemetry_leave_the_device_4 : let d := Dev.init.discovery 1 [(2, [5, 9])]
    (d.endpoint 1 2).any (fun e => decide (e.polling = false ∧ 5 ∈ e.sensors ∧ 6 ∉ e.sensors)) = true ∧ ((d.sensorPoll 1 2).endpoint 1 2).any (fun e => decide (e.polling = true ∧ e.misses < 2)) = true ∧ ((((d.sensorPoll 1 2).pollTimeout 1 2).sensorPoll 1 2).pollTimeout 1 2 |>.sensorPoll 1 2 |>.endpoint 1 2).any (fun e => decide (e.polling = true ∧ e.misses ≥ 2)) = true ∧ ([(2, [5, 9]), (3, [])].map (·.1) : List Nat).Nodup := by decide

/-- The hypotheses of ClocksLanesAndLinks are met together (clause 1). -/
theorem test_wit_clocks_lanes_and_links_1 : State.reset.dev.cord.phase = .idle ∧ 0 ∉ State.reset.dev.lanes.lost ∧ (∀ n < 16, tblGet State.reset.dev.lanes.macros (0 * 16 + n) ≠ some 17) := by decide

/-- The hypotheses of ClocksLanesAndLinks are met together (clause 2). -/
theorem test_wit_clocks_lanes_and_links_2 : (List.range 16).find? (fun n => tblGet withLanes.lanes.macros (Die.east.num * 16 + n) == some 3) = some 3 ∧ (tblGet (withLanes.macroFail .east 3).lanes.macros 19) = some 16 := by decide

/-- The hypotheses of ClocksLanesAndLinks are met together (clause 3). -/
theorem test_wit_clocks_lanes_and_links_3 : let d := withLanes
    (1 < 32 ∧ d.lanes.portOf 1 = some 1 ∧ (d.lanes.lanesOf 1).all (fun n => (tblGet d.lanes.macros n).isSome) = true ∧ d.pwr.state < 3 ∧ (d.scaler.boot = .hostWait ∨ d.scaler.boot = .running)) ∧
    d.lanes.portOf 9 ≠ some 9 ∧ d.scaler.boot ≠ .hold ∧ ((d.port 2).fn .pf0).bme = false ∧ ((d.port 2).fn .tenant).bme = false ∧ (∀ e ∈ d.nvm.ctrls, e.1 % 4 ≠ 2) := by decide

/-- The hypotheses of EndpointReadsCompleteOrTimeOut are met together (clause 1). -/
theorem test_wit_endpoint_reads_complete_or_time_out_1 : State.reset.dev.matchRead 1 .pf0 3 = none ∧ (∀ e ∈ State.reset.dev.skid.qps, e.2.fence = none) ∧ (State.reset.dev.port 1).invals = [] := by decide

/-- The hypotheses of EndpointReadsCompleteOrTimeOut are met together (clause 2). -/
theorem test_wit_endpoint_reads_complete_or_time_out_2 : let d := { up with ports := [(1, { (up.port 1) with up := true, pf0 := { Fn.init with bme := true } })] }.readOwn 1 .buffer 0x1000 64
    (d.matchRead 1 .pf0 0).isSome = true ∧ (∀ e ∈ d.skid.qps, e.2.fence = none) ∧ (d.port 1).waiting = [] ∧ (match tblGet (d.port 1).slots 0 with | some (SlotUse.out r got _) => decide (got + 16 < r.len) | _ => false) = true ∧
    (match tblGet ((d.completionTimeout 1 0).port 1).slots 0 with | some (SlotUse.quarantined .pf0) => true | _ => false) = true := by decide

/-- The hypotheses of BusMasterEnableAndD3Hold are met together (clause 1). -/
theorem test_wit_bus_master_enable_and_d3_hold_1 : ((up.port 1).fn .pf0).d3Saved = none ∧ (up.port 1).up = false ∧ (∀ e ∈ up.nvm.ctrls, e.1 % 4 ≠ 1) ∧
    (let d := up.d3Entry 1 .pf0
     ((d.port 1).fn .pf0).d3Saved = some false ∧ ((d.port 1).fn .pf0).d3Saved.isSome = true) := by decide

/-- The hypotheses of BusMasterEnableAndD3Hold are met together (clause 2). -/
theorem test_wit_bus_master_enable_and_d3_hold_2 : let d := { up with ports := [(1, { (up.port 1) with up := true, pf0 := { Fn.init with bme := true } })] }
    (d.port 1).up = true ∧ ((d.port 1).fn .pf0).d3Saved = none ∧ ((d.d3Entry 1 .pf0).port 1).pf0.d3Saved = some true ∧
    up.fatalAllows none .pf0 = true ∧ up.canIssue 1 .pf0 = false := by decide

/-- The hypotheses of SliceBindQuotaAndWindow are met together (clause 1). -/
theorem test_wit_slice_bind_quota_and_window_1 : let c := cm 3 [0x08]
    Served up c 0x0201 [.m] ∧ (c.w 0 < 2 ^ 28 ∧ bit (c.w 0) (3 + bits (c.w 0) 1 2) = true) ∧ c.mgrPort = some (bits (c.w 0) 1 2) ∧ (up.slice 3).state = .unbound ∧ up.slices = [] := by decide

/-- The hypotheses of SliceBindQuotaAndWindow are met together (clause 2). -/
theorem test_wit_slice_bind_quota_and_window_2 : let c := cm 0 [10, 5 + 20 * 2 ^ 18, 3, 2]
    let d := withPlan up
    Served d c 0x0202 [.m] ∧ d.mayName c = true ∧ (d.slice 0).state = .active ∧ ¬ (10 < d.qpCount 0 ∨ 5 < d.sliceCells 0 ∨ 3 < d.sliceHeldPages 0 ∨ 2 < d.nvQueues 0) ∧ up.mayName c = false := by decide

/-- The hypotheses of SliceBindQuotaAndWindow are met together (clause 3). -/
theorem test_wit_slice_bind_quota_and_window_3 : let c := cm 0 [0x1C1, 0x1000, 0x2000]
    let d := withPlan up
    Served d c 0x0203 [.m] ∧ d.mayName c = true ∧ (d.slice 0).ports.getLsbD (bits (c.w 0) 4 2) = true ∧ (tblGet (d.slice 0).windows 1).any (·.en) = false ∧ bit (c.w 0) 8 = true := by decide

/-- The hypotheses of SliceQuiesceResumeResetUnbind are met together (clause 1). -/
theorem test_wit_slice_quiesce_resume_reset_unbind_1 : let d := withPlan up
    let c := cm 0 [1000]
    Served d c 0x0204 [.m] ∧ zeroFrom c 1 = true ∧ d.mayName c = true ∧ (d.slice 0).state = .active := by decide

/-- The hypotheses of SliceQuiesceResumeResetUnbind are met together (clause 2). -/
theorem test_wit_slice_quiesce_resume_reset_unbind_2 : let d := (withPlan up).modSlice 0 (fun x => { x with state := .quiescing, owner := some ⟨.pf0 0, 0x0204, 1, false, 0⟩ })
    (d.slice 0).state = .quiescing ∧ d.sliceBusy 0 = false ∧ (d.slice 0).owner = some ⟨.pf0 0, 0x0204, 1, false, 0⟩ ∧ (d.slice 1).state ≠ .quiescing := by decide

/-- The hypotheses of SliceQuiesceResumeResetUnbind are met together (clause 3). -/
theorem test_wit_slice_quiesce_resume_reset_unbind_3 : let d := (withPlan up).modSlice 0 (fun x => { x with state := .quiesced })
    let c := cm 0 []
    Served d c 0x0205 [.m] ∧ Served d c 0x0206 [.m] ∧ Served d c 0x0207 [.m] ∧ d.mayName c = true ∧ (d.slice 0).state = .quiesced ∧ (withPlan up).mayName c = true ∧ ((withPlan up).slice 0).state ≠ .quiesced := by decide

/-- The hypotheses of ResetsOfPortsAndFunctions are met together (clause 1). -/
theorem test_wit_resets_of_ports_and_functions_1 : up.cord.phase = .idle ∧ up.pwr.move = none ∧ up.pwr.state ≠ 4 ∧ up.boundFn 1 .pf0 = [] ∧ up.boundFn 1 .tenant = [] ∧ (up.port 1).up = false ∧
    (∀ k < 4, up.boundFn k .pf0 = [] ∧ up.boundFn k .tenant = []) := by decide

/-- The hypotheses of ResetsOfPortsAndFunctions are met together (clause 2). -/
theorem test_wit_resets_of_ports_and_functions_2 : let d := up.modPort 1 (fun q => { q with up := true })
    (d.port 1).up = true ∧ d.cord.phase = .idle ∧ d.pwr.move = none ∧ d.pwr.state ≠ 4 ∧ d.boundFn 1 .pf0 = [] := by decide

/-- The hypotheses of ResetsOfPortsAndFunctions are met together (clause 3). -/
theorem test_wit_resets_of_ports_and_functions_3 : ((withPlan up).slice 0).state ≠ .unbound ∧ ((withPlan up).slice 0).home = 0 ∧ (withPlan up).pwr.state ≠ 4 ∧ (withPlan up).cord.phase = .idle ∧ (withPlan up).pwr.move = none := by decide

/-- The hypotheses of CompletionQueuesRegionsAndHandles are met together (clause 1). -/
theorem test_wit_completion_queues_regions_and_handles_1 : let d := (withPlan up).modSlice 0 (fun x => { x with vecCount := 4 })
    let c := pg 0 [0x1000, 8 + 2 * 32]
    Served d c 0x0305 [.m, .s] ∧ zeroFrom c 2 = true ∧ d.objectSlice c = none ∧ d.skid.cqs = [] := by decide

/-- The hypotheses of CompletionQueuesRegionsAndHandles are met together (clause 2). -/
theorem test_wit_completion_queues_regions_and_handles_2 : let d := withObjs (withPlan up)
    let c := pg 0 [0]
    Served d c 0x0306 [.m, .s] ∧ d.objectSlice c = none ∧ (tblGet d.skid.cqs 0).any (fun k => decide (k.slice = 0)) = true ∧ d.skid.qps = [] ∧
    Served d c 0x030A [.m, .s] ∧ (tblGet d.skid.ahs 0).any (fun k => decide (k.slice = 0)) = true ∧ (tblGet d.skid.mrs 0).any (fun m => decide (m.slice = 0 ∧ m.tag = 1)) = true := by decide

/-- The hypotheses of CompletionQueuesRegionsAndHandles are met together (clause 3). -/
theorem test_wit_completion_queues_regions_and_handles_3 : let d := withPlan up
    let c := pg 0 [0x10000, 64, 0x40, 0]
    Served d c 0x0307 [.m, .s] ∧ zeroFrom c 4 = true ∧ d.objectSlice c = none ∧ d.skid.mrs = [] ∧ bit (c.w 2) 6 = true ∧ d.flag F.MEM_STATUS_ZERO_BUSY 0 = true := by decide

/-- The hypotheses of CompletionQueuesRegionsAndHandles are met together (clause 4). -/
theorem test_wit_completion_queues_regions_and_handles_4 : let d := withPlan up
    let c := pg 0 [0x10000]
    Served d c 0x0309 [.m, .s] ∧ zeroFrom c 1 = true ∧ d.skid.ahs = [] ∧ zeroAt (List.replicate 32 0) 28 4 = true := by decide

set_option maxRecDepth 100000 in
/-- The hypotheses of QueuePairCommandsActOnContexts are met together (clause 1). -/
theorem test_wit_queue_pair_commands_act_on_contexts_1 : let d := withObjs (withPlan up)
    let c := pg 0 [0x1000]
    let b := le 256 tpl0
    let t := unle (bytesAt b 0 256)
    let q := (((Qp.of 0).put cMode (modeOf t false)).put cSlice 0).copyFrom t (2 ^ 64 - 1)
    Served d c 0x0301 [.m, .s] ∧ zeroFrom c 1 = true ∧ d.objectSlice c = none ∧ bit (modeOf t c.mgrPort.isSome) 2 = true ∧ q.fieldsOk = true ∧ d.namesOk c q = true ∧
    d.freeQpn = some 2 ∧ d.qpCount 0 < (d.slice 0).qpQuota := by decide

set_option maxRecDepth 100000 in
/-- The hypotheses of QueuePairCommandsActOnContexts are met together (clause 2). -/
theorem test_wit_queue_pair_commands_act_on_contexts_2 : let d := withQp (withObjs (withPlan up)) 2 (qp0 .rtr)
    let c := pg 0 [2 + 3 * 2 ^ 24, 0]
    Served d c 0x0302 [.m, .s] ∧ zeroFrom c 3 = true ∧ d.objectSlice c = none ∧ (d.qp 2).any (fun q => decide (q.f cSlice = 0 ∧ q.isColl = false ∧ transitionOk (q.f cState) 3 = true ∧
      q.fieldsOk = true ∧ q.isSkid = true ∧ d.namesOk c q = true ∧ q.sq = [] ∧ q.cache.isSome = true)) = true := by decide

set_option maxRecDepth 100000 in
/-- The hypotheses of QueuePairCommandsActOnContexts are met together (clause 3). -/
theorem test_wit_queue_pair_commands_act_on_contexts_3 : let d := withQp (withObjs (withPlan up)) 2 { qp0 .rts with cache := none }
    let c := pg 0 [2 + 3 * 2 ^ 24, 0]
    Served d c 0x0302 [.m, .s] ∧ Served d (pg 0 [2]) 0x0304 [.m, .s] ∧ d.objectSlice c = none ∧ (d.qp 2).any (fun q => decide (q.cache = none)) = true ∧ d.openEntry 2 [] = none := by decide

set_option maxRecDepth 100000 in
/-- The hypotheses of QueuePairCommandsActOnContexts are met together (clause 4). -/
theorem test_wit_queue_pair_commands_act_on_contexts_4 : let d := withQp (withObjs (withPlan up)) 2 (qp0 .rts)
    let c := pg 0 [2, 0]
    Served d c 0x0303 [.m, .s] ∧ Served d c 0x0304 [.m, .s] ∧ zeroFrom c 1 = true ∧ d.objectSlice c = none ∧ (d.qp 2).any (fun q => decide (q.f cSlice = 0 ∧ q.isColl = false)) = true ∧ d.waitersOf 2 = [] := by decide

set_option maxRecDepth 100000 in
/-- The hypotheses of DoorbellsMoveIndexes are met together (clause 1). -/
theorem test_wit_doorbells_move_indexes_1 : let d := withQp (withObjs (withPlan up)) 2 (qp0 .rts)
    let v : W64 := 0x0000000301000002
    bits v.toNat 25 7 = 0 ∧ bits v.toNat 48 16 = 0 ∧ bits (2 ^ 25) 25 7 ≠ 0 ∧ d.pageOk (.page 0 .pf0 0) 8 8 false = some 0 ∧ d.pageOk (.page 0 .pf0 0) 4 8 false = none ∧ v.getLsbD 24 = true ∧
    (d.qp (v.toNat % 2 ^ 24)).any (fun q => decide (q.f cSlice = 0 ∧ q.isColl = false ∧ q.cache.isSome = true ∧ q.sq = [] ∧ q.f cState = qsRts)) = true := by decide

set_option maxRecDepth 100000 in
/-- The hypotheses of DoorbellsMoveIndexes are met together (clause 2). -/
theorem test_wit_doorbells_move_indexes_2 : let d := withQp (withObjs (withPlan up)) 2 { qp0 .rts with cache := none }
    2 ∉ d.skid.absent ∧ (d.qp 2).any (fun q => decide (q.f cSlice = 0 ∧ q.isColl = false ∧ q.cache = none)) = true ∧ (tblGet d.skid.cqs 0).any (fun c => decide (c.slice = 0 ∧ c.held = [])) = true := by decide

set_option maxRecDepth 100000 in
/-- The hypotheses of SendEntriesStartAndComplete are met together (clause 1). -/
theorem test_wit_send_entries_start_and_complete_1 : let d := withWin { withQp (withObjs (withPlan up)) 2 { qp0 .rts with sqTail := 1 } with ports := [(0, { (up.port 0) with up := true, pf0 := { Fn.init with bme := true } })] }
    (d.qp 2).any (fun q => (d.key (q.f cKeySlot)).any (fun k => decide (q.isColl = false ∧ q.posted > 0 ∧ d.sliceFetches (q.f cSlice) = true ∧ d.cqRoom (q.f cScqn) = true ∧ d.cellRoom q.die (q.f cSlice) = true ∧
      q.f cState = qsRts ∧ q.rnr = none ∧ q.sq = [] ∧ q.isUd = false ∧ q.isDiag = false ∧ q.isSkid = true ∧ (d.iovaPort 0 q.sqEntry 64 false).isSome = true ∧ (d.iovaPort 0 (q.rqEntry 0) 32 false).isSome = true ∧ d.mayTrack q (q.f cSqPsn) = true ∧ q.malformed 0x08 wqe0 = false ∧
      k.state = .loaded ∧ useAllows k.use 1 = true ∧ (k.take q.die).isSome = true ∧ q.psnsOf 0x08 wqe0.len = 1))) = true ∧ d.waitersOf 2 = [] := by decide

set_option maxRecDepth 100000 in
/-- The hypotheses of SendEntriesStartAndComplete are met together (clause 2). -/
theorem test_wit_send_entries_start_and_complete_2 : let d := { withQp (withObjs (withPlan up)) 2 { qp0 .sqd with sqTail := 1 } with ports := [(0, { (up.port 0) with up := true, pf0 := { Fn.init with bme := true } })] }
    (d.qp 2).any (fun q => decide (q.isColl = false ∧ q.isDiag = false ∧ q.posted > 0 ∧ q.f cState = qsSqd ∧ q.cache.isSome = true ∧ d.waitersOf 2 = [] ∧
      d.iovaPort 0 q.sqEntry 64 false = none ∧ d.iovaPort 0 (q.rqEntry 0) 32 false = none)) = true := by decide

set_option maxRecDepth 100000 in
/-- The hypotheses of SendEntriesStartAndComplete are met together (clause 3). -/
theorem test_wit_send_entries_start_and_complete_3 : let e : SqEnt := ⟨0x31, wqe0, ⟨true, [], []⟩, .done, 0, 0, 0, 0, 0, 0, [], false, stOk, false⟩
    let d := withQp (withObjs (withPlan up)) 2 { qp0 .rts with sq := [e] }
    e.complete = true ∧ (d.qp 2).any (fun q => decide (q.sq = [e])) = true ∧ (∀ x ∈ d.skid.qps, x.1 ≠ 2 → ∀ y ∈ x.2.sq, y.op ≠ 0x30) ∧ (tblGet d.skid.cqs 0).any (fun c => decide (c.full = false ∧ c.held = [])) = true := by decide

set_option maxRecDepth 100000 in
/-- The hypotheses of ReceivedPacketsAreCheckedFirst are met together (clause 1). -/
theorem test_wit_received_packets_are_checked_first_1 : let d := withQp (withObjs (withPlan up)) 2 (qp0 .rts)
    let p := hdr0 0x81 0 sxh0
    (d.qp 2).any (fun q => decide (q.f cSlice = p.slice ∧ (d.slice p.slice).state ≠ .unbound ∧ d.fatal = false ∧ q.cache.isSome = true ∧ d.chain .west 2 = [] ∧
      p.skid = true ∧ q.isSkid = true ∧ p.sxhOk = true ∧ p.op ∈ (RxPkt.cnp p).ops ∧ p.qpn = 2 ∧ d.rxSession q p = none)) = true ∧ d.qp 3 = none ∧ d.bsEn = false := by decide

set_option maxRecDepth 100000 in
/-- The hypotheses of ReceivedPacketsAreCheckedFirst are met together (clause 2). -/
theorem test_wit_received_packets_are_checked_first_2 : let d := withRegs (withQp (withObjs (withPlan up)) 2 { qp0 .rts with cache := none }) [(F.SKD_CTRL_BS_EN, 0, 1), (F.SKD_BS_CTRL_COUNT, 0, 100), (F.SKD_MISS_CFG_CELLS, 0, 50), (F.SKD_MISS_CFG_CHAIN_MAX, 0, 4)]
    let p := RxPkt.cnp (hdr0 0x81 0 [])
    (d.qp 2).any (fun q => decide (q.cache = none ∧ q.f cSlice = 0 ∧ (d.slice 0).state ≠ .unbound ∧ d.fatal = false ∧ d.chain .west 2 = [] ∧ d.chainsOn .west < 2048 ∧
      d.missCells .west + p.cells ≤ d.fld F.SKD_MISS_CFG_CELLS 0 ∧ p.cells ≤ d.boomFree .west)) = true ∧ d.bsEn = true ∧ 2 < d.fld F.SKD_BS_CTRL_COUNT 0 ∧ 2 ∉ d.skid.absent := by decide

set_option maxRecDepth 100000 in
/-- The hypotheses of ReceivedPacketsAreCheckedFirst are met together (clause 3). -/
theorem test_wit_received_packets_are_checked_first_3 : let d := withQp (withObjs (withPlan up)) 2 (qp1 .rts)
    let p := RxPkt.cnp (hdr0 0x81 0 [])
    (d.qp 2).any (fun q => decide (q.isSkid = false ∧ (rxHdr p).skid = false ∧ (rxHdr p).icrc ≠ icrcOf (rxHdr p).net ((rxHdr p).bth ++ p.body))) = true ∧
      (rxHdr (icrc0 .cnp (hdr0 0x81 0 []))).icrc.length = 4 := by decide

set_option maxRecDepth 100000 in
/-- The hypotheses of ReceivedPacketsAreCheckedFirst are met together (clause 4). -/
theorem test_wit_received_packets_are_checked_first_4 : let s : Session := ⟨1, 0, none, 0, true, 9, none, 6, 7, 6, 0, 0, 0, none, false, false⟩
    let d := { withRegs (withQp (withObjs (withPlan up)) 2 (qp0 .rts)) [(F.SKD_NODE_NODE, 0, 0)] with bark := { up.bark with slots := [(7, { key0 with owner := .session 3, use := 4 })], sessions := [(3, s)] } }
    (d.qp 2).any (fun q => decide (d.rxSession q (hdr0 0x81 0 sxh0) = some 3 ∧ (d.key 7).isSome = true)) = true := by decide +kernel

set_option maxRecDepth 100000 in
/-- The hypotheses of ReceivedDataAndRequestsAreServed are met together (clause 1). -/
theorem test_wit_received_data_and_requests_are_served_1 : let d := withRegs (withQp (withObjs (withPlan up)) 2 (qp1 .rts)) [(F.SKD_RETX_ACK_COALESCE, 0, 4)]
    let x : DataPkt := wr0 (hdr0 0x0A 0 [])
    let h := x.hdr
    NoWaits d ∧ x.isWrite = true ∧ x.imm = none ∧ x.last = true ∧ h.ce = false ∧ udOps.contains h.op = false ∧ rethOps.contains h.op = true ∧
      (d.qp 2).any (fun q => decide (Accepted d q (.data x) d ∧ q.isUd = false ∧ h.psn = q.f cEpsn ∧ q.msnOf h = q.f cRqMsn ∧ q.msgs = [] ∧ q.reqs = [] ∧ q.held = [] ∧ q.fence = none ∧
      h.ackreq = false ∧ q.unacked + 1 < max 1 (d.fld F.SKD_RETX_ACK_COALESCE 0) ∧ (match d.remotePlace q 0x01000000 64 8 0, d.remotePlace q 0x01000000 64 8 1, d.remotePlace q 0x01000000 64 8 2, d.remotePlace q 0x02000000 64 8 0 with
        | some (Place.mem _), some (Place.mem _), some (Place.mem _), none => true | _, _, _, _ => false) = true ∧
      (d.region 0 0x01000000 0 64 8 3).isSome = true ∧ bit (q.f cAccess) 3 = true ∧ tblGet q.rq 0 = none ∧ q.psnClass 0xFFFFFF = .dup)) = true := by decide

set_option maxRecDepth 100000 in
/-- The hypotheses of ReceivedDataAndRequestsAreServed are met together (clause 2). -/
theorem test_wit_received_data_and_requests_are_served_2 : let d := withRegs (withQp (withLink (withWin (withObjs (withPlan up)))) 2 { qp1 .rts with rq := [(0, ⟨9, 0x4000, 64⟩)] }) [(F.SKD_RETX_ACK_COALESCE, 0, 4)]
    let x : DataPkt := wr0 (hdr0 0x04 0 [])
    (d.qp 2).any (fun q => decide (Accepted d q (.data x) d ∧ x.isWrite = false ∧ tblGet q.rq 0 = some ⟨9, 0x4000, 64⟩ ∧ d.localPlace q 0x4000 8 = some (.pcie 0 0x4000) ∧ d.canIssue 0 (d.slice (q.f cSlice)).kind = true ∧ d.cqRoom (q.f cRcqn) = true ∧
      d.rcqPort q = some 0)) = true := by decide

set_option maxRecDepth 100000 in
/-- The hypotheses of ReceivedDataAndRequestsAreServed are met together (clause 3). -/
theorem test_wit_received_data_and_requests_are_served_3 : let d := withQp (withObjs (withPlan up)) 2 (qp1 .rts)
    let h := rxHdr (icrc0 (fun h => .read ⟨h, ⟨true, [], []⟩, 64, 0x01000000, 8, 0, 0⟩) (hdr0 0x0C 0 []))
    (d.qp 2).any (fun q => decide (Accepted d q (.read ⟨h, ⟨true, [], []⟩, 64, 0x01000000, 8, 0, 0⟩) d ∧ q.placed = [])) = true := by decide

set_option maxRecDepth 100000 in
/-- The hypotheses of AcknowledgementsAndResponsesEndEntries are met together (clause 1). -/
theorem test_wit_acknowledgements_and_responses_end_entries_1 : let d := withQp (withObjs (withPlan up)) 2 (qp1 .rts)
    let p := icrc0 (fun h => .sack h []) (hdr0 0x11 0 [])
    (d.qp 2).any (fun q => decide (Accepted d q p d ∧ q.isUd = false ∧ d.storeRoom q.die 4096 = true ∧ (rxHdr p).syndrome / 32 = 0 ∧ (rxHdr p).op = 0x11 ∧ q.sq = [] ∧ q.probes = [] ∧
      q.answering (rxHdr p).psn = none)) = true := by decide

set_option maxRecDepth 100000 in
/-- The hypotheses of AcknowledgementsAndResponsesEndEntries are met together (clause 2). -/
theorem test_wit_acknowledgements_and_responses_end_entries_2 : let e : SqEnt := ⟨0x10, wqe0, ⟨true, [], []⟩, .active, 0, 0, 1, 1, 1, 0, [], false, stOk, false⟩
    let d := withQp (withLink (withWin (withObjs (withPlan up)))) 2 { qp1 .rts with sq := [e] }
    let p := icrc0 (fun h => .readResp h [1, 2, 3, 4, 5, 6, 7, 8] []) (hdr0 0x10 0 [])
    (d.qp 2).any (fun q => decide (Accepted d q p d ∧ d.storeRoom q.die 4096 = true ∧ q.answering 0 = some (0, e) ∧ q.entryOf 0 < q.sq.length ∧ q.isDiag = false ∧ q.isColl = false ∧ d.waitersOf 2 = [] ∧
      0 ∉ e.seen ∧ 0 + 8 ≤ e.w.len ∧ d.localPlace q 0x1000 8 = some (.pcie 0 0x1000) ∧ d.placeHeld (q.f cSlice) (.pcie 0 0x1000) = false)) = true ∧ nakKind 0x62 = some .remAccess ∧ nakKind 0x2F = some .rnr ∧ nakKind 0x7F = none := by decide

set_option maxRecDepth 100000 in
/-- The hypotheses of AcknowledgementsAndResponsesEndEntries are met together (clause 3). -/
theorem test_wit_acknowledgements_and_responses_end_entries_3 : let d := withQp (withObjs (withPlan up)) 2 (qp1 .rts)
    (d.qp 2).any (fun q => decide (Accepted d q (icrc0 .cnp (hdr0 0x81 0 [])) d)) = true := by decide

set_option maxRecDepth 100000 in
/-- The hypotheses of AcknowledgementsAndResponsesEndEntries are met together (clause 4). -/
theorem test_wit_acknowledgements_and_responses_end_entries_4 : let d := withQp (withObjs (withPlan up)) 2 (qp1 .rts)
    let n := { hdr0 0x11 0 [] with aeth := 0x62000000 }
    (d.qp 2).any (fun q => decide (Accepted d q (icrc0 .nak n) d)) = true := by decide

set_option maxRecDepth 100000 in
/-- The hypotheses of TransportTimersAndContextFetches are met together (clause 1). -/
theorem test_wit_transport_timers_and_context_fetches_1 : let d := { withQp (withObjs (withPlan up)) 2 { qp0 .rts with sent := [sent0], unacked := 1, rnr := some 0, sq := [] } with clk := 1000000 }
    d.qp 3 = none ∧ (d.qp 2).any (fun q => (d.key (q.f cKeySlot)).any (fun k => decide (q.unacked > 0 ∧ q.sent.find? q.unanswered = some sent0 ∧ (d.clk - sent0.at_) * 4 ≥ q.rto ∧ q.f cState = qsRts ∧ q.f cRetryLeft = 0 ∧
      q.isSkid = true ∧ q.isDiag = false ∧ q.isColl = false ∧ q.cache.isSome = true ∧ k.state = .loaded ∧ useAllows k.use 1 = true ∧ (k.take q.die).isSome = true ∧ q.f cRnrLeft = 0 ∧ q.rnr = some 0 ∧ d.waitersOf 2 = []))) = true := by decide

set_option maxRecDepth 100000 in
/-- The hypotheses of TransportTimersAndContextFetches are met together (clause 2). -/
theorem test_wit_transport_timers_and_context_fetches_2 : let d := withQp (withObjs (withPlan up)) 2 ({ qp0 .rts with cache := none, writeback := true }.put cRetryLeft 3)
    (d.qp 2).any (fun q => decide (q.cache = none ∧ q.writeback = true ∧ q.bells = [] ∧ (d.takeChains 2).1 = [] ∧ q.f cRetryLeft ≠ 0 ∧ (d.cacheSlot q.die).isSome = true ∧ bit (q.f cPathDown) 0 = false)) = true := by decide

set_option maxRecDepth 100000 in
/-- The hypotheses of TransportTimersAndContextFetches are met together (clause 3). -/
theorem test_wit_transport_timers_and_context_fetches_3 : let q := ({ qp0 .rts with sent := [] }.put cPathDown 1).put cRnrLeft 2
    bit (q.f cPathDown) 0 = true ∧ 0 < q.f cPaths ∧ q.f cState = qsRts ∧ q.f cRnrLeft ≠ 0 ∧ q.sq = [] := by decide

set_option maxRecDepth 100000 in
/-- The hypotheses of FramesAreClassifiedPolicedAndSent are met together (clause 1). -/
theorem test_wit_frames_are_classified_policed_and_sent_1 : let d := { up with lanes := { up.lanes with up := [1] } }
    1 ∈ d.lanes.up ∧ 2 ∉ d.lanes.up ∧ d.stampHeld (.io (portDie 1)) = false ∧ (∀ x ∈ d.skid.qps, d.moves x.2 = false) ∧ d.rawReady 1 = false ∧ (∀ c < 8, d.ready 1 c = []) ∧ d.flag F.BKR_CTRL_LOCK 0 = false ∧ d.tblUsed .west = 0 ∧ d.tblUsed .east = 0 ∧ (d.boundTo 1).length ≤ 4096 ∧
    bit (entWord (d.bkrEnt 0) 15) 0 = false := by decide

set_option maxRecDepth 100000 in
/-- The hypotheses of FramesAreClassifiedPolicedAndSent are met together (clause 2). -/
theorem test_wit_frames_are_classified_policed_and_sent_2 : let f : BFrame := ⟨[1, 2], 0, 0, none, none⟩
    let d := { up with lanes := { up.lanes with up := [1] }, path := { up.path with queues := [(5, ⟨[f], 0, some (1, 3, 0), none, 100, 0, none, some 7, 0⟩)] }, regs := (up.setFlag (F.FLU_TC_STRICT 3) 1 true).regs }
    d.strictClass 1 = some 3 ∧ smallest (d.ready 1 3) = some (5, 7) ∧ (d.bq 5).head = some f := by decide

set_option maxRecDepth 100000 in
/-- The hypotheses of FramesAreClassifiedPolicedAndSent are met together (clause 3). -/
theorem test_wit_frames_are_classified_policed_and_sent_3 : let f : List Byte := List.replicate 12 1 ++ [0x12, 0x34] ++ List.replicate 50 0
    let p := parseFrame f false 0
    p.perr = 0 ∧ p.etype = 0x1234 ∧ p.roce = false ∧ p.frag = false ∧ up.lookup .west p.ktype (p.key f) = [] ∧ 60 ≤ f.length := by decide

set_option maxRecDepth 100000 in
/-- The hypotheses of FramesAreClassifiedPolicedAndSent are met together (clause 4). -/
theorem test_wit_frames_are_classified_policed_and_sent_4 : let d := { up with path := { up.path with frags := [⟨.west, [1], .drop, none, 0, none⟩] } }
    (d.path.frags.filter (fun e => e.die = .west))[0]? = some ⟨.west, [1], .drop, none, 0, none⟩ := by decide

/-- The hypotheses of NvmeControllersStartStopAndRing are met together (clause 1). -/
theorem test_wit_nvme_controllers_start_stop_and_ring_1 : let d := withNv up
    d.cord.phase = .idle ∧ d.nvHere 0 0 = true ∧ (d.ctrl 0).disabling = false ∧ (d.ctrl 0).rdy = true ∧ (∀ e ∈ d.nvm.vols, ∀ j ∈ e.2.jobs, j.ctrl ≠ 0) ∧ (d.ctrl 0).cmds = [] ∧
    bits (0x4001 : W32).toNat 14 2 ≠ 0 ∧ d.nvFetches 0 = true ∧ d.nvHere 0 1 = false := by decide

/-- The hypotheses of NvmeControllersStartStopAndRing are met together (clause 2). -/
theorem test_wit_nvme_controllers_start_stop_and_ring_2 : let d := { withNv up with nvm := { (withNv up).nvm with ctrls := [] } }
    d.nvHere 0 0 = true ∧ (d.ctrl 0).rdy = false := by decide

/-- The hypotheses of NvmeControllersStartStopAndRing are met together (clause 3). -/
theorem test_wit_nvme_controllers_start_stop_and_ring_3 : let d := withNv up
    (tblGet (d.ctrl 0).sqs 0).any (fun q => decide (Awaited d 0 0 q)) = true ∧ (tblGet (d.ctrl 0).cqs 0).any (fun c => decide (NvRoom d 0 0 c)) = true ∧ (d.ctrl 0).events = [] ∧
    (tblGet (d.ctrl 0).sqs 1).any (fun q => decide (1 < q.depth ∧ q.frozen = false)) = true ∧
    (tblGet (d.ctrl 0).cqs 1).any (fun q => decide (0 < q.depth ∧ q.head + (0 + q.depth - q.head % q.depth) % q.depth ≤ q.written ∧ q.held = [])) = true := by decide

/-- The hypotheses of NvmeControllersStartStopAndRing are met together (clause 4). -/
theorem test_wit_nvme_controllers_start_stop_and_ring_4 : let d := (withNv up).modCtrl 0 (fun c => { c with events := [(2, 0, 4)] })
    (d.ctrl 0).aers = [] ∧ (d.ctrl 0).events = [(2, 0, 4)] ∧ (tblGet (d.ctrl 0).sqs 0).any (fun q => decide (Awaited d 0 0 q)) = true := by decide

/-- The hypotheses of NvmeAdminCommandsAnswer are met together (clause 1). -/
theorem test_wit_nvme_admin_commands_answer_1 : let d := withNv up
    (tblGet (d.ctrl 0).sqs 0).any (fun q => decide (Awaited d 0 0 q)) = true ∧ (tblGet (d.ctrl 0).cqs 0).any (fun c => decide (NvRoom d 0 0 c)) = true ∧ NvCalm d ∧
    d.catchable 0 1 7 = false ∧ featureOk 6 = true ∧ featureOk 5 = false ∧ (tblGet (d.ctrl 0).sqs 1).any (fun q => decide (q.frozen = false)) = true ∧ tblGet (d.ctrl 0).sqs 2 = none := by decide

/-- The hypotheses of NvmeAdminCommandsAnswer are met together (clause 2). -/
theorem test_wit_nvme_admin_commands_answer_2 : let j : UnitJob := { num := 0, unit := 0, blocks := [], invalidate := true, dealloc := false, done := false, ctrl := 0, sq := 1, cid := 7, step := .queued, tgt := 0, ext := 0, retries := 0 }
    let d := ((withNv up).modCtrl 0 (fun c => { c with cmds := [⟨1, 7, 1, 0, .write [0], none⟩] })).modVol 0 (fun v => { v with jobs := [j] })
    d.catchable 0 1 7 = true ∧ (tblGet (d.ctrl 0).sqs 0).any (fun q => decide (Awaited d 0 0 q)) = true := by decide

/-- The hypotheses of NvmeAdminCommandsAnswer are met together (clause 3). -/
theorem test_wit_nvme_admin_commands_answer_3 : let d := (withNv up).modCtrl 0 (fun c => { c with sqs := tblMod c.sqs 1 (fun q => { q with frozen := true }) })
    (tblGet (d.ctrl 0).sqs 1).any (fun q => decide (q.frozen = true ∧ q.tail = q.head)) = true ∧ (tblGet (d.ctrl 0).sqs 0).any (fun q => decide (Awaited d 0 0 q)) = true := by decide

set_option maxRecDepth 100000 in
/-- The hypotheses of NvmeIoCommandsRunOrFail are met together (clause 1). -/
theorem test_wit_nvme_io_commands_run_or_fail_1 : let d := withNv up
    let io : NvmeIo := ⟨1, 7, 1, 64, 1, true, false, [(0x8000, 4096)], [zeroBlock]⟩
    d.cord.phase = .idle ∧ (tblGet (d.ctrl 0).sqs 1).any (fun q => decide (Awaited d 0 1 q)) = true ∧ (tblGet (d.ctrl 0).cqs 1).any (fun c => decide (NvRoom d 0 1 c)) = true ∧ (d.ctrl 0).aers = [] ∧
    NvCalm d ∧ d.volOf 0 1 = some (0, vol0) ∧ d.vol 0 = some vol0 ∧ (∀ j ∈ vol0.jobs, j.num < vol0.nextJob) ∧ io.slba + io.nlb ≤ 64 * vol0.desc.units ∧
    d.segsOk 0 io.segs false = true ∧ d.segsOk 0 io.segs true = true ∧ segBytes io.segs = 4096 * io.nlb ∧ d.writeCheck vol0 [1] = none ∧ d.volOf 0 2 = none := by decide

set_option maxRecDepth 100000 in
/-- The hypotheses of NvmeIoCommandsRunOrFail are met together (clause 2). -/
theorem test_wit_nvme_io_commands_run_or_fail_2 : let p : ReadPart := ⟨1, ⟨0, 0, true, 1⟩, 0, 1, [], none, 0⟩
    let d := (withNv up).modCtrl 0 (fun c => { c with cmds := [⟨1, 7, 1, 64, .read 0 [(0x8000, 4096)] [p], none⟩] })
    (d.readCmd 0 1 7).any (fun r => decide (r.2.2.2 = [p])) = true ∧ p.needs = true ∧ (d.vol 0).isSome = true ∧ (tblGet (d.ctrl 0).cqs 1).any (fun c => decide (NvRoom d 0 1 c)) = true ∧
    d.fld F.NVE_CTRL_RETRIES 0 > 0 := by decide

set_option maxRecDepth 100000 in
/-- The hypotheses of NvmeIoCommandsRunOrFail are met together (clause 3). -/
theorem test_wit_nvme_io_commands_run_or_fail_3 : let p : ReadPart := ⟨1, ⟨0, 0, true, 1⟩, 0, 1, [], none, 255⟩
    let d := (withNv up).modCtrl 0 (fun c => { c with cmds := [⟨1, 7, 1, 64, .read 0 [(0x8000, 4096)] [p], none⟩] })
    p.retries ≥ d.fld F.NVE_CTRL_RETRIES 0 := by decide

set_option maxRecDepth 100000 in
/-- The hypotheses of UnitWritesAndVolumes are met together (clause 1). -/
theorem test_wit_unit_writes_and_volumes_1 : let j : UnitJob := { num := 0, unit := 1, blocks := [], invalidate := true, dealloc := false, done := false, ctrl := 0, sq := 1, cid := 7, step := .queued, tgt := 0, ext := 0, retries := 0 }
    let d := (withNv up).modVol 0 (fun v => { v with jobs := [j] })
    d.cord.phase = .idle ∧ (d.vol 0).any (fun v => decide (v.jobOf 1 = some j ∧ v.fenced = false ∧ (v.entry 1).gen < 2 ^ 27 - 1)) = true ∧ d.jobAt 0 1 .reading = none := by decide

set_option maxRecDepth 100000 in
/-- The hypotheses of UnitWritesAndVolumes are met together (clause 2). -/
theorem test_wit_unit_writes_and_volumes_2 : let j : UnitJob := { num := 0, unit := 1, blocks := [], invalidate := false, dealloc := false, done := false, ctrl := 0, sq := 1, cid := 7, step := .queued, tgt := 0, ext := 0, retries := 0 }
    let d := (withNv up).modVol 0 (fun v => { v with jobs := [j] })
    (d.vol 0).any (fun v => decide (v.nextExt = some (0, 0) ∧ (v.entry 1).valid = false)) = true ∧ (d.key 7).any (fun k => decide (k.state = .loaded)) = true := by decide

set_option maxRecDepth 100000 in
/-- The hypotheses of UnitWritesAndVolumes are met together (clause 3). -/
theorem test_wit_unit_writes_and_volumes_3 : let j : UnitJob := { num := 0, unit := 1, blocks := [], invalidate := false, dealloc := false, done := false, ctrl := 0, sq := 1, cid := 7, step := .swapping, tgt := 0, ext := 0, retries := 0 }
    let d := (withNv up).modVol 0 (fun v => { v with jobs := [j], map := [(1, ⟨3, 0, true, 1⟩)] })
    (d.vol 0).any (fun v => decide (v.jobOf 1 = some j ∧ mapWord (v.entry 1) ≠ 0 ∧ (v.entry 1).valid = true)) = true ∧ j.retries < d.fld F.NVE_CTRL_RETRIES 0 := by decide

set_option maxRecDepth 100000 in
/-- The hypotheses of UnitWritesAndVolumes are met together (clause 4). -/
theorem test_wit_unit_writes_and_volumes_4 : let d := withNv up
    let c := cm 0 [0]
    Served d c 0x0402 [.m] ∧ zeroFrom c 1 = true ∧ c.w 0 < 1024 ∧ d.manages 0 0 = true ∧ (d.vol 0).any (fun v => decide (v.detach = none ∧ v.jobs = [])) = true := by decide

set_option maxRecDepth 100000 in
/-- The hypotheses of UnitWritesAndVolumes are met together (clause 5). -/
theorem test_wit_unit_writes_and_volumes_5 : let d := { (withNv (withObjs up)) with nvm := { (withNv up).nvm with vols := [] }, slices := [(0, { sl0 with pages := 100, qpQuota := 100 })] }
    let d := withRegs d [(F.MEM_POOL_PAGES_PAGES, 0, 1000)]
    let d := (d.putKey 8 { key0 with owner := .slice 0, use := 2 }).putKey 7 { key0 with owner := .slice 0 }
    let c := cm 0 [0x1000]
    let v := vol0.desc
    Served d c 0x0401 [.m] ∧ zeroFrom c 1 = true ∧ d.manages 0 0 = true ∧ d.attachOk v = none ∧ tblFree d.nvm.vols 1024 = some 0 ∧
    ((d.allocPages 0 256 1).bind (fun r => r.2.addVolQps 0 [⟨0, 0, 0, 0, 0, 0, 5⟩, ⟨0, 0, 0, 0, 0, 0, 5⟩])).isSome = true := by decide

set_option maxRecDepth 100000 in
/-- The hypotheses of CheckpointsStartHoldAndCapture are met together (clause 1). -/
theorem test_wit_checkpoints_start_hold_and_capture_1 : let d := withCkpt up
    let c := cm 0 []
    Served d c 0x0501 [.m] ∧ Served d c 0x0502 [.m] ∧ Served d c 0x0503 [.m] ∧ zeroFrom c 0 = true ∧ d.cordAvail = true ∧ d.cord.phase = .idle ∧ d.pwr.move = none ∧ d.cord.failed = false ∧
    (∀ e ∈ d.mill.plans, e.2.retireOwner = none) ∧ d.warnOn .supply = true ∧ d.quiet = false ∧ d.pwr.state < 2 ∧ d.flag F.CRD_CTRL_WARN_EN 0 = true := by decide

set_option maxRecDepth 100000 in
/-- The hypotheses of CheckpointsStartHoldAndCapture are met together (clause 2). -/
theorem test_wit_checkpoints_start_hold_and_capture_2 : let d := { (withCkpt up) with cord := { (withCkpt up).cord with phase := .snapshot, holding := true } }
    d.cord.snap = none ∧ d.allCut = true ∧ d.busyPlans = [] ∧ d.cord.regions = [] := by decide

set_option maxRecDepth 100000 in
/-- The hypotheses of CheckpointsStartHoldAndCapture are met together (clause 3). -/
theorem test_wit_checkpoints_start_hold_and_capture_3 : let d := { (withCkpt up) with cord := { (withCkpt up).cord with phase := .snapshot, holding := true, snap := some (withCkpt up).capture } }
    d.crdVol = some (0, { vol0 with desc := { vol0.desc with units := 2 ^ 30 } }) ∧ (Dev.sealRec { d with cord := { d.cord with phase := .held, cutStamp := d.stamp } } .west 1 0).1.isSome = true := by decide

set_option maxRecDepth 100000 in
/-- The hypotheses of CheckpointsDrainCommitAndRestore are met together (clause 1). -/
theorem test_wit_checkpoints_drain_commit_and_restore_1 : let d := { (withCkpt up) with cord := { (withCkpt up).cord with phase := .drain, written := 1, capChunks := 1, trkChunks := 1, tracked := [(3, 1)], pending := [(3, 1)] } }
    d.cord.written ≤ d.cord.dataChunks ∧ d.crdVol = some (0, { vol0 with desc := { vol0.desc with units := 2 ^ 30 } }) ∧ d.cord.waiting = [] ∧ d.pwr.move = none ∧ d.cord.failed = false ∧
    (d.key d.crdKey).any (fun k => decide (k.state = .loaded ∧ useAllows k.use 1 = true ∧ (k.take .west).isSome = true)) = true ∧ granuleAt d.cord.tracked (1 - d.cord.capChunks) = some 3 := by decide

set_option maxRecDepth 100000 in
/-- The hypotheses of CheckpointsDrainCommitAndRestore are met together (clause 2). -/
theorem test_wit_checkpoints_drain_commit_and_restore_2 : let d := { (withCkpt up) with cord := { (withCkpt up).cord with phase := .drain, written := 1 } }
    d.cord.written = d.cord.dataChunks + 1 ∧ d.crdFlushed = true ∧ (∀ e ∈ d.mill.plans, e.2.retireOwner = none) ∧ { d with cord := { d.cord with phase := .commit } }.crdFlushed = true ∧
    (Dev.sealRec { d with cord := { d.cord with phase := .commit, tracked := [], pending := [], buffers := [] } } .west 2 d.stamp).1.isSome = true := by decide

set_option maxRecDepth 100000 in
/-- The hypotheses of CheckpointsDrainCommitAndRestore are met together (clause 3). -/
theorem test_wit_checkpoints_drain_commit_and_restore_3 : let d := withCkpt up
    let c := cm 0 []
    Served d c 0x0505 [.m] ∧ zeroFrom c 3 = true ∧ d.cordAvail = true ∧ d.cord.phase = .idle ∧ d.pwr.state < 2 ∧ d.crdVol.isSome = true ∧ readRegions [] (c.w 1) = [] ∧ Dev.candidate { d with cord := { d.cord with recs := [(0, ⟨2, d.node, 5, true, 0, 3, 0⟩)] } } [] = some 0 := by decide

set_option maxRecDepth 100000 in
/-- The hypotheses of CheckpointsDrainCommitAndRestore are met together (clause 4). -/
theorem test_wit_checkpoints_drain_commit_and_restore_4 : let r : RestoreSt := ⟨[], 0, [], [0], 1⟩
    let d := { (withCkpt up) with cord := { (withCkpt up).cord with phase := .restore, restore := some r, recs := [(0, ⟨2, 0, 5, true, 0, 3, 0⟩)] } }
    d.cord.rec? r.slot = some ⟨2, 0, 5, true, 0, 3, 0⟩ ∧ r.next ≠ 0 ∧ r.next < 3 ∧ d.candidate r.tried = none := by decide

set_option maxRecDepth 100000 in
/-- The hypotheses of CoresComputeAndBranch are met together (clause 1). -/
theorem test_wit_cores_compute_and_branch_1 : let d := withCore up 3
    Steady d 3 (d.core 3) none ∧ isSeq 3 = false ∧ (d.core 3).exl = false ∧ (d.core 3).irqPend = false ∧ (d.core 3).pois 1 = false ∧ (d.core 4).state ≠ .running := by decide

set_option maxRecDepth 100000 in
/-- The hypotheses of CoresComputeAndBranch are met together (clause 2). -/
theorem test_wit_cores_compute_and_branch_2 : let d := up.setCore 3 { (withCore up 3).core 3 with pre := some ⟨false, 5⟩ }
    Steady d 3 (d.core 3) (some ⟨false, 5⟩) := by decide

set_option maxRecDepth 100000 in
/-- The hypotheses of CoresComputeAndBranch are met together (clause 3). -/
theorem test_wit_cores_compute_and_branch_3 : let d := (withCore up 0x80).setFlag F.KRF_CORE_CTRL_DEBUG 0x80 true
    Steady d 0x80 (d.core 0x80) none ∧ isSeq 0x80 = true ∧ d.flag F.KRF_CORE_CTRL_DEBUG 0x80 = true := by decide

set_option maxRecDepth 100000 in
/-- The hypotheses of CoresLoadStoreConvertAndControl are met together (clause 1). -/
theorem test_wit_cores_load_store_convert_and_control_1 : let d := withCore up 3
    let x : BitVec 29 := 5
    Steady d 3 (d.core 3) none ∧ lSeg x = 0 ∧ (d.core 3).pois (lRs1 x) = false ∧ ((d.core 3).data (lRs1 x) + w32 (sext 16 x.toNat)).toNat < localWords 3 ∧ isSeq 3 = false ∧ (d.core 3).exl = false := by decide

set_option maxRecDepth 100000 in
/-- The hypotheses of CoresLoadStoreConvertAndControl are met together (clause 2). -/
theorem test_wit_cores_load_store_convert_and_control_2 : let d := (withCore up 3).modCore 3 (fun k => { k with segs := [(1, ⟨0x1000, 0x1000, 7⟩)] })
    let x : BitVec 29 := 0x10008
    Steady d 3 (d.core 3) none ∧ lSeg x ≠ 0 ∧ (d.core 3).fabric (lSeg x) (lRs1 x) (sext 16 x.toNat) 8 false = .inl 0x1008 ∧ (d.core 3).fabric (lSeg x) (lRs1 x) (sext 16 x.toNat) 8 true = .inl 0x1008 ∧
    (withRegs d [(F.MEM_CAP_DATA_GIB, 0, 64)]).decode (coreIo 3) 0x1008 = .lpddr 0x1008 ∧ d.targetStopped (.lpddr 0x1008) = false ∧ d.routeHeld 3 (.lpddr 0x1008) = false ∧ d.stampHeld (coreNode 3) = false ∧ d.cord.pending = [] ∧ d.cord.waiting = [] := by decide

set_option maxRecDepth 100000 in
/-- The hypotheses of CoresLoadStoreConvertAndControl are met together (clause 3). -/
theorem test_wit_cores_load_store_convert_and_control_3 : let d := (withCore up 3).modCore 3 (fun k => { k with regs := [(2, 0x2)] })
    let x : BitVec 29 := 0x8200
    Steady d 3 (d.core 3) none ∧ bits x.toNat 0 8 = 0 ∧ lFn x = 2 ∧ (Desc.of ((d.core 3).reg (lRs2 x) |>.truncate 16)).ok = true ∧ (Desc.of ((d.core 3).reg (lRs2 x) |>.truncate 16)).elem ≠ 0 := by decide

set_option maxRecDepth 100000 in
/-- The hypotheses of CountersIssueAndCoreEvents are met together (clause 1). -/
theorem test_wit_counters_issue_and_core_events_1 : let d := withCore up 3
    let x : BitVec 29 := 2 ^ 19
    Steady d 3 (d.core 3) none ∧ d.stampHeld (coreNode 3) = false ∧ d.heldLink (coreNode 3) (coreNode 5) = none ∧ lCtr x < 48 ∧ ((d.core 3).ctr (lCtr x)).count < 65535 ∧ isSeq 3 = false ∧ (d.core 3).exl = false ∧ (d.core 3).sate = false ∧ ((d.core 3).data (lRs1 x)).toNat % 256 = 5 ∧
    (d.core 5).state = .off := by decide

set_option maxRecDepth 100000 in
/-- The hypotheses of CountersIssueAndCoreEvents are met together (clause 2). -/
theorem test_wit_counters_issue_and_core_events_2 : let d := (withCore up 0x80).modCore 0x80 (fun k => { k with regs := [], mem := [(0, 0x10100), (1, 0), (2, 0), (4, 0), (10, 0)] })
    let x : BitVec 29 := 2
    let o : QOp := ⟨(List.range 16).map (fun i => (tblGetD (d.core 0x80).mem (0 + i) 0).truncate 32), false, d.coreStep 0x80⟩
    Steady d 0x80 (d.core 0x80) none ∧ isSeq 0x80 = true ∧ lRd x = 0 ∧ bits x.toNat 0 2 = 2 ∧ bits x.toNat 2 17 = 0 ∧ (d.core 0x80).pois (lRs1 x) = false ∧ o.ok 2 = true ∧ d.unitServes 0x80 2 o = true ∧ d.opTurn 0x80 2 o = true := by decide

set_option maxRecDepth 100000 in
/-- The hypotheses of CountersIssueAndCoreEvents are met together (clause 3). -/
theorem test_wit_counters_issue_and_core_events_3 : let d := (withCore up 3).modCore 3 (fun k => { k with state := .waitSync, waitLen := 2, ctrs := [(1, ⟨2, false, false, [⟨0, false, 1⟩], 0⟩)] })
    ((d.core 3).ctr 1).waits = [⟨0, false, 1⟩] ∧ ((d.core 3).ctr 1).count ≥ 1 ∧ (d.core 3).state = .waitSync ∧ (d.core 3).pre = none ∧ (d.core 3).satPend = none ∧ (d.core 3).ie = false := by decide

set_option maxRecDepth 100000 in
/-- The hypotheses of CountersIssueAndCoreEvents are met together (clause 4). -/
theorem test_wit_counters_issue_and_core_events_4 : let d := (withCore up 3).modCore 3 (fun k => { k with ie := true, ctrs := [(1, ⟨0, false, false, [⟨0, false, 1⟩], 0⟩)] })
    let d := withRegs d [(F.KRF_DL_CTRL_EN, 0, 1), (F.KRF_DL_WATCH_LO_MASK, 3, 2)]
    (d.core 3).ie = true ∧ (d.core 3).exl = false ∧ d.flag F.KRF_DL_CTRL_EN 0 = true ∧ d.watched 3 1 = true ∧ ((d.core 3).ctr 1).waits ≠ [] := by decide

set_option maxRecDepth 100000 in
/-- The hypotheses of FirmwareCommandsRingsAndLease are met together (clause 1). -/
theorem test_wit_firmware_commands_rings_and_lease_1 : let c := cm 0 []
    Served up c 0x0001 [.m, .s, .b] ∧ Served up c 0x0002 [.m, .s, .b] ∧ zeroFrom c 0 = true ∧ up.viaIssuer (.bar0 0) = some (.pf0 0) ∧ up.viaIssuer (.bar0 4) = none ∧ quietRing (up.cmdRing (.pf0 0)) = true ∧
    (up.cmdRing (.pf0 0)).held = [] ∧ up.flag F.SCL_MBOX_CTRL_GO 0 = false := by decide

set_option maxRecDepth 100000 in
/-- The hypotheses of FirmwareCommandsRingsAndLease are met together (clause 2). -/
theorem test_wit_firmware_commands_rings_and_lease_2 : let d := withRegs up [(F.PWR_LIMIT_CEILING, 0, 950), (F.SCL_SQ_CTRL_EN, 0, 1), (F.SCL_SQ_CTRL_LOG2, 0, 6), (F.SCL_MBOX_DATA 0, 0, 0x00010700)]
    let c := cm 0 [300]
    Served d c 0x0602 [.m, .b] ∧ zeroFrom c 1 = true ∧ c.w 0 ≤ d.fld F.PWR_LIMIT_CEILING 0 ∧ d.flag F.SCL_SQ_CTRL_EN 0 = true ∧ 1 ≤ d.ringDepth (.pf0 0) - 1 ∧ opcodes.contains (fieldAt (d.mboxBytes 0) 2 2) = true := by decide

set_option maxRecDepth 100000 in
/-- The hypotheses of FirmwareCommandsRingsAndLease are met together (clause 3). -/
theorem test_wit_firmware_commands_rings_and_lease_3 : let g : FwImage := ⟨1, 0, 0x0100, 0x0700, true, ⟨1, 0x0100, 0, [], 9⟩, none⟩
    let d := { up with scaler := { up.scaler with staged := [(1, g), (4, { g with kind := 4 })], inUse := some false } }
    Served d (cm 0 [0x1000, 64]) 0x0701 [.m, .b] ∧ zeroFrom (cm 0 [0x1000, 64]) 2 = true ∧ d.checkImage g = none ∧ Served d (cm 0 [1]) 0x0702 [.m, .b] ∧ zeroFrom (cm 0 [1]) 1 = true ∧ d.emergency = false ∧
    (∀ k ∈ coresOf 1, (d.fwCore k).image = none ∧ (d.fwCore k).stopped = false ∧ (d.core k).state ≠ .restarting) ∧ Served d (cm 0 [4]) 0x0703 [.m, .b] ∧ d.scaler.flash = none ∧
    Served d (cm 0 [0xC8]) 0x0704 [.m] ∧ coreKind 0xC8 = 3 := by decide

set_option maxRecDepth 100000 in
/-- The hypotheses of FirmwareCommandsRingsAndLease are met together (clause 4). -/
theorem test_wit_firmware_commands_rings_and_lease_4 : let d := up.setCore 0xC9 { Core.init with state := .running }
    up.scaler.lease.lead = .west ∧ Die.west ∈ up.scaler.lease.acting ∧ up.scaler.lease.conflict = false ∧ Die.east ∉ up.scaler.lease.acting ∧ d.scalerUp .east = true ∧ d.scaler.lease.claimWins .east = true ∧ d.scaler.journal = [] ∧ d.scaler.rings = [] ∧
    d.cord.phase = .idle := by decide

set_option maxRecDepth 100000 in
/-- The hypotheses of BootStagesCoresAndUpdates are met together (clause 1). -/
theorem test_wit_boot_stages_cores_and_updates_1 : let d := Dev.init
    d.scaler.boot = .reset ∧ d.bootReady = true ∧ d.cord.phase = .idle := by decide

set_option maxRecDepth 100000 in
/-- The hypotheses of BootStagesCoresAndUpdates are met together (clause 2). -/
theorem test_wit_boot_stages_cores_and_updates_2 : let d := { Dev.init with scaler := { Dev.init.scaler with boot := .imageRead } }
    d.bootReady = true ∧ d.scaler.flashA = none ∧ d.scaler.flashB = none := by decide

set_option maxRecDepth 100000 in
/-- The hypotheses of BootStagesCoresAndUpdates are met together (clause 3). -/
theorem test_wit_boot_stages_cores_and_updates_3 : let g := img0
    let d := { Dev.init with scaler := { Dev.init.scaler with boot := .verify, flashA := some g, tryB := some false } }
    d.bootReady = true ∧ (if false then d.scaler.flashB else d.scaler.flashA) = some g ∧ checkCopy g = none ∧ checkCopy { g with sigOk := false } = some (stBadSig, 0) ∧ g.fields = [] ∧ g.slices = [] := by decide

set_option maxRecDepth 100000 in
/-- The hypotheses of BootStagesCoresAndUpdates are met together (clause 4). -/
theorem test_wit_boot_stages_cores_and_updates_4 : let d := up.setCore 0xC0 { Core.init with state := .running }
    coreKind 0xC0 ≠ 0 ∧ (d.fwCore 0xC0).stopped = false ∧ (d.core 0xC0).state = .running ∧ d.cord.phase = .idle ∧ (up.setCore 0xC0 { Core.init with state := .restarting }).core 0xC0 = { Core.init with state := .restarting } := by decide

set_option maxRecDepth 100000 in
/-- The hypotheses of BootStagesCoresAndUpdates are met together (clause 5). -/
theorem test_wit_boot_stages_cores_and_updates_5 : let a : Activation := ⟨1, ⟨1, 0x0100, 0, [], 9⟩, none, [0xC0], false⟩
    let d := { up with scaler := { up.scaler with activations := [a] } }
    d.scaler.activations = [a] ∧ a.deferred = false ∧ versionOk a.image.layout.toNat 0x0100 = true ∧ d.emergency = false ∧ { d with pwr := { d.pwr with hot := true } }.emergency = true := by decide

set_option maxRecDepth 100000 in
/-- The hypotheses of BootStagesCoresAndUpdates are met together (clause 6). -/
theorem test_wit_boot_stages_cores_and_updates_6 : let g : FwImage := ⟨1, 0, 0x0100, 0x0700, true, ⟨1, 0x0100, 0, [], 9⟩, none⟩
    let d := { up with scaler := { up.scaler with pldm := ⟨.download, [1], 1, []⟩, flash := some ⟨none, false, none, false⟩ } }
    d.scaler.boot.code ≥ 5 ∧ d.scaler.pldm.state = .download ∧ g.kind = d.scaler.pldm.component ∧ d.checkImage g = none ∧ d.checkImage { g with kind := 4, cfg := some img0 } = none ∧ d.scaler.flash = some ⟨none, false, none, false⟩ := by decide

set_option maxRecDepth 100000 in
/-- The hypotheses of KeySlotsSessionsAndCipher are met together (clause 1). -/
theorem test_wit_key_slots_sessions_and_cipher_1 : let c := cm 0 [3]
    Served up c 0x0801 [.m, .s] ∧ c.w 0 < 8 ∧ zeroFrom c 1 = true ∧ bits (c.w 0) 1 2 = 1 ∧ bit (c.w 0) 0 = true ∧ up.trng = true ∧ up.freeKeySlot = some 0 := by decide

set_option maxRecDepth 100000 in
/-- The hypotheses of KeySlotsSessionsAndCipher are met together (clause 2). -/
theorem test_wit_key_slots_sessions_and_cipher_2 : let k : KeySlot := { KeySlot.empty 1 .device with challenge := some 9 }
    let d := withKey up 7 k
    let b : KeyBlob := { use := 1, signer := 0, slot := 7, limit := 0, challenge := 9, sigOk := true, wrapOk := true, upperZero := true, version := 0x0100, reservedOk := true, key := 5, salt := 6, start := 0 }
    Served d (cm 0 [0x1000]) 0x0802 [.m, .s] ∧ zeroFrom (cm 0 [0x1000]) 1 = true ∧ d.key b.slot = some k ∧ d.mayKey (cm 0 [0x1000]) k = true ∧ k.state = .allocated ∧ k.challenge = some b.challenge ∧ b.use = k.use := by decide

set_option maxRecDepth 100000 in
/-- The hypotheses of KeySlotsSessionsAndCipher are met together (clause 3). -/
theorem test_wit_key_slots_sessions_and_cipher_3 : let d := withKey up 7 key0
    Served d (cm 0 [7 + 4096]) 0x0803 [.m, .s] ∧ Served d (cm 0 [7]) 0x0804 [.m, .s] ∧ d.mayKey (cm 0 [7]) key0 = true ∧ d.keyRefs 7 = 0 ∧ bit ((cm 0 [7 + 4096]).w 0) 12 = true ∧ d.trng = true := by decide

set_option maxRecDepth 100000 in
/-- The hypotheses of KeySlotsSessionsAndCipher are met together (clause 4). -/
theorem test_wit_key_slots_sessions_and_cipher_4 : let d : Dev := { withRegs (withObjs up) [(F.BRK_SLICE_SLOTS_QUOTA, 0, 8)] with slices := [(0, sl0)] }
    let c := cm 0 [9]
    Served d c 0x0805 [.m, .s] ∧ d.objectSlice c = none ∧ zeroFrom c 1 = true ∧ tblGet d.skid.ahs 0 ≠ none ∧ d.trng = true ∧ d.slotQuota c.target 2 = true ∧ d.freeKeySlot = some 0 ∧
    (d.putKey 0 (KeySlot.empty 3 (.session d.bark.nextSession))).freeKeySlot = some 1 := by decide

set_option maxRecDepth 100000 in
/-- The hypotheses of KeySlotsSessionsAndCipher are met together (clause 5). -/
theorem test_wit_key_slots_sessions_and_cipher_5 : let x : Session := ⟨9, 0, none, 0, true, 9, none, 20, 21, 0, 0, 0, 0, none, true, false⟩
    let d : Dev := { up with slices := [(0, sl0)], bark := { up.bark with sessions := [(1, x)] } }
    let c := cm 0 [20]
    Served d c 0x0806 [.m, .s] ∧ d.bark.sessions.find? (fun e => e.2.tx = c.w 0 ∨ e.2.rx = c.w 0) = some (1, x) ∧ d.mayName c = true ∧ d.keyRefs 20 = 0 ∧ d.session 1 = some x ∧ x.old = true := by decide

set_option maxRecDepth 100000 in
/-- The hypotheses of KeySlotsSessionsAndCipher are met together (clause 6). -/
theorem test_wit_key_slots_sessions_and_cipher_6 : let r : CipherReq := { version := 0x0100, doneEn := true, slot := 7, doneCore := 0xC0, doneCtr := 3, src := 0x10000000000, dst := 0x1000, len := 0, aadLen := 0, iv := [], tweak := 0, mismatch := 0 }
    let d := withRegs (withKey (up.setCore 0xC0 { Core.init with state := .running }) 7 key0) [(F.MEM_CAP_DATA_GIB, 0, 464)]
    d.cord.phase = .idle ∧ d.key r.slot = some key0 ∧ cipherOk 1 r = true ∧ useAllows key0.use 1 = true ∧ (d.engineRead .west r.src 0).isSome = true ∧ d.targetStopped (d.decode (some .west) r.dst) = false ∧ d.heldLink (.io .west) (coreNode r.doneCore) = none ∧ (d.decode (some .west) r.dst).inside = true ∧ (key0.take .west).isSome = true := by decide

set_option maxRecDepth 100000 in
/-- The hypotheses of KeySlotsSessionsAndCipher are met together (clause 7). -/
theorem test_wit_key_slots_sessions_and_cipher_7 : let d : Dev := { withRegs up [(F.BRK_SLICE_SEL_SLICE, 0, 0)] with slices := [(0, sl0)], bark := { up.bark with internal := [(2, ⟨true, 5, some 1, some 2, true⟩)] } }
    d.manages 0 (d.fld F.BRK_SLICE_SEL_SLICE 0) = true ∧ d.slotsHeld 0 ≤ 100 ∧ tblGet d.bark.internal 2 = some ⟨true, 5, some 1, some 2, true⟩ := by decide

set_option maxRecDepth 100000 in
/-- The hypotheses of SpdmResponderAndHandshakes are met together (clause 1). -/
theorem test_wit_spdm_responder_and_handshakes_1 : let d : Dev := { up with bark := { up.bark with conns := [(viaKey (.doe 0), ⟨3, 0x12, none⟩), (viaKey (.peer 9), ⟨3, 0x13, some 0⟩)] } }
    d.viaUp (.doe 0) = true ∧ d.viaUp (.peer 9) = true ∧ 3 ≤ (d.conn (.doe 0)).step ∧ (d.conn (.mctp .west)).step < 1 ∧ 3 ≤ (d.conn (.peer 9)).step ∧ (d.conn (.peer 9)).target = some 0 ∧ d.trng = true ∧ d.freeKeySlot = some 0 := by decide

set_option maxRecDepth 100000 in
/-- The hypotheses of SpdmResponderAndHandshakes are met together (clause 2). -/
theorem test_wit_spdm_responder_and_handshakes_2 : let d : Dev := { withRegs up [(F.BRK_SLICE_SLOTS_QUOTA, 0, 8), (F.BRK_SLICE_SLOTS_ACCEPT, 0, 1)] with slices := [(0, sl0)] }
    (d.slice 0).state = .active ∧ d.slotQuota 0 2 = true ∧ d.flag F.BRK_SLICE_SLOTS_ACCEPT 0 = true ∧ (d.putKey 0 (KeySlot.empty 3 (.session d.bark.nextSession))).freeKeySlot = some 1 ∧
    agreedOf [0x0100] = some 0x0100 ∧ (withPlan up).planOfDigest 0 = some 4 ∧ ((withPlan up).plan 4).isSome = true := by decide

set_option maxRecDepth 100000 in
/-- The hypotheses of SpdmResponderAndHandshakes are met together (clause 3). -/
theorem test_wit_spdm_responder_and_handshakes_3 : let x : Session := ⟨9, 0, none, 0, false, 8, none, 20, 21, 0, 0, 0, 0, none, false, false⟩
    let d : Dev := { withKey (withKey (withRegs up [(F.BRK_SLICE_SLOTS_ACCEPT, 0, 1)]) 20 (KeySlot.empty 3 (.session 1))) 21 (KeySlot.empty 4 (.session 1)) with slices := [(0, sl0)], bark := { (withKey (withKey up 20 (KeySlot.empty 3 (.session 1))) 21 (KeySlot.empty 4 (.session 1))).bark with sessions := [(1, x), (2, { x with requester := true }), (3, { x with step := 9 }), (4, { x with requester := true, replaces := some 3 })] } }
    d.pendingOf 9 = some 1 ∧ d.session 1 = some x ∧ (d.slice 0).state = .active ∧ d.flag F.BRK_SLICE_SLOTS_ACCEPT 0 = true ∧ x.tx ≠ x.rx ∧ d.key 20 = some (KeySlot.empty 3 (.session 1)) ∧ (d.key 21).isSome = true ∧
    d.session 2 = some { x with requester := true } ∧ d.session 3 = some { x with step := 9 } ∧ (d.session 4).isSome = true ∧ (d.skid.qps.map (·.1)).Nodup := by decide

set_option maxRecDepth 100000 in
/-- The hypotheses of PowerStatesClampsTripsAndResets are met together (clause 1). -/
theorem test_wit_power_states_clamps_trips_and_resets_1 : let c := cm 0 [1]
    let d := { up with pwr := { up.pwr with move := some ⟨1, none, false⟩ } }
    Served up c 0x0601 [.m, .b] ∧ zeroFrom c 1 = true ∧ c.w 0 ≠ up.pwr.state ∧ up.pwr.move = none ∧ up.mill.plans = [] ∧ up.nvm.vols = [] ∧ up.mem.wf = true ∧ up.cord.phase = .idle ∧ up.slices = [] ∧
    Served d c 0x0601 [.m, .b] ∧ Served up (cm 0 [3]) 0x0601 [.m, .b] ∧ Served up (cm 0 [4]) 0x0601 [.m, .b] ∧ d.moveClear 1 = true := by decide

set_option maxRecDepth 100000 in
/-- The hypotheses of PowerStatesClampsTripsAndResets are met together (clause 2). -/
theorem test_wit_power_states_clamps_trips_and_resets_2 : let d := withPlan { up with pwr := { up.pwr with move := some ⟨2, none, false⟩ } }
    (d.mill.plans.map (·.1)).Nodup ∧ d.pwr.move = some ⟨2, none, false⟩ ∧ (d.plan 4).isSome = true ∧ ({ d with slices := [(0, sl0)] } : Dev).moveRefused 3 = true := by decide

set_option maxRecDepth 100000 in
/-- The hypotheses of PowerStatesClampsTripsAndResets are met together (clause 3). -/
theorem test_wit_power_states_clamps_trips_and_resets_3 : let d := up
    d.pwr.dip = false ∧ d.pwr.stages = true ∧ d.pwr.state ≠ 4 ∧ (∀ a ∈ d.scaler.activations, a.deferred = false) ∧ d.flag F.PWR_STATUS_THERM_CLAMP 0 = false ∧ d.pwr.trip = 0 ∧ d.pwr.input = true ∧ d.fld F.PWR_METER_PEAK 0 < 2 ^ 16 := by decide

set_option maxRecDepth 100000 in
/-- The hypotheses of PowerStatesClampsTripsAndResets are met together (clause 4). -/
theorem test_wit_power_states_clamps_trips_and_resets_4 : let d := { up with pwr := { up.pwr with cold := false } }
    ¬ (d.pwr.input = false ∨ d.pwr.trip = 1 ∨ (d.pwr.trip ≠ 0 ∧ true = false)) ∧ d.pwr.cold = false ∧ d.pins.mrstLow = false ∧ d.scaler.boot ≠ .hold ∧ d.pwr.stages = true ∧ d.cord.phase = .idle ∧ d.mem.wf = true := by decide

/-- The hypotheses of EveryStepKeepsTheInvariant are met together. -/
theorem test_wit_every_step_keeps_the_invariant_1 : Inv State.reset := by decide

/-- The hypotheses of PowerStateChangesOnlyOnCommand are met together (clause 1). -/
theorem test_wit_power_state_changes_only_on_command_1 : let s : State := ⟨up, [.warmReset true]⟩
    s.pending = Instr.warmReset true :: [] ∧ s.dev.pwr.state ≤ 4 ∧ (∀ m ∈ s.dev.pwr.move, m.target ≤ 4) := by decide

/-- The hypotheses of PowerStateChangesOnlyOnCommand are met together (clause 2). -/
theorem test_wit_power_state_changes_only_on_command_2 : let d := { up with pwr := { up.pwr with cold := false } }
    d.pwr.input = true ∧ d.pwr.trip = 0 ∧ d.pwr.stages = true ∧ d.pwr.state ≠ 4 ∧ d.pwr.cold = false ∧ d.pins.mrstLow = false ∧ d.scaler.boot ≠ .hold := by decide

/-- A slot of a volume of 2^30 units holds whatever the captures take. -/
theorem test_slot_fits (c : Nat) (v : Volume) (h : v.desc.units = 1073741824) : ¬ slotNeeds (c % 32769 + 0 + 0) > v.slotUnits := by
  simp only [slotNeeds, Volume.slotUnits, h]
  omega

/-- The remaining hypothesis of CheckpointsStartHoldAndCapture. -/
theorem test_wit_checkpoint_volume_fits : (withCkpt up).volumeFits = none := by
  have h1 : (withCkpt up).crdVol = some (0, { vol0 with desc := { vol0.desc with units := 2 ^ 30 } }) := by decide
  have h2 : runsLen (withCkpt up).trackRuns = 0 := by decide
  have h3 : ((withCkpt up).cord.regions.map regionChunks).sum = 0 := by decide
  unfold Dev.volumeFits
  rw [h1, h2, h3]
  exact if_neg (test_slot_fits _ _ rfl)

/-! ### Well-formed commands, and an ill-formed one for each check -/

theorem test_wf_takes : (Instr.ethLinkUp 3).wf = true ∧ (Instr.planStop (cm 511 [])).wf = true := by decide
theorem test_wf_via : (Instr.regWrite (.page 4 .pf0 0) 0 4 0 false).wf = false ∧ (Instr.regWrite (.page 3 .pf0 512) 0 4 0 false).wf = false ∧ (Instr.regWrite (.page 3 .pf0 511) 0 4 0 false).wf = true := by decide
theorem test_wf_port : (Instr.timNowRead 4).wf = false ∧ (Instr.timNowRead 3).wf = true := by decide
theorem test_wf_slice (x : ExtentData) : (Instr.targetReadDone 512 0 0 0 0 x).wf = false := rfl
theorem test_wf_slot : (Instr.stepArm 64).wf = false ∧ (Instr.stepArm 63).wf = true := by decide
theorem test_wf_link : (Instr.ucieLaneRepair 13).wf = false ∧ (Instr.ucieLaneRepair 12).wf = true := by decide
theorem test_wf_unit : (Instr.unitOutOfService 16).wf = false := by decide
theorem test_wf_qpn : (Instr.rnrTimerExpiry 16777216).wf = false := by decide
theorem test_wf_core : (Instr.watchdogExpiry 0xCA).wf = false ∧ (Instr.watchdogExpiry 0xC9).wf = true := by decide
theorem test_wf_replica : (Instr.replicaRealign 5 ⟨0, 0, 0⟩).wf = false := by decide
theorem test_wf_channel : (Instr.rowCopyDone 16 0).wf = false := by decide
theorem test_wf_seed (v : W32) : (Instr.bkrHashSeedWrite 4 v).wf = false := rfl
theorem test_wf_path : (Instr.pathProbe 0 128).wf = false := by decide
theorem test_wf_counter : (Instr.syncWaitRelease 0 48).wf = false := by decide
theorem test_wf_macro : (Instr.laneMacroFail .west 18).wf = false := by decide
theorem test_wf_spill_register : (Instr.spillWindowWrite 0 3 0).wf = false := by decide
theorem test_wf_source : (Instr.faultEvent 46 .corrected 0 0 1 0).wf = false := by decide
theorem test_wf_memory_unit : (Instr.eccCorrected (.chan 16) 0 0).wf = false ∧ (Instr.eccCorrected (.sram 6) 0 0).wf = false := by decide
theorem test_wf_spdm : (Instr.spdmGetVersion (.peer 65536)).wf = false ∧ (Instr.spdmGetVersion (.doe 4)).wf = false := by decide
theorem test_wf_command : (Instr.planStop { cm 0 [] with iss := .pf0 4 }).wf = false ∧ (Instr.planStop { cm 0 [] with iss := .page 512 }).wf = false ∧ (Instr.planStop (cm 65536 [])).wf = false := by decide

/-! ### Worked examples of the spec -/

/-- Example 2.1: −6.5 in K36, from its binary32 code. -/
theorem test_k36_example : (convert 1 15 0xC0D00000 .rne false).1 = 0xC06800000 := by decide
/-- Table 2.5: two ties of bfloat16, and an overflow of binary16 under both settings of OVF. -/
theorem test_bf16_ties : (convert 1 2 0x3F808000 .rne false).1 = 0x3F80 ∧ (convert 1 2 0x3F818000 .rne false).1 = 0x3F82 := by decide
theorem test_b16_overflow : (convert 1 3 0x4788B800 .rne false).1 = 0x7C00 ∧ (convert 1 3 0x4788B800 .rne true).1 = 0x7BFF := by decide
/-- Table 2.5: 500 saturates in E4M3, −0.001 gives the smallest subnormal, 5 ties to 4 in E2M1. -/
theorem test_e4m3_rows : (convert 1 4 0x43FA0000 .rne false).1 = 0x7E ∧ (convert 1 4 0xBA83126F .rne false).1 = 0x81 := by decide
theorem test_e2m1_tie : (convert 1 8 0x40A00000 .rne false).1 = 0x6 := by decide
/-- Table 2.5: −2.7 to INT8 toward zero, and 0.75 to E8M0. -/
theorem test_int8_rz : (convert 1 11 0xC02CCCCD .rz false).1 = 0xFE ∧ (convert 1 13 0x3F400000 .rne false).1 = 0x7E := by decide
/-- Example 2.2: 2.6 to E2M1 under SR with r = 35,889 gives 3, and with r = 26,214 gives 2. -/
theorem test_sr_example : (convert 1 8 0x40266666 (.sr 35889) false).1 = 0x5 ∧ (convert 1 8 0x40266666 (.sr 26214) false).1 = 0x4 := by decide
/-- Example 5.2: the home of a data address. -/
theorem test_interleave_example : channelOf 0x1234567890 = 0 ∧ localAddr 0x1234567890 = 0x123456890 ∧ spareChunk 0 1193046 = (7, 0x740000000 + 79536 * 4096) := by decide
/-- Example 13.1: the nonce of the value 4,099, and East's fourth value of its first lease. -/
theorem test_nonce_example : nonce 0x447B019C3E5D 0x1003 = [0x5D, 0x3E, 0x9C, 0x01, 0x7B, 0x44, 0, 0, 0, 0, 0x10, 0x03] := by decide
theorem test_lease_example : ((key0.take .east).map (·.1)) = some 1000 ∧ (({ key0 with next := 4096, leaseE := (0, 0) }.take .east).map (fun (r : Nat × KeySlot) => (r.1, r.2.next))) = some (4096, 8192) := by decide
/-- Example 10.1: the units of a slot of 6,669,696 chunks, and the smallest volume. -/
theorem test_slot_example : slotNeeds 6669696 = 1668240 ∧ ({ vol0 with desc := { vol0.desc with units := 3336481 } }).slotUnits = 1668240 := by decide

/-! ### Published values of the algorithms that the spec names -/

/-- FIPS 180-4: the digest of "abc". -/
theorem test_sha256_abc : digest [0x61, 0x62, 0x63] = 0xBA7816BF8F01CFEA414140DE5DAE2223B00361A396177A9CB410FF61F20015AD := by decide +kernel
/-- The GCM specification, test case 13: an empty message under a zero key. -/
theorem test_gcm_empty : (gcmSeal (zeros 32) (zeros 12) [] []).2 = be 16 0x530F8AFBC74536B9A963B4F1C4CB738B := by decide +kernel
/-- The IPv4 header checksum of the worked example that RFC 1071 texts use: 192.168.0.1 to 192.168.0.199, 115 B of UDP. -/
theorem test_ip4_checksum :
    65535 - ipSum (ip4Bytes ⟨0, 0, 0, 0, 0x40, true, 0xC0A80001, 0xC0A800C7, 0, 0⟩ 95 0 0x00004000) = 0xB861 := by decide

/-- SP 800-186: twice the base point of P-256. -/
theorem test_p256_double : pointAdd (some p256Base) (some p256Base) =
    some (0x7CF27B188D034F7E8A52380304B51AC3C08969E277F21B35A60B48FC47669978,
      0x07775510DB8ED040293D9AC69F7430DBBA7DADE63CE982299E04B79D227873D1) := by decide +kernel

end Sys2Proof.Tests
end

section
/-! SUPPORT. Register fields and tables: what an update leaves of every other reading. -/

namespace Sys2Proof.Machine

open Sys2Proof

/-! ### Tables by number -/

/-- Of two updates of one number the second alone stands. -/
theorem tblPut_put_same {α : Type} (t : Tbl α) (n : Nat) (v w : α) : tblPut (tblPut t n v) n w = tblPut t n w := by
  induction t with
  | nil => simp [tblPut]
  | cons e t ih =>
    obtain ⟨k, u⟩ := e
    by_cases hk : k = n
    · simp [tblPut, hk]
    · by_cases hn : n < k
      · simp [tblPut, hk, hn]
      · simp [tblPut, hk, hn, ih]

/-! ### Fields read the register table alone -/

theorem fld_congr {d e : Dev} (h : e.regs = d.regs) (f : Fld) (i : Nat) : e.fld f i = d.fld f i := by
  simp only [Dev.fld, h]

theorem flag_congr {d e : Dev} (h : e.regs = d.regs) (f : Fld) (i : Nat) : e.flag f i = d.flag f i := by
  simp only [Dev.flag, fld_congr h]

@[simp] theorem fld_count (d : Dev) (ev : Nat) (f : Fld) (i : Nat) : (d.count ev).fld f i = d.fld f i :=
  fld_congr (count_regs d ev) f i
@[simp] theorem fld_emit (d : Dev) (o : Out) (f : Fld) (i : Nat) : (d.emit o).fld f i = d.fld f i := rfl
@[simp] theorem fld_latch (d : Dev) (via : Via) (off v : Nat) (f : Fld) (i : Nat) : (d.latch via off v).fld f i = d.fld f i := rfl
@[simp] theorem fld_unstage (d : Dev) (via : Via) (off : Nat) (f : Fld) (i : Nat) : (d.unstage via off).fld f i = d.fld f i := rfl
@[simp] theorem flag_unstage (d : Dev) (via : Via) (off : Nat) (f : Fld) (i : Nat) : (d.unstage via off).flag f i = d.flag f i := rfl

/-! ### Fields of different keys -/

theorem flag_setFld_other (d : Dev) {f g : Fld} {i j : Nat} (v : Nat) (h : fldKey g j ≠ fldKey f i) :
    (d.setFld f i v).flag g j = d.flag g j := by
  simp only [Dev.flag, fld_setFld_other d v h]

theorem fld_setFlag_other (d : Dev) {f g : Fld} {i j : Nat} (b : Bool) (h : fldKey g j ≠ fldKey f i) :
    (d.setFlag f i b).fld g j = d.fld g j := fld_setFld_other d _ h

/-- A field whose key was just set to 0 reads 0. -/
theorem fld_setFld_zero (d : Dev) {f g : Fld} {i j : Nat} (h : fldKey g j = fldKey f i) : (d.setFld f i 0).fld g j = 0 := by
  simp [Dev.fld, Dev.setFld, h]

/-! ### The fields of a register -/

theorem off_of_mem_fieldsOf {rows : List Row} {off : Nat} {f : Fld} (h : f ∈ fieldsOf rows off) : f.off = off := by
  obtain ⟨r, -, hr⟩ := List.mem_filterMap.mp h
  rw [Option.ite_none_right_eq_some] at hr
  rw [← Option.some.inj hr.2]

theorem isPair_eq_false_of_reserved {off : Nat} (h : fieldsOf allRows off = []) : isPair off = false := by
  simp [isPair, h]

theorem ne_of_reserved {off a : Nat} (h : fieldsOf allRows off = []) (ha : fieldsOf allRows a ≠ []) : off ≠ a := by
  rintro rfl; exact ha h

end Sys2Proof.Machine
end

section
/-! SUPPORT. Accesses of host software at a BAR0 that answers: which rule each access follows (00_scope R7 to R11, R254). -/

namespace Sys2Proof.Machine

open Sys2Proof

/-! ### The commands of register accesses -/

theorem exec_regWrite (via : Via) (off size : Nat) (v : W64) (po : Bool) (s : State) :
    exec (.regWrite via off size v po) s = .next ⟨s.dev.regWrite via off size v po, s.pending⟩ := rfl
theorem exec_lockSet (via : Via) (off : Nat) (v : W32) (s : State) :
    exec (.lockSet via off v) s = .next ⟨s.dev.regWrite via off 4 (v.zeroExtend 64) false, s.pending⟩ := rfl
theorem exec_lowWordWrite (via : Via) (off : Nat) (v : W32) (s : State) :
    exec (.lowWordWrite via off v) s = .next ⟨s.dev.regWrite via off 4 (v.zeroExtend 64) false, s.pending⟩ := rfl
theorem exec_highWordWrite (via : Via) (off : Nat) (v : W32) (s : State) :
    exec (.highWordWrite via off v) s = .next ⟨s.dev.regWrite via off 4 (v.zeroExtend 64) false, s.pending⟩ := rfl
theorem exec_lowWordRead (via : Via) (off : Nat) (s : State) :
    exec (.lowWordRead via off) s = .next ⟨s.dev.hostRead via off 4, s.pending⟩ := rfl
theorem exec_readClear (via : Via) (off size : Nat) (s : State) :
    exec (.readClear via off size) s = .next ⟨s.dev.hostRead via off size, s.pending⟩ := rfl
theorem exec_access8b_write (via : Via) (off : Nat) (v : W64) (s : State) :
    exec (.access8b via off (some v)) s = .next ⟨s.dev.regWrite via off 8 v false, s.pending⟩ := rfl
theorem exec_access8b_read (via : Via) (off : Nat) (s : State) :
    exec (.access8b via off none) s = .next ⟨s.dev.hostRead via off 8, s.pending⟩ := rfl

/-! ### Reads of BAR0 -/

section Read

variable {d : Dev} {p off : Nat} (hup : d.bar0Up p = true)

include hup in
theorem hostRead_word (ho : off % 4 = 0) : d.hostRead (.bar0 p) off 4 = d.readBar0 p off := by
  simp [Dev.hostRead, hup, ho]

include hup in
theorem hostRead_pair (ho : off % 8 = 0) (hp : isPair off = true) :
    d.hostRead (.bar0 p) off 8 = (d.emit (.regData (d.readReg p off))).readEffect p off := by
  simp [Dev.hostRead, hup, ho, hp]

include hup in
/-- Any other size or alignment than R254 allows is an Unsupported Request. -/
theorem hostRead_bad {size : Nat} (h4 : ¬(size = 4 ∧ off % 4 = 0)) (h8 : ¬(size = 8 ∧ off % 8 = 0)) :
    d.hostRead (.bar0 p) off size = ((d.count itHostBad).aerLog p .pf0 .unsupportedRequest).emit .regUr := by
  have h8' : ¬(size = 8 ∧ off % 8 = 0 ∧ isPair off = true) := fun h => h8 ⟨h.1, h.2.1⟩
  simp only [Dev.hostRead, hup, Bool.not_true, Bool.false_eq_true, if_false, h4, h8', Dev.badAccess]

end Read

theorem clearRc_of_ne (d : Dev) (p : Nat) {f : Fld} (h : f.acc ≠ .rc) : d.clearRc p f = d := by
  simp [Dev.clearRc, h]

/-- A read of a register without RC fields clears nothing. -/
theorem clearRc_foldl_of_none (d : Dev) (p : Nat) (fs : List Fld) (h : fs.all (fun f => f.acc != .rc) = true) :
    fs.foldl (fun d f => d.clearRc p f) d = d := by
  induction fs with
  | nil => rfl
  | cons f fs ih =>
    simp only [List.all_cons, Bool.and_eq_true, bne_iff_ne] at h
    rw [List.foldl_cons, clearRc_of_ne d p h.1, ih h.2]

/-- A read has no effect of its own beside RC fields, except on TIM_NOW and TIM_PPS_CAP (R47). -/
theorem readEffect_of_ne (d : Dev) (p : Nat) {off : Nat} (h1 : off ≠ 0x40010) (h2 : off ≠ 0x40048) :
    d.readEffect p off = (fieldsOf allRows off).foldl (fun d f => d.clearRc p f) d := by
  simp [Dev.readEffect, h1, h2]

theorem readEffect_none (d : Dev) (p : Nat) {off : Nat} (h1 : off ≠ 0x40010) (h2 : off ≠ 0x40048)
    (h : (fieldsOf allRows off).all (fun f => f.acc != .rc) = true) : d.readEffect p off = d := by
  rw [readEffect_of_ne d p h1 h2, clearRc_foldl_of_none d p _ h]

/-- A 4-byte read of a register that is no high word (R8). -/
theorem readBar0_low (d : Dev) (p : Nat) {off : Nat} (h0 : off ≠ 0x300044) (hh : 4 ≤ off → isPair (off - 4) = false) :
    d.readBar0 p off =
      (((if isPair off then d.latch (.bar0 p) off (d.readReg p off / 2 ^ 32) else d).emit
        (.regData (d.readReg p off % 2 ^ 32))).readEffect p off) := by
  have hh' : ¬(off ≥ 4 ∧ isPair (off - 4) = true) := fun ⟨a, b⟩ => by simp [hh a] at b
  simp only [Dev.readBar0, h0, hh', if_false]

theorem readReg_reserved (d : Dev) (p : Nat) {off : Nat} (h : fieldsOf allRows off = []) : d.readReg p off = 0 := by
  simp [Dev.readReg, h]

/-! ### Writes of BAR0 -/

section Write

variable {d : Dev} {p off : Nat} (hup : d.bar0Up p = true)

include hup in
theorem regWrite_word (ho : off % 4 = 0) (v : W32) :
    d.regWrite (.bar0 p) off 4 (v.zeroExtend 64) false = d.writeBar0 p off v := by
  have hv : (v.zeroExtend 64).truncate 32 = v := by simp
  simp [Dev.regWrite, hup, ho, hv]

include hup in
theorem regWrite_pair (ho : off % 8 = 0) (hp : isPair off = true) (v : W64) :
    d.regWrite (.bar0 p) off 8 v false = (d.unstage (.bar0 p) off).writePair p off v := by
  simp [Dev.regWrite, hup, ho, hp]

end Write

theorem writeBar0_lowWord (d : Dev) (p : Nat) {off : Nat} (hp : isPair off = true) (v : W32) :
    d.writeBar0 p off v = d.stage (.bar0 p) off v.toNat := by
  simp [Dev.writeBar0, hp, Dev.writeLow]

theorem writeBar0_highWord (d : Dev) (p : Nat) {off : Nat} (hp : isPair off = true) (hq : isPair (off + 4) = false) (v : W32) :
    d.writeBar0 p (off + 4) v = d.writeHigh p off v := by
  simp [Dev.writeBar0, hp, hq]

theorem writeBar0_single (d : Dev) (p : Nat) {off : Nat} (hp : isPair off = false) (hh : 4 ≤ off → isPair (off - 4) = false)
    (v : W32) : d.writeBar0 p off v = d.writeReg p off v := by
  have hh' : ¬(off ≥ 4 ∧ isPair (off - 4) = true) := fun ⟨a, b⟩ => by simp [hh a] at b
  simp only [Dev.writeBar0, hp, hh', Bool.false_eq_true, if_false]

theorem writeReg_reserved (d : Dev) (p : Nat) {off : Nat} (h : fieldsOf allRows off = []) (v : W32) :
    d.writeReg p off v = d.count 0x000 := by
  simp [Dev.writeReg, h]

/-! ### Tally counts -/

/-- An even event counts in its own counter, modulo 2^48; a carry of a pair goes to the odd one (R437, R438). -/
theorem counts_count_even (d : Dev) {ev : Nat} (hlt : ev < 2048) (he : ev % 2 = 0) :
    tblGetD (d.count ev).tally.counts ev 0 = (tblGetD d.tally.counts ev 0 + 1) % 2 ^ 48 := by
  have h1 : ¬ ev ≥ 2048 := by omega
  have h2 : ¬ ev % 2 = 1 := by omega
  unfold Dev.count Dev.countN
  simp only [Nat.one_ne_zero, if_false, h1, h2, decide_false, Bool.false_and, Bool.false_eq_true]
  split
  · simp [Tally.add, tblGetD_put]
  · simp [Tally.add, tblGetD_put]

/-- Counting changes the Tally counters alone. -/
theorem count_eq (d : Dev) (ev : Nat) : d.count ev = { d with tally := (d.count ev).tally } := by
  unfold Dev.count Dev.countN
  dsimp only
  split <;> (try split) <;> (try split) <;> (try split) <;> rfl

end Sys2Proof.Machine
end

section
namespace Sys2Proof.Machine

open Sys2Proof

/-! ### Reserved offsets (R7) -/

theorem readBar0_reserved (d : Dev) (p : Nat) {off : Nat} (h : fieldsOf allRows off = [])
    (hh : 4 ≤ off → isPair (off - 4) = false) : d.readBar0 p off = d.emit (.regData 0) := by
  have h0 : off ≠ 0x300044 := ne_of_reserved h (by decide)
  have h1 : off ≠ 0x40010 := ne_of_reserved h (by decide)
  have h2 : off ≠ 0x40048 := ne_of_reserved h (by decide)
  rw [readBar0_low d p h0 hh, readReg_reserved d p h, isPair_eq_false_of_reserved h, if_neg Bool.false_ne_true,
    readEffect_none _ p h1 h2 (by simp [h]), Nat.zero_mod]

theorem writeBar0_reserved (d : Dev) (p : Nat) {off : Nat} (h : fieldsOf allRows off = [])
    (hh : 4 ≤ off → isPair (off - 4) = false) (v : W32) : d.writeBar0 p off v = d.count 0x000 := by
  rw [writeBar0_single d p (isPair_eq_false_of_reserved h) hh, writeReg_reserved d p h]

/-- Settles O5: the read and the write of a reserved offset, and what one count of event 0x000 changes. -/
theorem reservedOffsetsReadZeroAndCount : Obligations.ReservedOffsetsReadZeroAndCount := by
  refine ⟨fun s p off hup ho hres hhigh => ⟨?_, rfl, fun v => ?_⟩, fun d => ⟨?_, ?_⟩⟩
  · rw [exec_readClear, hostRead_word hup ho, readBar0_reserved s.dev p hres hhigh]
    rfl
  · have hw : s.dev.regWrite (.bar0 p) off 4 (v.zeroExtend 64) false = s.dev.count 0x000 := by
      rw [regWrite_word hup ho, writeBar0_reserved s.dev p hres hhigh]
    simp only [exec_regWrite, exec_lockSet, exec_lowWordWrite, exec_highWordWrite, hw, and_self]
  · exact counts_count_even d (by decide) (by decide)
  · exact count_eq d 0x000

end Sys2Proof.Machine
end

section
/-! SUPPORT. Reads of BAR0 and its paired registers, and O6, O7 and O11 (00_scope R8, R9, R11, R254). -/

namespace Sys2Proof.Machine

open Sys2Proof

/-! ### Reads that clear counts (R11) -/

/-- The registers of BAR0 whose RC fields are plain counts: no unit holds them and no selection moves them. -/
def plainCounts : List Nat := [0x100018, 0x10001C, 0xD00030, 0x1002C, 0x90020, 0x20080]

/-- The copy of a field of such a register. -/
def plainInst (p : Nat) (f : Fld) : Nat := if f.kept = .f then p else 0

theorem instOf_plainCounts (d : Dev) (p : Nat) {f : Fld} (h : f.off ∈ plainCounts) : d.instOf p f = some (plainInst p f) := by
  simp only [plainCounts, List.mem_cons, List.not_mem_nil, or_false] at h
  rcases h with h | h | h | h | h | h <;> simp [Dev.instOf, plainInst, h] <;> split <;> rfl

/-- A read of such a field of code RC sets it to 0. -/
theorem clearRc_plainCounts (d : Dev) (p : Nat) {f : Fld} (h : f.off ∈ plainCounts) (hrc : f.acc = .rc) :
    d.clearRc p f = d.setFld f (plainInst p f) 0 := by
  have hi := instOf_plainCounts d p h
  simp only [plainCounts, List.mem_cons, List.not_mem_nil, or_false] at h
  rcases h with h | h | h | h | h | h <;> simp [Dev.clearRc, hrc, h, hi]

/-- What a read does to the fields of such a register, one after the other. -/
theorem clearRc_foldl_plainCounts (p : Nat) (fs : List Fld) (hfs : ∀ f ∈ fs, f.off ∈ plainCounts) (d : Dev) :
    let e := fs.foldl (fun d f => d.clearRc p f) d
    e = { d with regs := e.regs } ∧
    (∀ (f : Fld) (j : Nat), d.fld f j = 0 → e.fld f j = 0) ∧
    (∀ g ∈ fs, g.acc = .rc → e.fld g (plainInst p g) = 0) ∧
    (∀ (f : Fld) (j : Nat), (∀ g ∈ fs, fldKey f j ≠ fldKey g (plainInst p g)) → e.fld f j = d.fld f j) := by
  induction fs generalizing d with
  | nil => exact ⟨rfl, fun _ _ h => h, fun _ h => absurd h (List.not_mem_nil), fun _ _ _ => rfl⟩
  | cons g fs ih =>
    obtain ⟨hg, hfs⟩ := List.forall_mem_cons.mp hfs
    by_cases hrc : g.acc = .rc
    · obtain ⟨hframe, hzero, hcleared, hother⟩ := ih hfs (d.setFld g (plainInst p g) 0)
      rw [List.foldl_cons, clearRc_plainCounts d p hg hrc]
      refine ⟨hframe, fun f j h => hzero f j ?_, fun f hf hfrc => ?_, fun f j h => ?_⟩
      · by_cases hk : fldKey f j = fldKey g (plainInst p g)
        · exact fld_setFld_zero d hk
        · rw [fld_setFld_other d 0 hk, h]
      · obtain rfl | hf := List.mem_cons.mp hf
        · exact hzero f _ (fld_setFld_zero d rfl)
        · exact hcleared f hf hfrc
      · obtain ⟨hne, h⟩ := List.forall_mem_cons.mp h
        rw [hother f j h, fld_setFld_other d 0 hne]
    · obtain ⟨hframe, hzero, hcleared, hother⟩ := ih hfs d
      rw [List.foldl_cons, clearRc_of_ne d p hrc]
      refine ⟨hframe, hzero, fun f hf hfrc => ?_, fun f j h => hother f j (List.forall_mem_cons.mp h).2⟩
      obtain rfl | hf := List.mem_cons.mp hf
      · exact absurd hfrc hrc
      · exact hcleared f hf hfrc

theorem plainCounts_readable {off : Nat} (h : off ∈ plainCounts) :
    off % 4 = 0 ∧ off ≠ 0x300044 ∧ off ≠ 0x40010 ∧ off ≠ 0x40048 ∧ isPair off = false ∧ isPair (off - 4) = false := by
  simp only [plainCounts, List.mem_cons, List.not_mem_nil, or_false] at h
  rcases h with rfl | rfl | rfl | rfl | rfl | rfl <;> decide

/-- Settles O7: the pair read by its low word and whole, the counts read and cleared, and the reads that R254 refuses. -/
theorem readsLatchPairsAndClearCounts : Obligations.ReadsLatchPairsAndClearCounts := by
  refine ⟨fun s p off hup ho hp h1 h2 h3 hhigh hrc => ?_, fun s p off hup ho hp h1 h2 hrc => ?_,
    fun s p off hup hoff => ?_, fun s p off size hup h4 h8 => ?_⟩
  · rw [exec_lowWordRead, hostRead_word hup ho, readBar0_low s.dev p h3 (fun _ => hhigh), if_pos hp,
      readEffect_none _ p h1 h2 hrc]
    rfl
  · rw [exec_access8b_read, hostRead_pair hup ho hp, readEffect_none _ p h1 h2 hrc]
  · obtain ⟨ho, h0, h1, h2, hp, hhigh⟩ := plainCounts_readable hoff
    have hfs : ∀ f ∈ fieldsOf allRows off, f.off ∈ plainCounts := fun f hf => off_of_mem_fieldsOf hf ▸ hoff
    obtain ⟨hframe, -, hcleared, hother⟩ := clearRc_foldl_plainCounts p _ hfs (s.dev.emit (.regData (s.dev.readReg p off % 2 ^ 32)))
    have hexec : exec (.readClear (.bar0 p) off 4) s = .next ⟨(fieldsOf allRows off).foldl (fun d f => d.clearRc p f)
        (s.dev.emit (.regData (s.dev.readReg p off % 2 ^ 32))), s.pending⟩ := by
      rw [exec_readClear, hostRead_word hup ho, readBar0_low s.dev p h0 (fun _ => hhigh), hp, if_neg Bool.false_ne_true,
        readEffect_of_ne _ p h1 h2]
    refine ⟨_, hexec, rfl, hframe, fun g hg hrc i hi => ?_, fun f j h => ?_⟩
    · rw [instOf_plainCounts _ p (hfs g hg)] at hi
      exact Option.some.inj hi ▸ hcleared g hg hrc
    · exact hother f j (fun g hg => h g hg _ (instOf_plainCounts _ p (hfs g hg)))
  · rw [exec_readClear, hostRead_bad hup h4 h8]

/-! ### TIM_NOW and TIM_PPS_CAP (R38, R47) -/

theorem exec_timNowRead (p : Nat) (s : State) (hup : s.dev.bar0Up p = true) :
    exec (.timNowRead p) s = .next ⟨s.dev.readBar0 p 0x40010, s.pending⟩ := by
  change Host.Outcome.next (⟨s.dev.timRead p 0x40010, s.pending⟩ : State) = _
  simp [Dev.timRead, hup]

theorem exec_timPpsCapRead (p : Nat) (s : State) (hup : s.dev.bar0Up p = true) :
    exec (.timPpsCapRead p) s = .next ⟨s.dev.readBar0 p 0x40048, s.pending⟩ := by
  change Host.Outcome.next (⟨s.dev.timRead p 0x40048, s.pending⟩ : State) = _
  simp [Dev.timRead, hup]

theorem fieldsOf_timNow : fieldsOf allRows 0x40010 = [F.TIM_NOW_NS] := by decide
theorem fieldsOf_timPpsCap : fieldsOf allRows 0x40048 = [F.TIM_PPS_CAP_NS] := by decide

/-- A field that follows a unit shows the unit. -/
theorem readFld_live {d : Dev} {p v : Nat} {f : Fld} (ha : f.acc ≠ .wo) (h : d.liveFld p f = some v) : d.readFld p f = v % 2 ^ f.w := by
  unfold Dev.readFld
  split
  · contradiction
  · simp_all
  · simp_all

/-- A field that its register keeps shows the copy that the reader accesses. -/
theorem readFld_kept {d : Dev} {p i : Nat} {f : Fld} (ha : f.acc ≠ .wo) (h : d.liveFld p f = none) (hi : d.instOf p f = some i) :
    d.readFld p f = d.fld f i := by
  unfold Dev.readFld
  split
  · contradiction
  · simp_all
  · simp_all

theorem readReg_single (d : Dev) (p : Nat) {off : Nat} {f : Fld} (h : fieldsOf allRows off = [f]) (hlo : f.lo = 0) :
    d.readReg p off = d.readFld p f := by
  simp [Dev.readReg, h, hlo]

/-- TIM_NOW shows NS of Ring. -/
theorem readReg_timNow (d : Dev) (p : Nat) : d.readReg p 0x40010 = d.ns.toNat := by
  rw [readReg_single d p fieldsOf_timNow rfl, readFld_live (v := d.ns.toNat) (by decide) rfl]
  exact Nat.mod_eq_of_lt d.ns.isLt

/-- TIM_PPS_CAP shows the capture that the register keeps. -/
theorem readReg_timPpsCap (d : Dev) (p : Nat) : d.readReg p 0x40048 = d.fld F.TIM_PPS_CAP_NS 0 := by
  rw [readReg_single d p fieldsOf_timPpsCap rfl]
  exact readFld_kept (by decide) rfl rfl

theorem readEffect_timNow (d : Dev) (p : Nat) : d.readEffect p 0x40010 = d.latch (.bar0 p) 0x40018 d.frac.toNat := by
  simp only [Dev.readEffect, fieldsOf_timNow, List.foldl, clearRc_of_ne d p (f := F.TIM_NOW_NS) (by decide), if_true]

theorem readEffect_timPpsCap (d : Dev) (p : Nat) : d.readEffect p 0x40048 =
    (d.latch (.bar0 p) 0x40050 (d.fld F.TIM_PPS_CAP_FRAC_FRAC 0)).setFlag F.TIM_STATUS_PPS_CAP_VALID 0 false := by
  simp only [Dev.readEffect, fieldsOf_timPpsCap, List.foldl, clearRc_of_ne d p (f := F.TIM_PPS_CAP_NS) (by decide),
    Nat.reduceEqDiff, if_false, if_true]

/-- Settles O11: the low word given, and the high word and the fraction latched, of Ring and of its capture. -/
theorem timReadsLatchTheFraction : Obligations.TimReadsLatchTheFraction := by
  intro s p hup
  constructor
  · rw [exec_timNowRead p s hup, readBar0_low s.dev p (by decide) (fun _ => by decide), if_pos (by decide), readReg_timNow,
      readEffect_timNow]
    rfl
  · have hread := exec_timPpsCapRead p s hup
    rw [readBar0_low s.dev p (by decide) (fun _ => by decide), if_pos (by decide), readReg_timPpsCap, readEffect_timPpsCap] at hread
    exact ⟨_, hread, rfl, rfl, rfl, flag_setFlag_same _ _ _ _ rfl, rfl, fun f i h => fld_setFlag_other _ _ h⟩

/-! ### Pairs written by their words (R9) -/

/-- Staging the low word of one path and pair twice keeps the second word. -/
theorem stage_stage (d : Dev) (via : Via) (off v w : Nat) : (d.stage via off v).stage via off w = d.stage via off w := by
  simp [Dev.stage, tblPut_put_same]

theorem unstage_staged (d : Dev) (via : Via) (off : Nat) :
    tblGet (d.unstage via off).host.staged (hostKey via off) = none := tblGet_del_same _ _

theorem writeHigh_eq (d : Dev) (p off : Nat) (v : W32) : d.writeHigh p off v =
    (d.unstage (.bar0 p) off).writePair p off (BitVec.ofNat 64
      ((tblGet d.host.staged (hostKey (.bar0 p) off)).getD (d.keptLow p off) % 2 ^ 32 + v.toNat * 2 ^ 32)) := by
  unfold Dev.writeHigh
  cases tblGet d.host.staged (hostKey (.bar0 p) off) <;> rfl

/-- A high word above a low word, as one number. -/
theorem toNat_ofWords (lo : Nat) (hi : W32) : (BitVec.ofNat 64 (lo % 2 ^ 32 + hi.toNat * 2 ^ 32)).toNat = lo % 2 ^ 32 + hi.toNat * 2 ^ 32 := by
  have := hi.isLt
  rw [BitVec.toNat_ofNat, Nat.mod_eq_of_lt]
  omega

section Page

variable {d : Dev} {port n off : Nat} {k : FnKind} (hb : d.pageBound port k n = true) (hoff : off = 0 ∨ off = 0x10)
include hb hoff

theorem regWrite_pageLow (v : W32) :
    d.regWrite (.page port k n) off 4 (v.zeroExtend 64) false = d.stage (.page port k n) off v.toNat := by
  have hv : (v.zeroExtend 64).truncate 32 = v := by simp
  rcases hoff with rfl | rfl <;> simp [Dev.regWrite, hb, hv, Dev.writePage, isPagePair]

theorem regWrite_pageHigh (v : W32) :
    d.regWrite (.page port k n) (off + 4) 4 (v.zeroExtend 64) false = d.pageHigh (.page port k n) n off v := by
  have hv : (v.zeroExtend 64).truncate 32 = v := by simp
  rcases hoff with rfl | rfl <;> simp [Dev.regWrite, hb, hv, Dev.writePage, isPagePair]

end Page

/-- The high word of a page's pair commits both words, unless EN holds the pair (R383, R384). -/
theorem pageHigh_eq (d : Dev) (via : Via) (n off : Nat) (v : W32) :
    let f := if off = 0 then F.PG_SQ_BASE_ADDR else F.PG_CQ_BASE_ADDR
    d.pageHigh via n off v = if d.flag F.PG_SQ_CTRL_EN n then (d.unstage via off).count itSclDiscard
      else (d.unstage via off).setFld f n
        (((tblGet d.host.staged (hostKey via off)).getD (d.fld f n) % 2 ^ 32 + v.toNat * 2 ^ 32) / 4096 * 4096) := by
  unfold Dev.pageHigh Dev.pageBase
  cases tblGet d.host.staged (hostKey via off) <;>
    simp only [toNat_ofWords, flag_unstage, Option.getD_some, Option.getD_none, Nat.mod_mod]

theorem writeHeld_of_plain (d : Dev) (p : Nat) {off : Nat} (h : off = 0x40020 ∨ off = 0x40028 ∨ off = 0x40030 ∨ off = 0x40038) :
    d.writeHeld p off = none := by
  rcases h with rfl | rfl | rfl | rfl <;> simp [Dev.writeHeld]

theorem keptLow_timSet (d : Dev) (p : Nat) : d.keptLow p 0x40028 = 0 := by
  have h : fieldsOf allRows 0x40028 = [F.TIM_SET_NS] := by decide
  simp [Dev.keptLow, h, F.TIM_SET_NS]

/-- TIM_SET written with SRC 0 before Ring is set loads it (R36, R37). -/
theorem writePair_timSet (d : Dev) (p : Nat) (v : W64) (hsrc : d.fld F.TIM_CTRL_SRC 0 = 0) (hset : d.ring.isSet = false) :
    d.writePair p 0x40028 v =
      { d with ring := { d.ring with acc := BitVec.ofNat 96 (v.toNat * 2 ^ 32), isSet := true, state := .free } } := by
  simp [Dev.writePair, writeHeld_of_plain, Dev.timSet, Dev.timWrite, Dev.putSet, hsrc, hset]

/-- The base of PF0's submission ring is one RW field, aligned to 4 KiB (R383). -/
theorem writePair_sqBase (d : Dev) (p : Nat) (v : W64) (hen : d.flag F.SCL_SQ_CTRL_EN p = false) :
    d.writePair p 0x10010 v = d.setFld F.SCL_SQ_BASE_ADDR p (v.toNat / 4096 * 4096) := by
  have hfs : fieldsOf allRows 0x10010 = [F.SCL_SQ_BASE_ADDR] := by decide
  have hheld : d.writeHeld p 0x10010 = none := by simp [Dev.writeHeld, hen]
  have hlock : d.locked 0x10010 = false := rfl
  have hcount : d.countLocked 0x10010 = d := by simp [Dev.countLocked, hlock]
  have hbits : bits v.toNat 0 64 = v.toNat := by simp [bits, Nat.mod_eq_of_lt v.isLt]
  have hfld : d.writeFld p false F.SCL_SQ_BASE_ADDR v.toNat = d.setFld F.SCL_SQ_BASE_ADDR p (v.toNat / 4096 * 4096) := rfl
  have hpair : d.writePair p 0x10010 v = d.writeFields p 0x10010 v.toNat := by simp [Dev.writePair, hheld]
  rw [hpair, Dev.writeFields, hfs, hcount, hlock, ← hfld]
  exact congrArg (d.writeFld p false F.SCL_SQ_BASE_ADDR) hbits

/-- Settles O6: the words of a pair staged and committed at BAR0 and at a slice page. -/
theorem pairWritesStageAndCommit : Obligations.PairWritesStageAndCommit := by
  refine ⟨fun s p off v hup ho hp => ?_, fun s port n off k v hb hoff => ?_, fun s p off v w hup ho hp => ?_,
    fun s port n off k v hb hoff => ⟨fun hen => ?_, fun hen => ?_⟩, fun s p v hup hsrc hset hstaged => ?_,
    fun s p off v hup ho hp hq => ?_, fun s p off v hup ho hp => ⟨?_, rfl⟩, fun s p v hup hen => ?_⟩
  · rw [exec_lowWordWrite, regWrite_word hup ho, writeBar0_lowWord _ _ hp]; rfl
  · rw [exec_lowWordWrite, regWrite_pageLow hb hoff]; rfl
  · refine ⟨⟨s.dev.stage (.bar0 p) off v.toNat, s.pending⟩, ?_, ?_⟩
    · rw [exec_lowWordWrite, regWrite_word hup ho, writeBar0_lowWord _ _ hp]
    · have hup' : (s.dev.stage (.bar0 p) off v.toNat).bar0Up p = true := hup
      rw [exec_lowWordWrite, exec_lowWordWrite, regWrite_word hup ho, regWrite_word hup' ho, writeBar0_lowWord _ _ hp,
        writeBar0_lowWord _ _ hp, stage_stage]
  · rw [exec_highWordWrite, regWrite_pageHigh hb hoff, pageHigh_eq, hen, if_neg Bool.false_ne_true]
  · rw [exec_highWordWrite, regWrite_pageHigh hb hoff, pageHigh_eq, hen, if_pos rfl]
  · have hword := writeBar0_highWord s.dev p (off := 0x40028) (by decide) (by decide) v
    have hload := writePair_timSet (s.dev.unstage (.bar0 p) 0x40028) p (BitVec.ofNat 64 (0 % 2 ^ 32 + v.toNat * 2 ^ 32)) hsrc hset
    have hacc : (0 % 2 ^ 32 + v.toNat * 2 ^ 32) * 2 ^ 32 = v.toNat * 2 ^ 64 := by omega
    rw [exec_highWordWrite, regWrite_word hup (by decide), hword, writeHigh_eq, hstaged, Option.getD_none, keptLow_timSet,
      hload, toNat_ofWords, hacc]
  · rw [exec_highWordWrite, regWrite_word hup (by omega), writeBar0_highWord s.dev p hp hq, writeHigh_eq]
  · rw [exec_access8b_write, regWrite_pair hup ho hp]
  · have hexec := exec_access8b_write (.bar0 p) 0x10010 v s
    rw [regWrite_pair hup (by decide) (by decide), writePair_sqBase (s.dev.unstage (.bar0 p) 0x10010) p v hen] at hexec
    have hlt : v.toNat / 4096 * 4096 < 2 ^ 64 := Nat.lt_of_le_of_lt (Nat.div_mul_le_self _ _) v.isLt
    exact ⟨_, hexec, rfl, (fld_setFld_same _ _ _ _).trans (Nat.mod_eq_of_lt hlt), rfl, unstage_staged _ _ _, rfl,
      fun f j h => fld_setFld_other _ _ h⟩

end Sys2Proof.Machine
end

section
/-! SUPPORT. Writes of a register that no rule of its own singles out, and the lock bits (00_scope R11, R13). -/

namespace Sys2Proof.Machine

open Sys2Proof

/-! ### Registers without a rule of their own -/

/-- The registers that `plainReg` leaves out of the writes by access code. -/
def ruledRegs : List Nat :=
  [0x10018, 0x1001C, 0x10028, 0x10080, 0x2002C, 0x2003C, 0x40000, 0x50004, 0x500B0, 0x50100, 0x50104, 0x9000C, 0x300044,
   0x500008, 0x600084, 0x800050, 0xC00010, 0xC00058, 0xC0005C, 0xD0000C, 0x100000C, 0x1000020, 0x1000028]

/-- What `plainReg` says of an offset. -/
theorem plainReg_spec {off : Nat} (h : plainReg off = true) :
    off % 4 = 0 ∧ isPair off = false ∧ (4 ≤ off → isPair (off - 4) = false) ∧ (fieldsOf allRows off).isEmpty = false ∧
    off ∉ ruledRegs ∧ ¬(0x300010 ≤ off ∧ off < 0x300020) := by
  simp only [plainReg, Bool.and_eq_true, beq_iff_eq, Bool.not_eq_true', ← Bool.not_eq_true, List.contains_iff_mem,
    decide_eq_true_eq] at h
  obtain ⟨⟨⟨⟨⟨⟨h4, hp⟩, hh⟩, he⟩, hr⟩, hs⟩, -⟩ := h
  exact ⟨h4, by simpa using hp, fun hle => (Bool.not_eq_true _).mp (fun hpair => hh ⟨hle, hpair⟩), by simpa using he, hr, hs⟩

/-- Such a register is written by its access codes; what may follow is a reserve of read slots written (R265). -/
theorem writeReg_plain (d : Dev) (p : Nat) {off : Nat} (h : plainReg off = true) (hheld : d.writeHeld p off = none) (v : W32) :
    d.writeReg p off v = (d.writeFields p off v.toNat).writeAfter p off (d.fld F.TIM_CTRL_SRC 0) := by
  obtain ⟨-, -, -, hne, hr, hs⟩ := plainReg_spec h
  simp only [ruledRegs, List.mem_cons, List.not_mem_nil, or_false, not_or] at hr
  simp only [Dev.writeReg, hne, Bool.false_eq_true, if_false, hheld, hr, hs, false_or]

theorem writeAfter_plain (d : Dev) (p src : Nat) {off : Nat} (h : plainReg off = true) (hne : off ≠ 0x100004) :
    d.writeAfter p off src = d := by
  obtain ⟨-, -, -, -, hr, -⟩ := plainReg_spec h
  simp only [ruledRegs, List.mem_cons, List.not_mem_nil, or_false, not_or] at hr
  simp only [Dev.writeAfter, hr, hne, if_false, false_and]

/-- REG_WRITE and LOCK_SET of such a register at a BAR0 that answers. -/
theorem regWrite_plain {d : Dev} {p off : Nat} (hup : d.bar0Up p = true) (h : plainReg off = true)
    (hheld : d.writeHeld p off = none) (v : W32) : d.regWrite (.bar0 p) off 4 (v.zeroExtend 64) false =
      (d.writeFields p off v.toNat).writeAfter p off (d.fld F.TIM_CTRL_SRC 0) := by
  obtain ⟨ho, hp, hh, -⟩ := plainReg_spec h
  rw [regWrite_word hup ho, writeBar0_single d p hp hh, writeReg_plain d p h hheld]

/-! ### Requests that go on leave the registers -/

@[simp] theorem atcUse_regs (d : Dev) (p : Nat) (k : FnKind) (pa : Option Nat) (a : Nat) : (d.atcUse p k pa a).regs = d.regs := by
  unfold Dev.atcUse; dsimp only; split <;> rfl

@[simp] theorem issueOne_regs (d : Dev) (r : ReadReq) : (d.issueOne r).regs = d.regs := by
  unfold Dev.issueOne; dsimp only; split <;> simp [Dev.occupy]

@[simp] theorem serveWaiting_regs (d : Dev) (p : Nat) : (d.serveWaiting p).regs = d.regs := by
  unfold Dev.serveWaiting; simp [foldl_keep Dev.regs Dev.issueOne issueOne_regs]

/-! ### The lock bits (R13) -/

/-- The registers of the lock bits: every lock bit is the last field of its register, W1S, one bit, one for the device. -/
theorem lockBit_spec {off : Nat} {l : Fld} (h : lockOf off = some l) (ho : l.off = off) :
    (∃ fs, fieldsOf allRows off = fs ++ [l]) ∧ l.acc = .w1s ∧ l.w = 1 ∧ l.kept ≠ .f ∧
    off ∈ [0x30004, 0x100004, 0x200004, 0x300004, 0x600004, 0xC00008, 0xD00004, 0xE00004] := by
  have hl : l ∈ [F.PWR_CTRL_LOCK, F.EPX_TAGCFG_LOCK, F.SKD_CTRL_LOCK, F.BKR_CTRL_LOCK, F.FLU_SHAPE_LOCK, F.MEM_CTRL_LOCK,
      F.CRD_CTRL_LOCK, F.NVE_CTRL_LOCK] := by
    unfold lockOf at h
    dsimp only at h
    repeat' split at h
    all_goals simp_all
  simp only [List.mem_cons, List.not_mem_nil, or_false] at hl
  rcases hl with rfl | rfl | rfl | rfl | rfl | rfl | rfl | rfl <;> subst ho <;>
    exact ⟨List.getLast?_eq_some_iff.mp (by decide), rfl, rfl, by decide, by decide⟩

theorem instOf_lockBit (d : Dev) (p : Nat) {off : Nat} {l : Fld} (h : lockOf off = some l) (ho : l.off = off) :
    d.instOf p l = some 0 := by
  obtain ⟨-, -, -, hk, hm⟩ := lockBit_spec h ho
  simp only [List.mem_cons, List.not_mem_nil, or_false] at hm
  rcases hm with hm | hm | hm | hm | hm | hm | hm | hm <;> simp [Dev.instOf, ho, hm, hk]

/-- A written lock bit stands. -/
theorem flag_writeFld_lockBit (d : Dev) (p : Nat) (lk : Bool) {off : Nat} {l : Fld} (h : lockOf off = some l) (ho : l.off = off) :
    (d.writeFld p lk l 1).flag l 0 = true := by
  obtain ⟨-, ha, hw, -⟩ := lockBit_spec h ho
  have hset : d.writeFld p lk l 1 = d.setFld l 0 (d.fld l 0 ||| 1) := by simp [Dev.writeFld, instOf_lockBit d p h ho, ha]
  have hodd : (d.fld l 0 ||| 1) % 2 = 1 := by simp [Nat.or_mod_two_eq_one]
  simp [hset, Dev.flag, hw, hodd]

theorem flag_writeFields_lockBit (d : Dev) (p v : Nat) {off : Nat} {l : Fld} (h : lockOf off = some l) (ho : l.off = off)
    (hv : bit v l.lo = true) : (d.writeFields p off v).flag l 0 = true := by
  obtain ⟨⟨fs, hfs⟩, -, hw, -⟩ := lockBit_spec h ho
  have hbit : bits v l.lo l.w = 1 := by simpa [bits, bit, hw] using hv
  rw [Dev.writeFields, hfs, List.foldl_append, List.foldl_cons, List.foldl_nil, hbit]
  exact flag_writeFld_lockBit _ _ _ h ho

theorem writeAfter_lock_regs (d : Dev) (p src : Nat) {off : Nat} (h : plainReg off = true) :
    (d.writeAfter p off src).regs = d.regs := by
  by_cases he : off = 0x100004
  · subst he
    exact foldl_keep Dev.regs Dev.serveWaiting serveWaiting_regs _ d
  · rw [writeAfter_plain d p src h he]

theorem locked_iff_flag (d : Dev) {off : Nat} {l : Fld} (h : lockOf off = some l) : d.locked off = d.flag l 0 := by
  simp [Dev.locked, h]

/-- A write of RWL fields in a locked block is counted and changes none of them. -/
theorem writeFields_locked (d : Dev) (p v : Nat) {off : Nat} (hl : d.locked off = true) (hne : fieldsOf allRows off ≠ [])
    (hall : (fieldsOf allRows off).all (fun f => f.acc == .rwl) = true) : d.writeFields p off v = d.count 0x001 := by
  have hkeep : ∀ (fs : List Fld) (e : Dev), fs.all (fun f => f.acc == .rwl) = true →
      fs.foldl (fun d f => d.writeFld p true f (bits v f.lo f.w)) e = e := by
    intro fs
    induction fs with
    | nil => exact fun _ _ => rfl
    | cons f fs ih =>
      intro e h
      obtain ⟨hf, hfs⟩ := by simpa only [List.all_cons, Bool.and_eq_true, beq_iff_eq] using h
      have hsame : e.writeFld p true f (bits v f.lo f.w) = e := by
        unfold Dev.writeFld
        split
        · rfl
        · simp [hf]
      rw [List.foldl_cons, hsame, ih e hfs]
  have hany : (fieldsOf allRows off).any (fun f => f.acc == .rwl) = true := by
    obtain ⟨f, hf⟩ := List.exists_mem_of_ne_nil _ hne
    exact List.any_eq_true.mpr ⟨f, hf, List.all_eq_true.mp hall f hf⟩
  rw [Dev.writeFields, hl, hkeep _ _ hall, Dev.countLocked, hl, hany, Bool.and_self, if_pos rfl]

/-- Settles O4: LOCK_SET is a register write; the lock bit stands after it, and a locked register keeps its RWL fields. -/
theorem lockWriteSetsTheLock : Obligations.LockWriteSetsTheLock := by
  refine ⟨fun s via off v => rfl, fun s p off v l hup hl ho hplain hv hheld => ?_, fun s p off v hup hplain hheld hlk hall => ?_⟩
  · have hexec := exec_lockSet (.bar0 p) off v s
    rw [regWrite_plain hup hplain hheld] at hexec
    refine ⟨_, hexec, rfl, ?_⟩
    rw [locked_iff_flag _ hl, flag_congr (writeAfter_lock_regs _ p _ hplain)]
    exact flag_writeFields_lockBit s.dev p v.toNat hl ho hv
  · have hne : fieldsOf allRows off ≠ [] := by simpa using (plainReg_spec hplain).2.2.2.1
    have hoff : off ≠ 0x100004 := by rintro rfl; exact absurd hall (by decide)
    rw [exec_lockSet, regWrite_plain hup hplain hheld, writeAfter_plain _ p _ hplain hoff, writeFields_locked s.dev p _ hlk hne hall]

/-! ### A write of EPX_TAGCFG lets waiting reads go on (R265) -/

/-- A read of the device itself at port 0. -/
def waitingRead : ReadReq := ⟨0, .pf0, none, .buffer, 0x1000, 64, none⟩

/-- A running device without reserved read slots, where that read waits for a slot. -/
def waitingState : State :=
  ⟨{ Dev.init with
    regs := [(fldKey F.EPX_TAGCFG_RSV 0, ⟨0, 0, .w⟩)]
    scaler := { Dev.init.scaler with boot := .running }
    ports := [(0, { Port.init with waiting := [waitingRead] })] }, []⟩

/-- A write of EPX_TAGCFG that reserves slots puts the waiting read into one, and the read leaves the device. -/
theorem tagcfgWrite_issues_waitingRead :
    (waitingState.dev.regWrite (.bar0 0) 0x100004 4 16 false).out = [.read waitingRead 0 50000] := by decide

/-- Refutes O3: EPX_TAGCFG is plain by `plainReg`, and a write of it does more than its access codes say: a read that waits
for a slot is issued. -/
theorem not_registerWriteActsByAccessCode : ¬ Obligations.RegisterWriteActsByAccessCode := by
  intro h
  obtain ⟨t, hexec, -, -, -, hframe, -⟩ := h waitingState 0 0x100004 16 F.EPX_TAGCFG_LOCK 0 (by decide) (by decide) (by decide)
    (by decide) (by decide) (by decide) (by decide) (by decide) (by decide)
  rw [exec_regWrite] at hexec
  have hout : t.dev.out = waitingState.dev.out := by rw [hframe]
  have hread := tagcfgWrite_issues_waitingRead
  rw [← Host.Outcome.next.inj hexec] at hout
  exact absurd (hread.symm.trans hout) (by decide)

end Sys2Proof.Machine
end

section
/-! SUPPORT. Served commands of firmware: what taking the entry leaves, and the reply of each command (12_firmware_commands). -/

namespace Sys2Proof.Machine

open Sys2Proof

/-! ### Tables filled entry by entry -/

/-- A number that no entry names reads as before. -/
theorem tblGet_foldl_put_other {α β : Type} (key : β → Nat) (val : β → α) (l : List β) (t : Tbl α) (n : Nat)
    (h : ∀ p ∈ l, n ≠ key p) : tblGet (l.foldl (fun t p => tblPut t (key p) (val p)) t) n = tblGet t n := by
  induction l generalizing t with
  | nil => rfl
  | cons p l ih =>
    obtain ⟨hp, hl⟩ := List.forall_mem_cons.mp h
    rw [List.foldl_cons, ih _ hl, tblGet_put_other t (val p) hp]

/-- A number that entries name reads as the value on which they agree. -/
theorem tblGet_foldl_put_mem {α β : Type} (key : β → Nat) (val : β → α) (l : List β) (t : Tbl α) (n : Nat) (v : α)
    (hv : ∀ p ∈ l, key p = n → val p = v) (hn : tblGet t n = some v ∨ ∃ p ∈ l, key p = n) :
    tblGet (l.foldl (fun t p => tblPut t (key p) (val p)) t) n = some v := by
  induction l generalizing t with
  | nil => simpa using hn
  | cons p l ih =>
    obtain ⟨hp, hl⟩ := List.forall_mem_cons.mp hv
    refine ih _ hl ?_
    by_cases hk : key p = n
    · exact .inl (by simp [hk, hp hk])
    · simp only [tblGet_put_other t (val p) (Ne.symm hk)]
      refine hn.imp id fun ⟨q, hq, hqn⟩ => ⟨q, (List.mem_cons.mp hq).resolve_left ?_, hqn⟩
      rintro rfl
      exact hk hqn

/-! ### Taking the entry of a command leaves everything but the rings -/

/-- Whatever does not look at the rings reads the same after the entry was taken. -/
theorem takeEntry_keeps {α : Type} (g : Dev → α)
    (hg : ∀ (e : Dev) (r : Tbl CmdRing), g { e with scaler := { e.scaler with rings := r } } = g e) (d : Dev) (c : Cmd) (op : Nat) :
    g (d.takeEntry c op) = g d := by
  rw [takeEntry_eq]; exact hg _ _

section TakeEntry

variable (d : Dev) (c : Cmd) (op : Nat)

@[simp] theorem takeEntry_fld (f : Fld) (i : Nat) : (d.takeEntry c op).fld f i = d.fld f i :=
  takeEntry_keeps (fun d => d.fld f i) (fun _ _ => rfl) d c op
@[simp] theorem takeEntry_node : (d.takeEntry c op).node = d.node := takeEntry_fld d c op _ _
@[simp] theorem takeEntry_emergency : (d.takeEntry c op).emergency = d.emergency :=
  takeEntry_keeps Dev.emergency (fun _ _ => rfl) d c op
@[simp] theorem takeEntry_mem : (d.takeEntry c op).mem = d.mem := takeEntry_keeps Dev.mem (fun _ _ => rfl) d c op
@[simp] theorem takeEntry_kerf : (d.takeEntry c op).kerf = d.kerf := takeEntry_keeps Dev.kerf (fun _ _ => rfl) d c op
@[simp] theorem takeEntry_core (k : Nat) : (d.takeEntry c op).core k = d.core k :=
  takeEntry_keeps (fun d => d.core k) (fun _ _ => rfl) d c op
@[simp] theorem takeEntry_fwCore (k : Nat) : (d.takeEntry c op).fwCore k = d.fwCore k :=
  takeEntry_keeps (fun d => d.fwCore k) (fun _ _ => rfl) d c op
@[simp] theorem takeEntry_checkImage (g : FwImage) : (d.takeEntry c op).checkImage g = d.checkImage g :=
  takeEntry_keeps (fun d => d.checkImage g) (fun _ _ => rfl) d c op
@[simp] theorem takeEntry_agreed : (d.takeEntry c op).scaler.agreed = d.scaler.agreed :=
  takeEntry_keeps (fun d => d.scaler.agreed) (fun _ _ => rfl) d c op
@[simp] theorem takeEntry_boot : (d.takeEntry c op).scaler.boot = d.scaler.boot :=
  takeEntry_keeps (fun d => d.scaler.boot) (fun _ _ => rfl) d c op
@[simp] theorem takeEntry_lease : (d.takeEntry c op).scaler.lease = d.scaler.lease :=
  takeEntry_keeps (fun d => d.scaler.lease) (fun _ _ => rfl) d c op
@[simp] theorem takeEntry_staged : (d.takeEntry c op).scaler.staged = d.scaler.staged :=
  takeEntry_keeps (fun d => d.scaler.staged) (fun _ _ => rfl) d c op
@[simp] theorem takeEntry_running : (d.takeEntry c op).scaler.running = d.scaler.running :=
  takeEntry_keeps (fun d => d.scaler.running) (fun _ _ => rfl) d c op
@[simp] theorem takeEntry_activations : (d.takeEntry c op).scaler.activations = d.scaler.activations :=
  takeEntry_keeps (fun d => d.scaler.activations) (fun _ _ => rfl) d c op
@[simp] theorem takeEntry_inUse : (d.takeEntry c op).scaler.inUse = d.scaler.inUse :=
  takeEntry_keeps (fun d => d.scaler.inUse) (fun _ _ => rfl) d c op
@[simp] theorem takeEntry_flash : (d.takeEntry c op).scaler.flash = d.scaler.flash :=
  takeEntry_keeps (fun d => d.scaler.flash) (fun _ _ => rfl) d c op
@[simp] theorem takeEntry_dirGen : (d.takeEntry c op).scaler.dirGen = d.scaler.dirGen :=
  takeEntry_keeps (fun d => d.scaler.dirGen) (fun _ _ => rfl) d c op

end TakeEntry

/-! ### The answer of a served command -/

/-- A served command completes with the reply of its own rules. -/
theorem command_reply {d : Dev} {c : Cmd} {op : Nat} {ps : List CmdPath} (h : Served d c op ps) (body : Owner → Dev → Reply)
    {r : Reply} (hr : body (d.ownerOf c op) (d.takeEntry c op) = r)
    (hrings : r.dev.scaler.rings = (d.takeEntry c op).scaler.rings) (hs : r.status ≠ stHeld) :
    d.command c op ps body = replied r.dev c op r.status r.reason r.result := by
  subst hr; exact command_served h body hrings hs

/-! ### NEGOTIATE (R18, R376) -/

theorem versionOk_iff (own v : Nat) : versionOk own v = true ↔ v / 256 = own / 256 ∧ v % 256 ≤ own % 256 := by
  simp [versionOk]

/-- The pairs that the device accepts (Table 12.9). -/
theorem pairOk_iff (p : Nat × Nat) :
    pairOk p = true ↔ (p.1 = 1 ∧ p.2 = 0x0700) ∨ (2 ≤ p.1 ∧ p.1 ≤ 8 ∧ p.2 = 0x0100) := by
  simp only [pairOk, ifaceVersion, Bool.and_eq_true, bne_iff_ne, versionOk_iff]
  split
  · omega
  · split <;> omega

/-- The pairs of an entry that are not empty. -/
def usedPairs (c : Cmd) : List (Nat × Nat) := (pairsOf c).filter (fun p => p != (0, 0))

/-- The agreements after a NEGOTIATE. -/
def agreedBy (c : Cmd) (t : Tbl (BitVec 16)) : Tbl (BitVec 16) :=
  ((usedPairs c).filter pairOk).foldl (fun t p => tblPut t (c.iss.agreeKey * 16 + p.1) (BitVec.ofNat 16 p.2)) t

/-- An accepted pair is agreed: two accepted pairs of one interface name one version. -/
theorem agreedBy_accepted (c : Cmd) (t : Tbl (BitVec 16)) {p : Nat × Nat} (hp : p ∈ usedPairs c) (hok : pairOk p = true) :
    tblGet (agreedBy c t) (c.iss.agreeKey * 16 + p.1) = some (BitVec.ofNat 16 p.2) := by
  refine tblGet_foldl_put_mem _ _ _ t _ _ (fun q hq hkey => ?_) (.inr ⟨p, List.mem_filter.mpr ⟨hp, hok⟩, rfl⟩)
  have hq := (pairOk_iff q).mp (List.mem_filter.mp hq).2
  have hp := (pairOk_iff p).mp hok
  have hver : q.2 = p.2 := by omega
  rw [hver]

theorem agreedBy_other (c : Cmd) (t : Tbl (BitVec 16)) (n : Nat)
    (h : ∀ p ∈ usedPairs c, pairOk p = true → n ≠ c.iss.agreeKey * 16 + p.1) : tblGet (agreedBy c t) n = tblGet t n :=
  tblGet_foldl_put_other _ _ _ t n (fun p hp => h p (List.mem_filter.mp hp).1 (List.mem_filter.mp hp).2)

/-- The result of NEGOTIATE: the device's versions and the accepted pairs. -/
def negotiateResult (c : Cmd) : List Byte :=
  ((pairsOf c).map (fun p => le 2 (ifaceVersion p.1))).flatten ++ le 2 (packBits 1 ((pairsOf c).map (fun p => b2n (pairOk p))))

theorem negotiateResult_length (c : Cmd) : (negotiateResult c).length = 26 := by
  rfl

theorem negotiate_reply (c : Cmd) (d : Dev) : Dev.negotiate c d =
    ⟨{ d with scaler := { d.scaler with agreed := agreedBy c d.scaler.agreed } },
      if (usedPairs c).all pairOk then stOk else stVersion, 0, negotiateResult c⟩ := by
  unfold Dev.negotiate
  dsimp only
  split <;> rename_i h
  · rw [if_pos (show (usedPairs c).all pairOk = true from h)]; rfl
  · rw [if_neg (show ¬(usedPairs c).all pairOk = true from h)]; rfl

end Sys2Proof.Machine
end

section
/-! SUPPORT. What a served command of firmware answers, reply by reply (12_firmware_commands). -/

namespace Sys2Proof.Machine

open Sys2Proof

/-! ### Commands by their reply -/

/-- The state after the command `op` of an issuer was answered. -/
def answered (s : State) (c : Cmd) (op : Nat) (r : Reply) : State :=
  ⟨replied r.dev c op r.status r.reason r.result, s.pending⟩

section Served

variable {s : State} {c : Cmd} {op : Nat} {ps : List CmdPath} (h : Served s.dev c op ps)

include h in
/-- A served command answers with the reply of its rules. -/
theorem served_answers (body : Owner → Dev → Reply) {r : Reply}
    (hr : body (s.dev.ownerOf c op) (s.dev.takeEntry c op) = r)
    (hrings : r.dev.scaler.rings = (s.dev.takeEntry c op).scaler.rings) (hs : r.status ≠ stHeld) :
    s.onDev (fun d => d.command c op ps body) = .next (answered s c op r) :=
  congrArg (fun d => Host.Outcome.next (State.mk d s.pending)) (command_reply h body hr hrings hs)

end Served

/-! ### IDENTIFY and POWER_CAP (R377, R421) -/

theorem identify_reply (c : Cmd) (d : Dev) (hz : zeroFrom c 0 = true) : Dev.identify c d =
    .ok d (le 2 0x0700 ++ le 1 0xB0 ++ le 2 d.node ++ le 1 (d.scaler.lease.lead.num + 2 * d.scaler.boot.code) ++ zeros 2 ++
      le 4 d.scaler.lease.epoch.toNat ++ le 2 (d.fld F.SCL_BOOT_ERR_STATUS 0)) := by
  simp [Dev.identify, hz]

theorem powerCap_refused (c : Cmd) (d : Dev)
    (h : c.w 0 < 250 ∨ c.w 0 > d.fld F.PWR_LIMIT_CEILING 0 ∨ zeroFrom c 1 = false) : Dev.powerCap c d = .refuse d rsBadField := by
  simp only [Dev.powerCap, Bool.not_eq_true', h, if_true]

theorem powerCap_ok (c : Cmd) (d : Dev) (hlo : 250 ≤ c.w 0) (hhi : c.w 0 ≤ d.fld F.PWR_LIMIT_CEILING 0)
    (hz : zeroFrom c 1 = true) : Dev.powerCap c d = .ok (d.setFld F.PWR_CTRL_CAP 0 (c.w 0)) [] := by
  have h : ¬(c.w 0 < 250 ∨ c.w 0 > d.fld F.PWR_LIMIT_CEILING 0 ∨ (!zeroFrom c 1) = true) := by simp [hz]; omega
  simp only [Dev.powerCap, h, if_false]

/-! ### IMAGE_LOAD (R364) -/

/-- The status of an image that fails its checks is a status of Table 12.7. -/
theorem checkImage_ne_held {d : Dev} {g : FwImage} {st : Nat} (h : d.checkImage g = some st) : st ≠ stHeld := by
  have hmem : st ∈ [stBadSig, stVersion, stRefused] := by
    unfold Dev.checkImage checkCopy at h
    dsimp only at h
    repeat' split at h
    all_goals simp_all
  simp only [List.mem_cons, List.not_mem_nil, or_false] at hmem
  rcases hmem with rfl | rfl | rfl <;> decide

/-- Staging an image changes the staged images, and the measurement of its kind (R364, Table 13.2). -/
theorem stageImage_eq (d : Dev) (g : FwImage) : d.stageImage g =
    { d with
      scaler := { d.scaler with staged := tblPut d.scaler.staged g.kind g }
      bark := { d.bark with meas := if g.kind ≤ 3 then tblPut d.bark.meas (8 + g.kind) g.body.digest else d.bark.meas } } := by
  unfold Dev.stageImage
  dsimp only
  split <;> rfl

theorem imageLoad_refused (c : Cmd) (img : Option FwImage) (d : Dev) (h : zeroFrom c 2 = false ∨ img = none) :
    Dev.imageLoad c img d = .refuse d rsBadField := by
  rcases h with h | rfl
  · simp [Dev.imageLoad, h]
  · simp [Dev.imageLoad]

theorem imageLoad_failed (c : Cmd) {g : FwImage} {d : Dev} {st : Nat} (hz : zeroFrom c 2 = true) (h : d.checkImage g = some st) :
    Dev.imageLoad c (some g) d = .fail d st (if st = stRefused then rsBadField else 0) := by
  simp [Dev.imageLoad, hz, h]

theorem imageLoad_ok (c : Cmd) {g : FwImage} {d : Dev} (hz : zeroFrom c 2 = true) (h : d.checkImage g = none) :
    Dev.imageLoad c (some g) d = .ok (d.stageImage g) [] := by
  simp [Dev.imageLoad, hz, h]

/-! ### FLASH_COMMIT (R362) -/

section FlashCommit

variable (c : Cmd) (o : Owner) (d : Dev) (hk : c.w 0 = 3 ∨ c.w 0 = 4) (hz : zeroFrom c 1 = true)

include hk hz

theorem flashCommit_field : ¬((c.w 0 ≠ 3 ∧ c.w 0 ≠ 4) ∨ (!zeroFrom c 1) = true) := by simp [hz]; omega

theorem flashCommit_wrongState (h : tblGet d.scaler.staged (c.w 0) = none ∨ d.scaler.inUse = none) :
    Dev.flashCommit c o d = .refuse d rsWrongState := by
  have hf := flashCommit_field c hk hz
  unfold Dev.flashCommit
  dsimp only
  rw [if_neg hf]
  split
  · simp_all
  · rfl

theorem flashCommit_staged {g : FwImage} {b : Bool} (hg : tblGet d.scaler.staged (c.w 0) = some g) (hb : d.scaler.inUse = some b) :
    Dev.flashCommit c o d = if d.scaler.flash.isSome then .fail d stBusy 0
      else .defer { d with scaler := { d.scaler with flash := some ⟨g.cfg, !b, some o, false⟩ } } := by
  have hf := flashCommit_field c hk hz
  simp only [Dev.flashCommit, if_neg hf, hg, hb]

end FlashCommit

/-! ### Cores and their firmware -/

@[simp] theorem core_setCore_same (d : Dev) (c : Nat) (k : Core) : (d.setCore c k).core c = k := by simp [Dev.core, Dev.setCore, tblGetD]

theorem core_setCore_other (d : Dev) {c n : Nat} (k : Core) (h : n ≠ c) : (d.setCore c k).core n = d.core n := by
  simp [Dev.core, Dev.setCore, tblGetD_put, h]

@[simp] theorem fwCore_modFw_same (d : Dev) (c : Nat) (f : FwCore → FwCore) : (d.modFw c f).fwCore c = f (d.fwCore c) := by
  simp [Dev.fwCore, Dev.modFw, tblGetD]

theorem fwCore_modFw_other (d : Dev) {c n : Nat} (f : FwCore → FwCore) (h : n ≠ c) : (d.modFw c f).fwCore n = d.fwCore n := by
  simp [Dev.fwCore, Dev.modFw, tblGetD_put, h]

/-! ### CORE_RESTART (R379) -/

theorem isSeq_iff (n : Nat) : isSeq n = true ↔ 0x80 ≤ n ∧ n < 0xC0 := by simp [isSeq]

/-- The cores with an image of a kind are no sequencer cores. -/
theorem coreKind_ne_zero_iff (n : Nat) : coreKind n ≠ 0 ↔ n < 0x80 ∨ (0xC0 ≤ n ∧ n < 0xCA) := by
  unfold coreKind
  repeat' split
  all_goals omega

theorem isSeq_eq_false_of_coreKind {n : Nat} (h : coreKind n ≠ 0) : isSeq n = false := by
  rw [coreKind_ne_zero_iff] at h
  rw [← Bool.not_eq_true, isSeq_iff]
  omega

section CoreRestart

variable {c : Cmd} (d : Dev) (hz : zeroFrom c 1 = true)

theorem coreRestart_badField (h : c.w 0 ≥ 256 ∨ (coreKind (c.w 0) = 0 ∧ isSeq (c.w 0) = false)) :
    Dev.coreRestart c d = .refuse d rsBadField := by
  unfold Dev.coreRestart
  dsimp only
  refine if_pos (h.imp id fun hk => .inr ⟨hk.1, by simp [hk.2]⟩)

include hz

theorem coreRestart_sequencer (h : isSeq (c.w 0) = true) : Dev.coreRestart c d = .refuse d rsNotPermitted := by
  have hlt := (isSeq_iff _).mp h
  have hn : ¬(c.w 0 ≥ 256 ∨ (!zeroFrom c 1) = true ∨ (coreKind (c.w 0) = 0 ∧ (!isSeq (c.w 0)) = true)) := by simp [hz, h]; omega
  unfold Dev.coreRestart
  dsimp only
  rw [if_neg hn, if_pos h]

theorem coreRestart_fields (hlt : c.w 0 < 256) (hk : coreKind (c.w 0) ≠ 0) : Dev.coreRestart c d =
    if coreKind (c.w 0) ≠ 3 ∧ (d.fwCore (c.w 0)).image.isNone then .refuse d rsWrongState
    else .ok ((d.modFw (c.w 0) (fun f => { f with crashes := [], stopped := false })).restartCore (c.w 0)) [] := by
  have hn : ¬(c.w 0 ≥ 256 ∨ (!zeroFrom c 1) = true ∨ (coreKind (c.w 0) = 0 ∧ (!isSeq (c.w 0)) = true)) := by simp [hz, hk]; omega
  unfold Dev.coreRestart
  dsimp only
  rw [if_neg hn, isSeq_eq_false_of_coreKind hk, if_neg Bool.false_ne_true]

end CoreRestart

@[simp] theorem countRestart_kerf (d : Dev) (c : Nat) : (d.countRestart c).kerf = d.kerf := rfl
@[simp] theorem countRestart_scaler (d : Dev) (c : Nat) : (d.countRestart c).scaler = d.scaler := rfl

theorem restartCore_core_same (d : Dev) (c : Nat) :
    (d.restartCore c).core c = { d.core c with state := .restarting, pre := none } := core_setCore_same d c _

theorem restartCore_core_other (d : Dev) {c n : Nat} (h : n ≠ c) : (d.restartCore c).core n = d.core n := core_setCore_other d _ h

/-! ### IMAGE_ACTIVATE (R380, R381) -/

/-- The core runs an image from its entry. -/
def RunsFromEntry (g : FwCode) (d : Dev) (k : Nat) : Prop :=
  (d.fwCore k).image = some g ∧ (d.core k).state = .running ∧ (d.core k).pc = g.entry % 2 ^ 19

theorem startCore_runs (d : Dev) (c : Nat) (g : FwCode) : RunsFromEntry g (d.startCore c g) c := by
  have hfw : (d.startCore c g).fwCore c = (d.modFw c (fun f => { f with image := some g })).fwCore c := rfl
  refine ⟨by rw [hfw, fwCore_modFw_same], ?_, ?_⟩ <;> simp [Dev.startCore, Dev.runCore]

theorem startCore_core_other (d : Dev) {c n : Nat} (g : FwCode) (h : n ≠ c) : (d.startCore c g).core n = d.core n :=
  core_setCore_other _ _ h

theorem startCore_keeps_running (d : Dev) (c : Nat) {n : Nat} {g : FwCode} (h : RunsFromEntry g d n) :
    RunsFromEntry g (d.startCore c g) n := by
  by_cases hn : n = c
  · subst hn; exact startCore_runs d n g
  · have hfw : (d.startCore c g).fwCore n = d.fwCore n :=
      fwCore_modFw_other d (fun f => { f with image := some g }) hn
    unfold RunsFromEntry at h ⊢
    rw [hfw, startCore_core_other d g hn]
    exact h

/-- Starting cores one after the other on an image: they run it, and nothing but cores changed. -/
theorem startCores_spec (g : FwCode) (cs : List Nat) (d : Dev) :
    let e := cs.foldl (fun d c => d.startCore c g) d
    e = { d with scaler := { d.scaler with cores := e.scaler.cores }, kerf := { d.kerf with cores := e.kerf.cores } } ∧
    (∀ k ∈ cs, RunsFromEntry g e k) ∧ (∀ k ∉ cs, e.core k = d.core k) ∧ (∀ k, RunsFromEntry g d k → RunsFromEntry g e k) := by
  induction cs generalizing d with
  | nil => exact ⟨rfl, fun _ h => absurd h List.not_mem_nil, fun _ _ => rfl, fun _ h => h⟩
  | cons c cs ih =>
    obtain ⟨hframe, hruns, hother, hkeeps⟩ := ih (d.startCore c g)
    refine ⟨hframe, fun k hk => ?_, fun k hk => ?_, fun k hk => hkeeps k (startCore_keeps_running d c hk)⟩
    · obtain rfl | hk := List.mem_cons.mp hk
      · exact hkeeps k (startCore_runs d k g)
      · exact hruns k hk
    · obtain ⟨hne, hk⟩ := not_or.mp (mt List.mem_cons.mpr hk)
      rw [List.foldl_cons, hother k hk, startCore_core_other d g hne]

/-- HOST_WAIT may end; nothing else changes. -/
theorem bootRunning_eq (d : Dev) : d.bootRunning = { d with scaler := { d.scaler with boot := d.bootRunning.scaler.boot } } := by
  unfold Dev.bootRunning
  split <;> rfl

section ImageActivate

variable {c : Cmd} (o : Owner) (d : Dev) (hk : 1 ≤ c.w 0 ∧ c.w 0 ≤ 3) (hz : zeroFrom c 1 = true)

include hk hz

theorem imageActivate_notStaged (h : tblGet d.scaler.staged (c.w 0) = none) : Dev.imageActivate c o d = .refuse d rsWrongState := by
  have hf : ¬(c.w 0 = 0 ∨ c.w 0 > 3 ∨ (!zeroFrom c 1) = true) := by simp [hz]; omega
  simp only [Dev.imageActivate, if_neg hf, h]

variable {g : FwImage} (hg : tblGet d.scaler.staged (c.w 0) = some g)

include hg

/-- What IMAGE_ACTIVATE does with a staged image. -/
theorem imageActivate_staged : Dev.imageActivate c o d =
    if (∃ a ∈ d.scaler.activations, a.kind = c.w 0) ∨ (∃ k ∈ coresOf (c.w 0), (d.core k).state = .restarting) then .fail d stBusy 0
    else if d.emergency then .defer { d with scaler := { d.scaler with
      activations := d.scaler.activations ++ [⟨c.w 0, g.body, some o, [], true⟩] } }
    else
      let e := d.activationStart ⟨c.w 0, g.body, none, [], true⟩
      if e.scaler.activations.any (fun a => a.kind == c.w 0) then .defer { e with scaler := { e.scaler with
        activations := e.scaler.activations.map (fun b => if b.kind = c.w 0 then { b with owner := some o } else b) } }
      else .ok e [] := by
  have hf : ¬(c.w 0 = 0 ∨ c.w 0 > 3 ∨ (!zeroFrom c 1) = true) := by simp [hz]; omega
  simp only [Dev.imageActivate, if_neg hf, hg, List.any_eq_true, beq_iff_eq]

end ImageActivate

/-- The device after an activation of idle cores: they run the image, which is measured, and the directory is rewritten. -/
theorem activationStart_idle (d : Dev) {a : Activation} (hk : a.kind ≠ 3) (ho : a.owner = none)
    (hidle : ∀ k ∈ coresOf a.kind, (d.fwCore k).image = none ∧ (d.fwCore k).stopped = false) :
    let e := d.activationStart a
    e.scaler.rings = d.scaler.rings ∧ e.scaler.lease = d.scaler.lease ∧
    e.scaler.activations = d.scaler.activations.filter (fun b => b.kind != a.kind) ∧
    tblGet e.scaler.running a.kind = some a.image ∧ e.scaler.dirGen = d.scaler.dirGen + 1 ∧
    (∀ k ∈ coresOf a.kind, RunsFromEntry a.image e k) ∧ (∀ k ∉ coresOf a.kind, e.core k = d.core k) := by
  have horder : (d.activationOrder a.kind).filter (fun c => !(d.fwCore c).stopped) = coresOf a.kind := by
    rw [Dev.activationOrder, if_neg hk, List.filter_eq_self]
    intro k hm; simp [(hidle k hm).2]
  have hidles : (coresOf a.kind).filter (fun c => (d.fwCore c).image.isNone) = coresOf a.kind := by
    rw [List.filter_eq_self]
    intro k hm; simp [(hidle k hm).1]
  have hnone : (coresOf a.kind).filter (fun c => !(coresOf a.kind).contains c) = [] := by
    simp [List.filter_eq_nil_iff]
  have hstart : d.activationStart a =
      ((coresOf a.kind).foldl (fun d c => d.startCore c a.image) d).activationDone { a with todo := [], deferred := false } := by
    unfold Dev.activationStart
    dsimp only
    rw [horder, if_neg hk, hidles, hnone]
    rfl
  obtain ⟨hframe, hruns, hother, -⟩ := startCores_spec a.image (coresOf a.kind) d
  dsimp only at hframe hruns hother ⊢
  rw [hstart]
  generalize (coresOf a.kind).foldl (fun d c => d.startCore c a.image) d = e at hframe hruns hother
  have hscaler : e.scaler = { d.scaler with cores := e.scaler.cores } := congrArg Dev.scaler hframe
  have hrings : e.scaler.rings = d.scaler.rings := by rw [hscaler]
  have hlease : e.scaler.lease = d.scaler.lease := by rw [hscaler]
  have hact : e.scaler.activations = d.scaler.activations := by rw [hscaler]
  have hgen : e.scaler.dirGen = d.scaler.dirGen := by rw [hscaler]
  have hdone : e.activationDone { a with todo := [], deferred := false } =
      ((({ e with scaler := { e.scaler with
        running := tblPut e.scaler.running a.kind a.image
        activations := e.scaler.activations.filter (fun b => b.kind != a.kind) } } : Dev).measure
          (5 + a.kind) a.image.digest).rewriteDir).bootRunning := by
    simp only [Dev.activationDone, if_neg hk, ho]
  rw [hdone, bootRunning_eq]
  exact ⟨hrings, hlease, congrArg (List.filter (fun b : Activation => b.kind != a.kind)) hact, tblGet_put_same _ _ _,
    congrArg (· + 1) hgen, hruns, hother⟩

end Sys2Proof.Machine
end

section
/-! SUPPORT. The command rings of PF0, the mailbox and the lead lease (12_firmware_commands R368 to R370, R373, R383). -/

namespace Sys2Proof.Machine

open Sys2Proof

/-! ### Requests of the device touch the ports and the outputs alone -/

/-- Between the two devices only ports and outputs may differ. -/
def SamePastPorts (d e : Dev) : Prop := e = { d with ports := e.ports, out := e.out }

theorem SamePastPorts.refl (d : Dev) : SamePastPorts d d := rfl

theorem SamePastPorts.trans {d e f : Dev} (h : SamePastPorts d e) (g : SamePastPorts e f) : SamePastPorts d f := by
  unfold SamePastPorts at *
  rw [g, h]

theorem SamePastPorts.foldl {α : Type} {f : Dev → α → Dev} (h : ∀ d x, SamePastPorts d (f d x)) (l : List α) (d : Dev) :
    SamePastPorts d (l.foldl f d) := by
  induction l generalizing d with
  | nil => exact .refl d
  | cons x l ih => exact (h d x).trans (ih (f d x))

theorem SamePastPorts.regs {d e : Dev} (h : SamePastPorts d e) : e.regs = d.regs := by rw [h]
theorem SamePastPorts.scaler {d e : Dev} (h : SamePastPorts d e) : e.scaler = d.scaler := by rw [h]
theorem SamePastPorts.mem {d e : Dev} (h : SamePastPorts d e) : e.mem = d.mem := by rw [h]

theorem atcUse_same (d : Dev) (p : Nat) (k : FnKind) (pa : Option Nat) (a : Nat) : SamePastPorts d (d.atcUse p k pa a) := by
  unfold Dev.atcUse
  dsimp only
  split <;> rfl

theorem issueOne_same (d : Dev) (r : ReadReq) : SamePastPorts d (d.issueOne r) := by
  refine (atcUse_same d r.port r.kind (d.pasidOf r.slice) r.addr).trans ?_
  unfold Dev.issueOne
  dsimp only
  split <;> rfl

theorem issue_same (d : Dev) (r : ReadReq) : SamePastPorts d (d.issue r) := by
  unfold Dev.issue
  split
  · rfl
  · split
    · rfl
    · exact .foldl issueOne_same _ d

/-! ### Keys of fields -/

/-- Fields of different places have different keys. -/
theorem fldKey_ne {f g : Fld} {i j : Nat} (h : f.off * 64 + f.lo ≠ g.off * 64 + g.lo) (hi : i < 4194304) (hj : j < 4194304) :
    fldKey f i ≠ fldKey g j := by
  unfold fldKey
  omega

/-! ### The rings of a PF0 -/

section Rings

variable {d : Dev} {p : Nat}

theorem port_lt_of_viaIssuer {i : Issuer} (hv : d.viaIssuer (.bar0 p) = some i) : p < 4 := by
  unfold Dev.viaIssuer at hv
  dsimp only at hv
  split at hv
  · rename_i h; exact h.1
  · cases hv

theorem sqTail_lost (hv : d.viaIssuer (.bar0 p) = none) (val : W32) (fs : List Fetch) : d.sqTail (.bar0 p) val fs = d := by
  simp [Dev.sqTail, hv, Dev.viaLost]
theorem cqHead_lost (hv : d.viaIssuer (.bar0 p) = none) (val : W32) : d.cqHead (.bar0 p) val = d := by
  simp [Dev.cqHead, hv, Dev.viaLost]
theorem sqEnable_lost (hv : d.viaIssuer (.bar0 p) = none) (val : W32) : d.sqEnable (.bar0 p) val = d := by
  simp [Dev.sqEnable, hv, Dev.viaLost]
theorem mboxGo_lost (hv : d.viaIssuer (.bar0 p) = none) : d.mboxGo p = d := by
  simp [Dev.mboxGo, hv]

@[simp] theorem cmdRing_setFld (f : Fld) (i v : Nat) (k : Issuer) : (d.setFld f i v).cmdRing k = d.cmdRing k := rfl

/-- Ring registers of a PF0 with different offsets or bits. -/
theorem ringKey_ne {f g : Fld} (hp : p < 4) (h : f.off * 64 + f.lo ≠ g.off * 64 + g.lo) : fldKey f p ≠ fldKey g p :=
  fldKey_ne h (by omega) (by omega)

theorem bits_low16 (n : Nat) : bits n 0 16 = n % 65536 := by simp [bits]

/-! ### SQ_TAIL written (R373) -/

/-- A ring of a PF0 after `n` fetches from where it stood. -/
def fetchedRing (r : CmdRing) (depth : Nat) (fs : List Fetch) (n : Nat) : CmdRing :=
  { r with
    fetchPos := (r.fetchPos + n) % 65536
    waiting := r.waiting ++ (List.range n).map (fun k => ⟨(r.fetchPos + k) % 65536 % depth, fs.getD k .failed⟩) }

/-- A fetch puts what it delivers behind the waiting entries, and reads host memory. -/
theorem fetchEntry_pf0 (d : Dev) (p pos : Nat) (f : Fetch) : ∃ e, SamePastPorts d e ∧ d.fetchEntry (.pf0 p) pos f =
    e.setCmdRing (.pf0 p) { (d.cmdRing (.pf0 p)) with
      fetchPos := (pos + 1) % 65536
      waiting := (d.cmdRing (.pf0 p)).waiting ++ [⟨pos % d.ringDepth (.pf0 p), f⟩] } :=
  ⟨_, issue_same d _, rfl⟩

theorem ringDepth_congr {d e : Dev} (h : e.regs = d.regs) (p : Nat) : e.ringDepth (.pf0 p) = d.ringDepth (.pf0 p) := by
  simp only [Dev.ringDepth, fld_congr h]

/-- Fetching `n` entries, one after the other. -/
theorem fetchEntries_pf0 (d : Dev) (p : Nat) (fs : List Fetch) (n : Nat) (hpos : (d.cmdRing (.pf0 p)).fetchPos < 65536) :
    let r := d.cmdRing (.pf0 p)
    let e := (List.range n).foldl (fun d k => d.fetchEntry (.pf0 p) ((r.fetchPos + k) % 65536) (fs.getD k .failed)) d
    e.cmdRing (.pf0 p) = fetchedRing r (d.ringDepth (.pf0 p)) fs n ∧ e.regs = d.regs ∧ e.mem = d.mem := by
  induction n with
  | zero => exact ⟨by simp [fetchedRing, Nat.mod_eq_of_lt hpos], rfl, rfl⟩
  | succ n ih =>
    obtain ⟨hring, hregs, hmem⟩ := ih
    dsimp only at hring hregs hmem ⊢
    rw [List.range_succ, List.foldl_append, List.foldl_cons, List.foldl_nil]
    generalize (List.range n).foldl _ d = e at hring hregs hmem ⊢
    obtain ⟨e', hsame, heq⟩ := fetchEntry_pf0 e p (((d.cmdRing (.pf0 p)).fetchPos + n) % 65536) (fs.getD n .failed)
    rw [heq]
    refine ⟨?_, hsame.regs.trans hregs, hsame.mem.trans hmem⟩
    have hnext : (((d.cmdRing (.pf0 p)).fetchPos + n) % 65536 + 1) % 65536 = ((d.cmdRing (.pf0 p)).fetchPos + (n + 1)) % 65536 := by
      omega
    rw [cmdRing_setCmdRing, hring, ringDepth_congr hregs p, hnext]
    simp [fetchedRing, List.range_succ]

/-- A quiet ring stays quiet when only entries of known opcodes come behind it. -/
theorem quietRing_fetched {r : CmdRing} {depth n : Nat} {fs : List Fetch} (hq : quietRing r = true) (hlen : fs.length = n)
    (hfs : ∀ f ∈ fs, ∃ op tag fl, f = .entry op tag fl ∧ opcodes.contains op.toNat = true) :
    quietRing (fetchedRing r depth fs n) = true := by
  cases hw : r.waiting with
  | cons w ws =>
    have hfront : ∃ rest, (fetchedRing r depth fs n).waiting = w :: rest := ⟨_, by rw [fetchedRing, hw]; rfl⟩
    obtain ⟨rest, hrest⟩ := hfront
    unfold quietRing at hq ⊢
    rw [hw] at hq
    rw [hrest]
    obtain ⟨ix, f⟩ := w
    cases f <;> exact hq
  | nil =>
    cases fs with
    | nil => subst hlen; simp [quietRing, fetchedRing, hw]
    | cons f fs =>
      obtain ⟨op, tag, fl, rfl, hop⟩ := hfs f List.mem_cons_self
      subst hlen
      simp only [quietRing, fetchedRing, hw, List.length_cons, List.range_succ_eq_map, List.map_cons, List.nil_append,
        List.getD_cons_zero]
      exact hop

variable (hv : d.viaIssuer (.bar0 p) = some (.pf0 p))

include hv in
theorem sqTail_pf0 (val : W32) (fs : List Fetch) : d.sqTail (.bar0 p) val fs =
    ((d.setFld F.SCL_SQ_TAIL_TAIL p (val.toNat % 65536)).fetchRing (.pf0 p) fs).pump (.pf0 p) 4096 := by
  simp only [Dev.sqTail, hv, bits_low16]

include hv in
theorem ringDepth_setTail (v : Nat) : (d.setFld F.SCL_SQ_TAIL_TAIL p v).ringDepth (.pf0 p) = d.ringDepth (.pf0 p) := by
  have hne : fldKey F.SCL_SQ_CTRL_LOG2 p ≠ fldKey F.SCL_SQ_TAIL_TAIL p := ringKey_ne (port_lt_of_viaIssuer hv) (by decide)
  simp only [Dev.ringDepth, fld_setFld_other d _ hne]

/-- The entries that a tail posts. -/
def posted (d : Dev) (p tail : Nat) : Nat := (tail % 65536 + 65536 - (d.cmdRing (.pf0 p)).fetchPos) % 65536

include hv in
/-- Which entries the fetch after a tail write takes: those posted, unless EN is 0 or more are posted than the ring holds. -/
theorem fetchRing_tail (tail : Nat) (fs : List Fetch) :
    let e := d.setFld F.SCL_SQ_TAIL_TAIL p (tail % 65536)
    e.fetchRing (.pf0 p) fs =
      if d.flag F.SCL_SQ_CTRL_EN p = false ∨ posted d p tail > d.ringDepth (.pf0 p) - 1 then e
      else (List.range (posted d p tail)).foldl
        (fun d' k => d'.fetchEntry (.pf0 p) (((d.cmdRing (.pf0 p)).fetchPos + k) % 65536) (fs.getD k .failed)) e := by
  intro e
  have hp := port_lt_of_viaIssuer hv
  have hen : e.ringEn (.pf0 p) = d.flag F.SCL_SQ_CTRL_EN p := flag_setFld_other d _ (ringKey_ne hp (by decide))
  have hdepth : e.ringDepth (.pf0 p) = d.ringDepth (.pf0 p) := ringDepth_setTail hv _
  have htail : e.ringTail (.pf0 p) = tail % 65536 := (fld_setFld_same d _ _ _).trans (Nat.mod_mod _ _)
  unfold Dev.fetchRing
  simp only [hen, hdepth, htail, Bool.not_eq_true', show e.cmdRing (.pf0 p) = d.cmdRing (.pf0 p) from rfl, posted]
  rfl

/-! ### SQ_CTRL written (R383) -/

/-- The fields of SQ_CTRL of a PF0 after a write: LOG2 does not change while EN is 1. -/
def sqCtrlWritten (d : Dev) (p : Nat) (val : W32) : Dev :=
  let d := d.setFld F.SCL_SQ_CTRL_VECTOR p (bits val.toNat 16 11)
  let e := if !d.flag F.SCL_SQ_CTRL_EN p then d.setFld F.SCL_SQ_CTRL_LOG2 p (bits val.toNat 1 4)
    else if bits val.toNat 1 4 ≠ d.fld F.SCL_SQ_CTRL_LOG2 p then d.count itSclDiscard else d
  e.setFlag F.SCL_SQ_CTRL_EN p (val.getLsbD 0)

include hv in
theorem sqEnable_pf0 (val : W32) : d.sqEnable (.bar0 p) val =
    if d.flag F.SCL_SQ_CTRL_EN p ≠ val.getLsbD 0 then (sqCtrlWritten d p val).resetRing (.pf0 p) else sqCtrlWritten d p val := by
  have hp := port_lt_of_viaIssuer hv
  have hen : (d.setFld F.SCL_SQ_CTRL_VECTOR p (bits val.toNat 16 11)).flag F.SCL_SQ_CTRL_EN p = d.flag F.SCL_SQ_CTRL_EN p :=
    flag_setFld_other d _ (ringKey_ne hp (by decide))
  simp only [Dev.sqEnable, hv, sqCtrlWritten, hen, bne_iff_ne]

theorem bits_mod (n lo w : Nat) : bits n lo w % 2 ^ w = bits n lo w := Nat.mod_mod _ _

/-- What each field of SQ_CTRL reads after the write, and what the write leaves. -/
theorem sqCtrlWritten_spec (d : Dev) {p : Nat} (hp : p < 4) (val : W32) :
    let e := sqCtrlWritten d p val
    e.flag F.SCL_SQ_CTRL_EN p = val.getLsbD 0 ∧ e.fld F.SCL_SQ_CTRL_VECTOR p = bits val.toNat 16 11 ∧
    (d.flag F.SCL_SQ_CTRL_EN p = false → e.fld F.SCL_SQ_CTRL_LOG2 p = bits val.toNat 1 4) ∧
    (d.flag F.SCL_SQ_CTRL_EN p = true → e.fld F.SCL_SQ_CTRL_LOG2 p = d.fld F.SCL_SQ_CTRL_LOG2 p) ∧
    e.scaler = d.scaler ∧ e.mem = d.mem := by
  have hve : fldKey F.SCL_SQ_CTRL_VECTOR p ≠ fldKey F.SCL_SQ_CTRL_EN p := ringKey_ne hp (by decide)
  have hvl : fldKey F.SCL_SQ_CTRL_VECTOR p ≠ fldKey F.SCL_SQ_CTRL_LOG2 p := ringKey_ne hp (by decide)
  have hle : fldKey F.SCL_SQ_CTRL_LOG2 p ≠ fldKey F.SCL_SQ_CTRL_EN p := ringKey_ne hp (by decide)
  have hvec : ∀ v, (d.setFld F.SCL_SQ_CTRL_VECTOR p v).fld F.SCL_SQ_CTRL_LOG2 p = d.fld F.SCL_SQ_CTRL_LOG2 p :=
    fun v => fld_setFld_other d v hvl.symm
  have hen : ∀ v, (d.setFld F.SCL_SQ_CTRL_VECTOR p v).flag F.SCL_SQ_CTRL_EN p = d.flag F.SCL_SQ_CTRL_EN p :=
    fun v => flag_setFld_other d v hve.symm
  have hvw : bits val.toNat 16 11 % 2 ^ F.SCL_SQ_CTRL_VECTOR.w = bits val.toNat 16 11 := bits_mod _ _ _
  have hlw : bits val.toNat 1 4 % 2 ^ F.SCL_SQ_CTRL_LOG2.w = bits val.toNat 1 4 := bits_mod _ _ _
  intro e
  refine ⟨flag_setFlag_same _ _ _ _ rfl, ?_⟩
  simp only [e, sqCtrlWritten, hen, fld_setFlag_other _ _ hve, fld_setFlag_other _ _ hle, setFlag_scaler, setFlag_mem]
  cases hwas : d.flag F.SCL_SQ_CTRL_EN p
  · simp only [Bool.not_false, if_true, fld_setFld_other _ _ hvl, fld_setFld_same, hvw, hlw, setFld_scaler, setFld_mem]
    simp
  · simp only [Bool.not_true, Bool.false_eq_true, if_false]
    split <;> simp [hvec, hvw]

/-! ### The mailbox (R383) -/

include hv in
/-- GO sends the entry of the mailbox words to the lead, once. -/
theorem mboxGo_pf0 : d.mboxGo p = if d.flag F.SCL_MBOX_CTRL_GO p then d else
    ((d.setFlag F.SCL_MBOX_CTRL_GO p true).setCmdRing (.mbox p) { (d.cmdRing (.mbox p)) with
      waiting := [⟨0, .entry (BitVec.ofNat 16 (fieldAt (d.mboxBytes p) 2 2)) (BitVec.ofNat 16 (fieldAt (d.mboxBytes p) 4 2))
        (BitVec.ofNat 16 (fieldAt (d.mboxBytes p) 6 2))⟩] }).pump (.mbox p) 1 := by
  simp only [Dev.mboxGo, hv, Option.isNone_some, Bool.false_eq_true, false_or]
  rfl

/-- The opcodes are words of 16 bits. -/
theorem toNat_opcode {n : Nat} (h : opcodes.contains n = true) : (BitVec.ofNat 16 n).toNat = n := by
  have hall : ∀ n ∈ opcodes, n < 65536 := by decide
  rw [BitVec.toNat_ofNat]
  exact Nat.mod_eq_of_lt (hall n (List.contains_iff_mem.mp h))

end Rings

/-! ### The lead lease (R368 to R370) -/

/-- A cell that the renewal reached holds the EPOCH, the lead and the time. -/
theorem mark_cell (l : Lease) {cells : List Die} {die : Die} (now : Nat) (h : die ∈ cells) :
    tblGet (l.mark cells now).cells die.num = some (l.epoch, l.lead, now) :=
  tblGet_foldl_put_mem Die.num (fun _ => (l.epoch, l.lead, now)) cells l.cells die.num _ (fun _ _ _ => rfl) (.inr ⟨die, h, rfl⟩)

theorem leaseRenew_idle {d : Dev} {die : Die} (h : die ∉ d.scaler.lease.acting) (acks : List Die) : d.leaseRenew die acks = d := by
  simp [Dev.leaseRenew, h]

/-- A renewal that both cells acknowledged. -/
theorem leaseRenew_both {d : Dev} {die : Die} {acks : List Die} (ha : die ∈ d.scaler.lease.acting) (hw : Die.west ∈ acks)
    (he : Die.east ∈ acks) :
    let l := d.scaler.lease
    let l := if l.conflict then { l with acting := [l.lead], conflict := false } else l
    d.leaseRenew die acks = { d with scaler := { d.scaler with lease :=
      if die = d.scaler.lease.lead then { l.mark acks d.clk with counted := d.clk } else l } } := by
  unfold Dev.leaseRenew
  dsimp only
  rw [if_neg (not_not_intro ha)]
  cases hc : d.scaler.lease.conflict <;> by_cases hl : die = d.scaler.lease.lead <;> simp [hw, he, hl, Lease.mark]

theorem leaseClaim_idle {d : Dev} {die : Die} (h : die ∈ d.scaler.lease.acting ∨ d.scalerUp die = false ∨ d.scaler.boot = .hold ∨
    d.scaler.boot.code < 5) (seen : Bool) : d.leaseClaim die seen = d := by
  simp only [Dev.leaseClaim, Bool.not_eq_true', h, if_true]

/-- With every ring quiet no entry completes by itself. -/
theorem pump_foldl_quiet (d : Dev) (is : List Issuer) (n : Nat) (h : ∀ i, quietRing (d.cmdRing i) = true) :
    is.foldl (fun d i => d.pump i n) d = d := by
  induction is with
  | nil => rfl
  | cons i is ih => rw [List.foldl_cons, pump_quiet d i n (h i), ih]

/-- A claim that stands, with an empty journal and quiet rings: the Scaler leads with the EPOCH of its cell plus 1. -/
theorem leaseClaim_wins {d : Dev} {die : Die} (ha : die ∉ d.scaler.lease.acting) (hw : d.scaler.lease.claimWins die = true)
    (hup : d.scalerUp die = true) (hboot : d.scaler.boot = .hostWait ∨ d.scaler.boot = .running) (hj : d.scaler.journal = [])
    (hq : ∀ i, quietRing (d.cmdRing i) = true) (seen : Bool) :
    let others := if seen then [] else d.scaler.lease.acting
    d.leaseClaim die seen = d.newLead die (d.scaler.lease.claimEpoch die) (die :: others) (!others.isEmpty)
      (if seen then [.west, .east] else [die]) := by
  intro others
  have hcond : ¬(die ∈ d.scaler.lease.acting ∨ (!d.scalerUp die) = true ∨ d.scaler.boot = .hold ∨ d.scaler.boot.code < 5) := by
    rcases hboot with h | h <;> simp [ha, hup, h, Boot.code]
  have hreplay : ∀ e : Dev, e.scaler.journal = [] → e.replay = e := by
    intro e he
    unfold Dev.replay
    rw [he, List.foldl_nil, ← he]
  unfold Dev.leaseClaim
  dsimp only
  rw [if_neg hcond, if_pos hw, hreplay (d.newLead _ _ _ _ _) hj, pump_foldl_quiet (d.newLead _ _ _ _ _) _ _ hq]

/-! ### A fatal fault (R429, R431) -/

@[simp] theorem fatalStop_flag (d : Dev) : d.fatalStop.flag F.FLT_SUMMARY_FATAL 0 = true :=
  flag_setFlag_same d F.FLT_SUMMARY_FATAL 0 true rfl

theorem fatalStop_fld_other (d : Dev) {f : Fld} {i : Nat} (h : fldKey f i ≠ fldKey F.FLT_SUMMARY_FATAL 0) :
    d.fatalStop.fld f i = d.fld f i := fld_setFlag_other d true h

@[simp] theorem fatalStop_phase (d : Dev) : d.fatalStop.cord.phase = d.cord.phase := rfl

/-- The register fields that a fault event sets: the bit of its source, and the counts of records (R431, R436). -/
def faultMarked (d : Dev) (bits : Fld) (src : Nat) : Dev :=
  let e := (d.setFld bits 0 (d.fld bits 0 ||| 2 ^ src)).bumpFld F.FLT_SUMMARY_RECORDS 0 1
  if d.flt.log.length ≥ 4096 then e.bumpFld F.FLT_LOG_LOST_COUNT 0 1 else e

theorem faultN_fatal_regs (d : Dev) (src code unit n addr : Nat) (forced : Bool) :
    (d.faultN src .fatal code unit n addr forced).regs = (faultMarked d F.FLT_STATUS_V src).fatalStop.regs := by
  have hstop : ∀ e e' : Dev, e.regs = e'.regs → e.fatalStop.regs = e'.fatalStop.regs := by
    intro e e' h
    simp only [Dev.fatalStop, Dev.setFlag, Dev.setFld, h]
  unfold Dev.faultN
  simp only [if_true]
  refine hstop _ _ ?_
  rw [stream_regs, fltIrq_regs]
  unfold faultMarked Dev.nextSeq
  dsimp only
  split <;> rfl

/-- The bit of the source stands after the event. -/
theorem faultMarked_bit (d : Dev) {src : Nat} (hs : src < 64) :
    ((faultMarked d F.FLT_STATUS_V src).fld F.FLT_STATUS_V 0).testBit src = true := by
  have hbit : ((d.setFld F.FLT_STATUS_V 0 (d.fld F.FLT_STATUS_V 0 ||| 2 ^ src)).fld F.FLT_STATUS_V 0).testBit src = true := by
    rw [fld_setFld_same, Nat.testBit_mod_two_pow]
    simp [F.FLT_STATUS_V, hs]
  unfold faultMarked Dev.bumpFld
  dsimp only
  split
  · rwa [fld_setFld_other _ _ (by decide), fld_setFld_other _ _ (by decide)]
  · rwa [fld_setFld_other _ _ (by decide)]

/-- A fatal fault sets FATAL and the bit of its source, and leaves the phase of Cord. -/
theorem fault_fatal (d : Dev) {src : Nat} (hs : src < 64) (code unit addr : Nat) :
    let e := d.fault src .fatal code unit addr
    e.flag F.FLT_SUMMARY_FATAL 0 = true ∧ (e.fld F.FLT_STATUS_V 0).testBit src = true ∧ e.cord.phase = d.cord.phase := by
  have hregs : (d.fault src .fatal code unit addr).regs = (faultMarked d F.FLT_STATUS_V src).fatalStop.regs :=
    faultN_fatal_regs d src code unit 1 addr false
  refine ⟨?_, ?_, ?_⟩
  · rw [flag_congr hregs, fatalStop_flag]
  · rw [fld_congr hregs, fatalStop_fld_other _ (by decide)]
    exact faultMarked_bit d hs
  · unfold Dev.fault Dev.faultN Dev.nextSeq
    simp only [if_true, fatalStop_phase, stream_cord, fltIrq_cord]
    split <;> rfl

end Sys2Proof.Machine
end

section
/-! SUPPORT. What exec answers to the served commands and to the writes of the rings and the lease. -/

namespace Sys2Proof.Machine

open Sys2Proof

/-! ### The served commands -/

section Commands

variable {s : State} {c : Cmd}

/-- Accepted pairs stand whether or not every pair is accepted (R18, R376). -/
theorem exec_negotiate (h : Served s.dev c 0x0001 [.m, .s, .b]) : ∃ d', exec (.negotiate c) s =
      .next ⟨replied d' c 0x0001 (if (usedPairs c).all pairOk then stOk else stVersion) 0 (negotiateResult c), s.pending⟩ ∧
    d'.scaler.agreed = agreedBy c s.dev.scaler.agreed ∧ d'.scaler.lease = s.dev.scaler.lease ∧ d'.mem = s.dev.mem := by
  refine ⟨_, served_answers h (fun _ d => Dev.negotiate c d) (negotiate_reply c _) rfl ?_, ?_, takeEntry_lease _ _ _, takeEntry_mem _ _ _⟩
  · dsimp only; split <;> decide
  · exact congrArg (agreedBy c) (takeEntry_agreed _ _ _)

theorem exec_identify (h : Served s.dev c 0x0002 [.m, .s, .b]) (hz : zeroFrom c 0 = true) : exec (.identify c) s =
    .next (answered s c 0x0002 (.ok (s.dev.takeEntry c 0x0002) (le 2 0x0700 ++ le 1 0xB0 ++ le 2 s.dev.node ++
      le 1 (s.dev.scaler.lease.lead.num + 2 * s.dev.scaler.boot.code) ++ zeros 2 ++ le 4 s.dev.scaler.lease.epoch.toNat ++
      le 2 (s.dev.fld F.SCL_BOOT_ERR_STATUS 0)))) :=
  served_answers h (fun _ d => Dev.identify c d) (by simp [identify_reply c _ hz]) rfl (by decide : stOk ≠ stHeld)

end Commands

/-- An activation of idle cores leaves no activation of its kind, so that the command is done. -/
theorem imageActivate_idle {c : Cmd} (o : Owner) (d : Dev) (hk : 1 ≤ c.w 0 ∧ c.w 0 ≤ 3) (hz : zeroFrom c 1 = true) {g : FwImage}
    (hg : tblGet d.scaler.staged (c.w 0) = some g) (hna : ∀ a ∈ d.scaler.activations, a.kind ≠ c.w 0)
    (hnr : ∀ k ∈ coresOf (c.w 0), (d.core k).state ≠ .restarting) (hem : d.emergency = false) (h3 : c.w 0 ≠ 3)
    (hidle : ∀ k ∈ coresOf (c.w 0), (d.fwCore k).image = none ∧ (d.fwCore k).stopped = false) :
    Dev.imageActivate c o d = .ok (d.activationStart ⟨c.w 0, g.body, none, [], true⟩) [] := by
  have hbusy : ¬((∃ a ∈ d.scaler.activations, a.kind = c.w 0) ∨ (∃ k ∈ coresOf (c.w 0), (d.core k).state = .restarting)) := by
    rintro (⟨a, ha, hak⟩ | ⟨k, hk, hkr⟩)
    · exact hna a ha hak
    · exact hnr k hk hkr
  obtain ⟨-, -, hact, -⟩ := activationStart_idle d (a := ⟨c.w 0, g.body, none, [], true⟩) h3 rfl hidle
  have hdone : (d.activationStart ⟨c.w 0, g.body, none, [], true⟩).scaler.activations.any (fun a => a.kind == c.w 0) = false := by
    rw [hact]
    simp [List.any_eq_false]
  rw [imageActivate_staged o d hk hz hg, if_neg hbusy, hem, if_neg Bool.false_ne_true]
  dsimp only
  rw [hdone, if_neg Bool.false_ne_true]

/-! ### The rings, the mailbox and the lease as commands -/

theorem exec_sqTailWrite (via : Via) (val : W32) (fs : List Fetch) (s : State) :
    exec (.sqTailWrite via val fs) s = .next ⟨s.dev.sqTail via val fs, s.pending⟩ := rfl
theorem exec_cqHeadWrite (via : Via) (val : W32) (s : State) :
    exec (.cqHeadWrite via val) s = .next ⟨s.dev.cqHead via val, s.pending⟩ := rfl
theorem exec_sqEnableWrite (via : Via) (val : W32) (s : State) :
    exec (.sqEnableWrite via val) s = .next ⟨s.dev.sqEnable via val, s.pending⟩ := rfl
theorem exec_mboxGo (p : Nat) (s : State) : exec (.mboxGo p) s = .next ⟨s.dev.mboxGo p, s.pending⟩ := rfl
theorem exec_leaseRenew (die : Die) (acks : List Die) (s : State) :
    exec (.leaseRenew die acks) s = .next ⟨s.dev.leaseRenew die acks, s.pending⟩ := rfl
theorem exec_leaseClaim (die : Die) (seen : Bool) (s : State) :
    exec (.leaseClaim die seen) s = .next ⟨s.dev.leaseClaim die seen, s.pending⟩ := rfl
theorem exec_leaseConflictTimeout (s : State) :
    exec .leaseConflictTimeout s = .next ⟨s.dev.leaseConflict.cordCheck, s.pending⟩ := rfl

section PF0

variable {d : Dev} {p : Nat} (hv : d.viaIssuer (.bar0 p) = some (.pf0 p)) (hq : quietRing (d.cmdRing (.pf0 p)) = true)
include hv hq

/-- A tail of a ring that is off, or that posts more than the ring holds, is stored alone. -/
theorem sqTail_pf0_nothing (val : W32) (fs : List Fetch)
    (h : d.flag F.SCL_SQ_CTRL_EN p = false ∨ posted d p val.toNat > d.ringDepth (.pf0 p) - 1) :
    d.sqTail (.bar0 p) val fs = d.setFld F.SCL_SQ_TAIL_TAIL p (val.toNat % 65536) := by
  rw [sqTail_pf0 hv, fetchRing_tail hv, if_pos h, pump_quiet (d.setFld _ _ _) _ _ hq]

/-- A tail that posts entries of known opcodes has them fetched in order behind those that wait. -/
theorem sqTail_pf0_fetches (val : W32) (fs : List Fetch) (hen : d.flag F.SCL_SQ_CTRL_EN p = true)
    (hn : posted d p val.toNat ≤ d.ringDepth (.pf0 p) - 1) (hpos : (d.cmdRing (.pf0 p)).fetchPos < 65536)
    (hlen : fs.length = posted d p val.toNat)
    (hfs : ∀ f ∈ fs, ∃ op tag fl, f = .entry op tag fl ∧ opcodes.contains op.toNat = true) :
    (d.sqTail (.bar0 p) val fs).cmdRing (.pf0 p) =
      fetchedRing (d.cmdRing (.pf0 p)) (d.ringDepth (.pf0 p)) fs (posted d p val.toNat) ∧
    (d.sqTail (.bar0 p) val fs).mem = d.mem := by
  have hgo : ¬(d.flag F.SCL_SQ_CTRL_EN p = false ∨ posted d p val.toNat > d.ringDepth (.pf0 p) - 1) := by
    rw [hen]; simp; omega
  obtain ⟨hring, -, hmem⟩ := fetchEntries_pf0 (d.setFld F.SCL_SQ_TAIL_TAIL p (val.toNat % 65536)) p fs (posted d p val.toNat) hpos
  rw [ringDepth_setTail hv, cmdRing_setFld] at hring
  rw [sqTail_pf0 hv, fetchRing_tail hv, if_neg hgo, pump_quiet]
  · exact ⟨hring, hmem⟩
  · exact (congrArg quietRing hring).trans (quietRing_fetched hq hlen hfs)

theorem cqHead_pf0 (hheld : (d.cmdRing (.pf0 p)).held = []) (val : W32) :
    d.cqHead (.bar0 p) val = d.setFld F.SCL_CQ_HEAD_HEAD p (val.toNat % 65536) := by
  have hrel : (d.setFld F.SCL_CQ_HEAD_HEAD p (val.toNat % 65536)).releaseHeld (.pf0 p) 4096 =
      d.setFld F.SCL_CQ_HEAD_HEAD p (val.toNat % 65536) := by
    simp [Dev.releaseHeld, hheld]
  simp only [Dev.cqHead, hv, bits_low16]
  rw [hrel, pump_quiet (d.setFld _ _ _) _ _ hq]

end PF0

/-- GO with an entry of a known opcode: the mailbox holds the entry, and nothing answers it yet. -/
theorem mboxGo_waits {d : Dev} {p : Nat} (hv : d.viaIssuer (.bar0 p) = some (.pf0 p)) (hgo : d.flag F.SCL_MBOX_CTRL_GO p = false)
    (hop : opcodes.contains (fieldAt (d.mboxBytes p) 2 2) = true) :
    d.mboxGo p = (d.setFlag F.SCL_MBOX_CTRL_GO p true).setCmdRing (.mbox p) { (d.cmdRing (.mbox p)) with
      waiting := [⟨0, .entry (BitVec.ofNat 16 (fieldAt (d.mboxBytes p) 2 2)) (BitVec.ofNat 16 (fieldAt (d.mboxBytes p) 4 2))
        (BitVec.ofNat 16 (fieldAt (d.mboxBytes p) 6 2))⟩] } := by
  rw [mboxGo_pf0 hv, hgo, if_neg Bool.false_ne_true, pump_quiet]
  rw [cmdRing_setCmdRing]
  simpa only [quietRing, toNat_opcode hop] using hop

end Sys2Proof.Machine
end

section
/-! SUPPORT. Firmware commands whose answer says what the device then holds, and O54. -/

namespace Sys2Proof.Machine

open Sys2Proof

/-! ### What each command of firmware answers and leaves -/

theorem stOk_ne_held : stOk ≠ stHeld := by decide
theorem stRefused_ne_held : stRefused ≠ stHeld := by decide
theorem stDeferred_ne_held : stDeferred ≠ stHeld := by decide
theorem stBusy_ne_held : stBusy ≠ stHeld := by decide

/-- An image that passes is staged and measured; nothing of what runs changes (R364). -/
theorem exec_imageLoad_ok {s : State} {c : Cmd} {g : FwImage} (h : Served s.dev c 0x0701 [.m, .b]) (hz : zeroFrom c 2 = true)
    (hchk : s.dev.checkImage g = none) : ∃ d', exec (.imageLoad c (some g)) s = .next (answered s c 0x0701 (.ok d' [])) ∧
      tblGet d'.scaler.staged g.kind = some g ∧
      (∀ n, n ≠ g.kind → tblGet d'.scaler.staged n = tblGet s.dev.scaler.staged n) ∧
      (g.kind ≤ 3 → tblGetD d'.bark.meas (8 + g.kind) 0 = g.body.digest) ∧ d'.scaler.running = s.dev.scaler.running := by
  have hreply := imageLoad_ok c (d := s.dev.takeEntry c 0x0701) hz ((takeEntry_checkImage _ _ _ _).trans hchk)
  rw [stageImage_eq] at hreply
  refine ⟨_, served_answers h (fun _ d => Dev.imageLoad c (some g) d) hreply rfl stOk_ne_held, tblGet_put_same _ _ _,
    fun n hn => ?_, fun hkind => ?_, takeEntry_running _ _ _⟩
  · exact (tblGet_put_other _ g hn).trans (congrArg (tblGet · n) (takeEntry_staged _ _ _))
  · simp [hkind, tblGetD]

section ImageActivate

variable {s : State} {c : Cmd} {g : FwImage} (h : Served s.dev c 0x0702 [.m, .b]) (hk : 1 ≤ c.w 0 ∧ c.w 0 ≤ 3)
  (hz : zeroFrom c 1 = true)
include h hk hz

theorem exec_imageActivate_notStaged (hg : tblGet s.dev.scaler.staged (c.w 0) = none) : exec (.imageActivate c) s =
    .next (answered s c 0x0702 (.refuse (s.dev.takeEntry c 0x0702) rsWrongState)) := by
  have hreply := imageActivate_notStaged (s.dev.ownerOf c 0x0702) (s.dev.takeEntry c 0x0702) hk hz
    ((congrArg (tblGet · (c.w 0)) (takeEntry_staged _ _ _)).trans hg)
  exact served_answers h (fun o d => Dev.imageActivate c o d) hreply rfl stRefused_ne_held

variable (hg : tblGet s.dev.scaler.staged (c.w 0) = some g)
include hg

theorem exec_imageActivate_busy (hbusy : (∃ a ∈ s.dev.scaler.activations, a.kind = c.w 0) ∨
    ∃ k ∈ coresOf (c.w 0), (s.dev.core k).state = .restarting) : exec (.imageActivate c) s =
      .next (answered s c 0x0702 (.fail (s.dev.takeEntry c 0x0702) stBusy 0)) := by
  have hreply := imageActivate_staged (s.dev.ownerOf c 0x0702) (s.dev.takeEntry c 0x0702) hk hz
    ((congrArg (tblGet · (c.w 0)) (takeEntry_staged _ _ _)).trans hg)
  simp only [takeEntry_activations, takeEntry_core, if_pos hbusy] at hreply
  exact served_answers h (fun o d => Dev.imageActivate c o d) hreply rfl stBusy_ne_held

variable (hna : ∀ a ∈ s.dev.scaler.activations, a.kind ≠ c.w 0) (hnr : ∀ k ∈ coresOf (c.w 0), (s.dev.core k).state ≠ .restarting)
include hna hnr

/-- During an emergency the activation waits (R381). -/
theorem exec_imageActivate_deferred (hem : s.dev.emergency = true) :
    let d := s.dev.takeEntry c 0x0702
    exec (.imageActivate c) s = .next (answered s c 0x0702 (.defer { d with scaler := { d.scaler with
      activations := d.scaler.activations ++ [⟨c.w 0, g.body, some (s.dev.ownerOf c 0x0702), [], true⟩] } })) := by
  intro d
  have hreply := imageActivate_staged (s.dev.ownerOf c 0x0702) d hk hz
    ((congrArg (tblGet · (c.w 0)) (takeEntry_staged _ _ _)).trans hg)
  have hbusy : ¬((∃ a ∈ d.scaler.activations, a.kind = c.w 0) ∨ ∃ k ∈ coresOf (c.w 0), (d.core k).state = .restarting) := by
    rw [not_or, not_exists, not_exists]
    exact ⟨fun a ha => hna a (by simpa [d] using ha.1) ha.2, fun k hk => hnr k hk.1 (by simpa [d] using hk.2)⟩
  rw [if_neg hbusy, if_pos ((takeEntry_emergency _ _ _).trans hem)] at hreply
  exact served_answers h (fun o d => Dev.imageActivate c o d) hreply rfl stDeferred_ne_held

/-- Cores that run nothing take the image at once, and the command is done (R380). -/
theorem exec_imageActivate_idle (hem : s.dev.emergency = false) (h3 : c.w 0 ≠ 3)
    (hidle : ∀ k ∈ coresOf (c.w 0), (s.dev.fwCore k).image = none ∧ (s.dev.fwCore k).stopped = false) :
    ∃ d', exec (.imageActivate c) s = .next (answered s c 0x0702 (.ok d' [])) ∧ tblGet d'.scaler.running (c.w 0) = some g.body ∧
      d'.scaler.dirGen = s.dev.scaler.dirGen + 1 ∧ (∀ k ∈ coresOf (c.w 0), RunsFromEntry g.body d' k) ∧
      (∀ k, k ∉ coresOf (c.w 0) → d'.core k = s.dev.core k) ∧ d'.scaler.lease = s.dev.scaler.lease := by
  have hidle' : ∀ k ∈ coresOf (c.w 0), ((s.dev.takeEntry c 0x0702).fwCore k).image = none ∧
      ((s.dev.takeEntry c 0x0702).fwCore k).stopped = false := by simpa using hidle
  have hreply := imageActivate_idle (s.dev.ownerOf c 0x0702) (s.dev.takeEntry c 0x0702) hk hz (g := g) (by simpa using hg)
    (by simpa using hna) (by simpa using hnr) (by simpa using hem) h3 hidle'
  obtain ⟨hrings, hlease, -, hrun, hgen, hcores, hother⟩ :=
    activationStart_idle (s.dev.takeEntry c 0x0702) (a := ⟨c.w 0, g.body, none, [], true⟩) h3 rfl hidle'
  exact ⟨_, served_answers h (fun o d => Dev.imageActivate c o d) hreply hrings stOk_ne_held, hrun,
    hgen.trans (congrArg (· + 1) (takeEntry_dirGen _ _ _)), hcores, fun k hk => (hother k hk).trans (takeEntry_core _ _ _ k),
    hlease.trans (takeEntry_lease _ _ _)⟩

end ImageActivate

/-- FLASH_COMMIT of a staged image: BUSY while a write runs, else a write of the copy not in use starts (R362). -/
theorem exec_flashCommit_staged {s : State} {c : Cmd} {g : FwImage} {b : Bool} (h : Served s.dev c 0x0703 [.m, .b])
    (hk : c.w 0 = 3 ∨ c.w 0 = 4) (hz : zeroFrom c 1 = true) (hg : tblGet s.dev.scaler.staged (c.w 0) = some g)
    (hb : s.dev.scaler.inUse = some b) :
    let d := s.dev.takeEntry c 0x0703
    (s.dev.scaler.flash.isSome = true → exec (.flashCommit c) s = .next (answered s c 0x0703 (.fail d stBusy 0))) ∧
    (s.dev.scaler.flash = none → exec (.flashCommit c) s = .next (answered s c 0x0703 (.defer
      { d with scaler := { d.scaler with flash := some ⟨g.cfg, !b, some (s.dev.ownerOf c 0x0703), false⟩ } }))) := by
  intro d
  have hreply := flashCommit_staged c (s.dev.ownerOf c 0x0703) d hk hz (g := g) (b := b) (by simpa [d] using hg) (by simpa [d] using hb)
  refine ⟨fun hbusy => ?_, fun hfree => ?_⟩
  · rw [if_pos (by simpa [d] using hbusy)] at hreply
    exact served_answers h (fun o d => Dev.flashCommit c o d) hreply rfl stBusy_ne_held
  · rw [if_neg (by simp [d, hfree])] at hreply
    exact served_answers h (fun o d => Dev.flashCommit c o d) hreply rfl stDeferred_ne_held

section CoreRestart

variable {s : State} {c : Cmd} (h : Served s.dev c 0x0704 [.m]) (hz : zeroFrom c 1 = true) (hlt : c.w 0 < 256)
  (hk : coreKind (c.w 0) ≠ 0)
include h hz hlt hk

theorem exec_coreRestart_noImage (h3 : coreKind (c.w 0) ≠ 3) (himg : (s.dev.fwCore (c.w 0)).image = none) :
    exec (.coreRestart c) s = .next (answered s c 0x0704 (.refuse (s.dev.takeEntry c 0x0704) rsWrongState)) := by
  have hreply := coreRestart_fields (s.dev.takeEntry c 0x0704) hz hlt hk
  rw [if_pos (by simp [h3, himg])] at hreply
  exact served_answers h (fun _ d => Dev.coreRestart c d) hreply rfl stRefused_ne_held

/-- The core goes down for its restart, and its crashes are forgotten (R379). -/
theorem exec_coreRestart_ok (hrun : coreKind (c.w 0) = 3 ∨ (s.dev.fwCore (c.w 0)).image ≠ none) :
    ∃ d', exec (.coreRestart c) s = .next (answered s c 0x0704 (.ok d' [])) ∧
      d'.core (c.w 0) = { (s.dev.core (c.w 0)) with state := .restarting, pre := none } ∧
      d'.fwCore (c.w 0) = { (s.dev.fwCore (c.w 0)) with crashes := [], stopped := false } ∧
      (∀ k, k ≠ c.w 0 → d'.core k = s.dev.core k) := by
  have hreply := coreRestart_fields (s.dev.takeEntry c 0x0704) hz hlt hk
  rw [if_neg (by rcases hrun with hrun | hrun <;> simp [hrun])] at hreply
  refine ⟨_, served_answers h (fun _ d => Dev.coreRestart c d) hreply rfl stOk_ne_held, ?_, ?_, fun k hne => ?_⟩
  · refine (restartCore_core_same _ _).trans ?_
    exact congrArg (fun x : Core => { x with state := .restarting, pre := none }) (takeEntry_core s.dev c 0x0704 _)
  · refine (fwCore_modFw_same (s.dev.takeEntry c 0x0704) (c.w 0) (fun f => { f with crashes := [], stopped := false })).trans ?_
    rw [takeEntry_fwCore]
  · exact (restartCore_core_other _ hne).trans (takeEntry_core s.dev c 0x0704 k)

end CoreRestart

/-! ### What the ring registers, the mailbox and the lease answer and leave -/

/-- SQ_CTRL written: its fields; the rings start again when EN changes, and stay as they are otherwise (R383). -/
theorem exec_sqEnableWrite_pf0 {s : State} {p : Nat} (hv : s.dev.viaIssuer (.bar0 p) = some (.pf0 p)) (val : W32) :
    ∃ t, exec (.sqEnableWrite (.bar0 p) val) s = .next t ∧ t.pending = s.pending ∧
      t.dev.flag F.SCL_SQ_CTRL_EN p = val.getLsbD 0 ∧ t.dev.fld F.SCL_SQ_CTRL_VECTOR p = bits val.toNat 16 11 ∧
      (s.dev.flag F.SCL_SQ_CTRL_EN p = false → t.dev.fld F.SCL_SQ_CTRL_LOG2 p = bits val.toNat 1 4) ∧
      (s.dev.flag F.SCL_SQ_CTRL_EN p = true → t.dev.fld F.SCL_SQ_CTRL_LOG2 p = s.dev.fld F.SCL_SQ_CTRL_LOG2 p) ∧
      (s.dev.flag F.SCL_SQ_CTRL_EN p ≠ val.getLsbD 0 →
        t.dev.cmdRing (.pf0 p) = { CmdRing.init with gen := (s.dev.cmdRing (.pf0 p)).gen + 1 }) ∧
      (s.dev.flag F.SCL_SQ_CTRL_EN p = val.getLsbD 0 → t.dev.cmdRing (.pf0 p) = s.dev.cmdRing (.pf0 p)) ∧ t.dev.mem = s.dev.mem := by
  obtain ⟨hen, hvec, hfree, hkept, hscaler, hmem⟩ := sqCtrlWritten_spec s.dev (port_lt_of_viaIssuer hv) val
  have hring : (sqCtrlWritten s.dev p val).cmdRing (.pf0 p) = s.dev.cmdRing (.pf0 p) :=
    cmdRing_congr (congrArg Scaler.rings hscaler) _
  refine ⟨_, exec_sqEnableWrite _ _ _, rfl, ?_⟩
  dsimp only
  rw [sqEnable_pf0 hv]
  split
  · next hne =>
    exact ⟨hen, hvec, hfree, hkept, fun _ => by rw [Dev.resetRing, cmdRing_setCmdRing, hring], fun heq => absurd heq hne, hmem⟩
  · next heq => exact ⟨hen, hvec, hfree, hkept, fun hne => absurd hne heq, fun _ => hring, hmem⟩

/-- A counted renewal of a lead without a conflict marks both cells (R368). -/
theorem leaseRenew_counted {d : Dev} {die : Die} {acks : List Die} (hl : die = d.scaler.lease.lead) (ha : die ∈ d.scaler.lease.acting)
    (hc : d.scaler.lease.conflict = false) (hw : Die.west ∈ acks) (he : Die.east ∈ acks) : d.leaseRenew die acks =
      { d with scaler := { d.scaler with lease := { d.scaler.lease.mark acks d.clk with counted := d.clk } } } := by
  rw [leaseRenew_both ha hw he, hc, if_pos hl, if_neg Bool.false_ne_true]

/-- A renewal that reaches both cells ends a conflict (R370). -/
theorem leaseRenew_conflict {d : Dev} {die : Die} {acks : List Die} (ha : die ∈ d.scaler.lease.acting)
    (hc : d.scaler.lease.conflict = true) (hw : Die.west ∈ acks) (he : Die.east ∈ acks) :
    (d.leaseRenew die acks).scaler.lease.acting = [d.scaler.lease.lead] ∧ (d.leaseRenew die acks).scaler.lease.conflict = false := by
  rw [leaseRenew_both ha hw he, hc, if_pos rfl]
  dsimp only
  split <;> exact ⟨rfl, rfl⟩

/-- Without a conflict nothing happens; a standing one is fatal, and the lease stays as it is (R370). -/
theorem leaseConflict_cordCheck (d : Dev) (hidle : d.cord.phase = .idle) :
    (d.scaler.lease.conflict = false → d.leaseConflict.cordCheck = d) ∧
    (d.scaler.lease.conflict = true → d.leaseConflict.cordCheck = d.fault d.scaler.lease.lead.num .fatal 11 0 0) := by
  have hcheck : ∀ e : Dev, e.cord.phase = .idle → e.cordCheck = e := by
    intro e he
    simp [Dev.cordCheck, he]
  refine ⟨fun hc => ?_, fun hc => ?_⟩
  · rw [Dev.leaseConflict, hc, if_neg Bool.false_ne_true, hcheck d hidle]
  · have hlt : d.scaler.lease.lead.num < 64 := by cases d.scaler.lease.lead <;> decide
    obtain ⟨-, -, hphase⟩ := fault_fatal d hlt 11 0 0
    rw [Dev.leaseConflict, hc, if_pos rfl, hcheck _ (hphase.trans hidle)]

/-- What holds of the lease after a claim that stands (R369, R370). -/
theorem exec_leaseClaim_wins {s : State} {die : Die} (ha : die ∉ s.dev.scaler.lease.acting)
    (hw : s.dev.scaler.lease.claimWins die = true) (hup : s.dev.scalerUp die = true)
    (hboot : s.dev.scaler.boot = .hostWait ∨ s.dev.scaler.boot = .running) (hj : s.dev.scaler.journal = [])
    (hq : ∀ i, quietRing (s.dev.cmdRing i) = true) (seen : Bool) :
    ∃ t, exec (.leaseClaim die seen) s = .next t ∧ t.pending = s.pending ∧ t.dev.scaler.lease.lead = die ∧
      (∀ e, tblGet s.dev.scaler.lease.cells die.num = some e → t.dev.scaler.lease.epoch = e.1 + 1) ∧
      t.dev.scaler.lease.acting = (if seen = true then [die] else die :: s.dev.scaler.lease.acting) ∧
      t.dev.scaler.lease.conflict = decide (seen = false ∧ s.dev.scaler.lease.acting ≠ []) ∧
      t.dev = { s.dev with scaler := { s.dev.scaler with lease := t.dev.scaler.lease } } := by
  have hexec := exec_leaseClaim die seen s
  rw [leaseClaim_wins ha hw hup hboot hj hq seen] at hexec
  refine ⟨_, hexec, rfl, rfl, fun e he => ?_, ?_, ?_, rfl⟩
  · change s.dev.scaler.lease.claimEpoch die = e.1 + 1
    rw [Lease.claimEpoch, he]
  · cases seen <;> rfl
  · cases seen
    · cases hact : s.dev.scaler.lease.acting <;> simp [Dev.newLead, Lease.mark]
    · rfl

/-- A conflict still unresolved is fatal, names the lead as its source and leaves the lease as it is (R370). -/
theorem exec_leaseConflictTimeout_fatal {s : State} (hc : s.dev.scaler.lease.conflict = true) (hidle : s.dev.cord.phase = .idle) :
    ∃ t, exec .leaseConflictTimeout s = .next t ∧ t.pending = s.pending ∧ t.dev.flag F.FLT_SUMMARY_FATAL 0 = true ∧
      (t.dev.fld F.FLT_STATUS_V 0).testBit s.dev.scaler.lease.lead.num = true ∧ t.dev.scaler.lease = s.dev.scaler.lease := by
  have hlt : s.dev.scaler.lease.lead.num < 64 := by cases s.dev.scaler.lease.lead <;> decide
  obtain ⟨hfatal, hbit, -⟩ := fault_fatal s.dev hlt 11 0 0
  have hexec := exec_leaseConflictTimeout s
  rw [(leaseConflict_cordCheck s.dev hidle).2 hc] at hexec
  exact ⟨⟨s.dev.fault s.dev.scaler.lease.lead.num .fatal 11 0 0, s.pending⟩, hexec, rfl, hfatal, hbit,
    congrArg Scaler.lease (fault_scaler s.dev s.dev.scaler.lease.lead.num .fatal 11 0 0)⟩

/-- Settles O54: each command of firmware by its reply, the rings and the mailbox of PF0, and the lease. -/
theorem firmwareCommandsRingsAndLease : Obligations.FirmwareCommandsRingsAndLease := by
  refine ⟨?negotiate, fun s c h hz => exec_identify h hz, ?powerCap, ?imageLoad, ?imageActivate, ?flashCommit, ?coreRestart, ?rings,
    ?lease⟩
  case negotiate =>
    intro s c h used ok
    obtain ⟨d', hexec, hagreed, hlease, hmem⟩ := exec_negotiate h
    refine ⟨d', _, _, hexec, fun hall => if_pos (List.all_eq_true.mpr fun p hp => (pairOk_iff p).mpr (hall p hp)),
      fun ⟨p, hp, hno⟩ => if_neg fun hall => hno ((pairOk_iff p).mp (List.all_eq_true.mp hall p hp)), negotiateResult_length c,
      fun p hp hok => ?_, fun n hn => ?_, hlease, hmem⟩
    · rw [hagreed]; exact agreedBy_accepted c _ hp ((pairOk_iff p).mpr hok)
    · rw [hagreed]; exact agreedBy_other c _ n fun p hp hok => hn p hp ((pairOk_iff p).mp hok)
  case powerCap =>
    intro s c h d
    refine ⟨fun hbad => ?_, fun hlo hhi hz => ?_⟩
    · exact served_answers h (fun _ d => Dev.powerCap c d) (powerCap_refused c d (by simpa [d] using hbad)) rfl stRefused_ne_held
    · exact served_answers h (fun _ d => Dev.powerCap c d) (powerCap_ok c d hlo (by simpa [d] using hhi) hz) rfl stOk_ne_held
  case imageLoad =>
    intro s c img h d
    refine ⟨fun hbad => ?_, ?_⟩
    · exact served_answers h (fun _ d => Dev.imageLoad c img d) (imageLoad_refused c img d hbad) rfl stRefused_ne_held
    · rintro g hz rfl
      refine ⟨fun st hst => ?_, exec_imageLoad_ok h hz⟩
      exact served_answers h (fun _ d => Dev.imageLoad c (some g) d) (imageLoad_failed c hz (by simpa [d] using hst)) rfl
        (checkImage_ne_held hst)
  case imageActivate =>
    intro s c h hlo hhi hz d
    refine ⟨exec_imageActivate_notStaged h ⟨hlo, hhi⟩ hz, fun g hg => ⟨exec_imageActivate_busy h ⟨hlo, hhi⟩ hz hg, fun hna hnr =>
      ⟨exec_imageActivate_deferred h ⟨hlo, hhi⟩ hz hg hna hnr, exec_imageActivate_idle h ⟨hlo, hhi⟩ hz hg hna hnr⟩⟩⟩
  case flashCommit =>
    intro s c h hk hz d
    refine ⟨fun hbad => ?_, fun g b hg hb => exec_flashCommit_staged h hk hz hg hb⟩
    exact served_answers h (fun o d => Dev.flashCommit c o d) (flashCommit_wrongState c _ d hk hz (by simpa [d] using hbad)) rfl
      stRefused_ne_held
  case coreRestart =>
    intro s c h hz d
    refine ⟨fun hseq => ?_, fun hbad => ?_, exec_coreRestart_noImage h hz, exec_coreRestart_ok h hz⟩
    · exact served_answers h (fun _ d => Dev.coreRestart c d) (coreRestart_sequencer d hz hseq) rfl stRefused_ne_held
    · exact served_answers h (fun _ d => Dev.coreRestart c d) (coreRestart_badField d hbad) rfl stRefused_ne_held
  case rings =>
    intro s p val fs
    refine ⟨fun hv => ?_, fun hv hq => ⟨fun hnone => ?_, fun hen hn hpos hlen hfs => ?_, fun hheld => ?_, exec_sqEnableWrite_pf0 hv val⟩,
      fun hv => ⟨fun hgo => ?_, fun hgo hop => ?_⟩⟩
    · simp only [exec_sqTailWrite, exec_cqHeadWrite, exec_sqEnableWrite, exec_mboxGo, sqTail_lost hv, cqHead_lost hv, sqEnable_lost hv,
        mboxGo_lost hv, and_self]
    · rw [exec_sqTailWrite, sqTail_pf0_nothing hv hq val fs hnone]
    · obtain ⟨hring, hmem⟩ := sqTail_pf0_fetches hv hq val fs hen hn hpos hlen hfs
      exact ⟨_, exec_sqTailWrite _ _ _ _, rfl, congrArg CmdRing.fetchPos hring, congrArg CmdRing.waiting hring, hmem⟩
    · rw [exec_cqHeadWrite, cqHead_pf0 hv hq hheld]
    · rw [exec_mboxGo, mboxGo_pf0 hv, if_pos hgo]
    · have hexec := exec_mboxGo p s
      rw [mboxGo_waits hv hgo hop] at hexec
      exact ⟨_, hexec, rfl, flag_setFlag_same _ _ _ _ rfl, congrArg CmdRing.waiting (cmdRing_setCmdRing _ _ _), rfl, rfl⟩
  case lease =>
    intro s die acks seen l
    refine ⟨fun ha => ?_, fun hl ha hc hw he => ?_, fun hc ha hw he => ?_, rfl, fun hno => ?_, fun ha hw hup hboot hj hq => ?_,
      fun hc hidle => ?_, fun hc hidle => ?_⟩
    · rw [exec_leaseRenew, leaseRenew_idle ha]
    · have hexec := exec_leaseRenew die acks s
      rw [leaseRenew_counted hl ha hc hw he] at hexec
      have hcell := fun (cell : Die) (h : cell ∈ acks) => hl ▸ mark_cell l s.dev.clk h
      exact ⟨_, hexec, rfl, rfl, hcell .west hw, hcell .east he, rfl, rfl, rfl⟩
    · obtain ⟨hact, hend⟩ := leaseRenew_conflict ha hc hw he
      exact ⟨_, exec_leaseRenew _ _ _, hact, hend⟩
    · rw [exec_leaseClaim, leaseClaim_idle hno]
    · exact exec_leaseClaim_wins ha hw hup hboot hj hq seen
    · rw [exec_leaseConflictTimeout, (leaseConflict_cordCheck s.dev hidle).1 hc]
    · exact exec_leaseConflictTimeout_fatal hc hidle

end Sys2Proof.Machine
end

section
/-! SUPPORT. Plans by their slot: what an update of one plan, a completion, an ABORT and a failure leave of every plan
(04_collectives R155 to R157). -/

namespace Sys2Proof.Machine

open Sys2Proof

/-! ### Changing one entry of a table -/

theorem tblGet_mod_same {α : Type} (t : Tbl α) (n : Nat) (f : α → α) : tblGet (tblMod t n f) n = (tblGet t n).map f := by
  induction t with
  | nil => rfl
  | cons e t ih =>
    obtain ⟨k, v⟩ := e
    by_cases hk : k = n
    · simp [tblMod, tblGet, hk]
    · simpa [tblMod, tblGet, hk] using ih

theorem tblGet_mod_other {α : Type} (t : Tbl α) {n m : Nat} (f : α → α) (h : m ≠ n) : tblGet (tblMod t n f) m = tblGet t m := by
  induction t with
  | nil => rfl
  | cons e t ih =>
    obtain ⟨k, v⟩ := e
    by_cases hk : k = n
    · simpa [tblMod, tblGet, hk, Ne.symm h] using ih
    · by_cases hm : k = m
      · simp [tblMod, tblGet, hm, h]
      · simpa [tblMod, tblGet, hk, hm] using ih

/-! ### Plans read the Mill alone -/

theorem plan_congr {d e : Dev} (h : e.mill = d.mill) (n : Nat) : e.plan n = d.plan n := by simp only [Dev.plan, h]

@[simp] theorem plan_modPlan_same (d : Dev) (slot : Nat) (f : Plan → Plan) : (d.modPlan slot f).plan slot = (d.plan slot).map f :=
  tblGet_mod_same _ _ _

theorem plan_modPlan_other (d : Dev) {slot n : Nat} (f : Plan → Plan) (h : n ≠ slot) : (d.modPlan slot f).plan n = d.plan n :=
  tblGet_mod_other _ _ h

/-- Operations that leave the Mill leave it when they are done one after another. -/
theorem foldl_mill {α : Type} {f : Dev → α → Dev} (h : ∀ d x, (f d x).mill = d.mill) (l : List α) (d : Dev) :
    (l.foldl f d).mill = d.mill := by
  induction l generalizing d with
  | nil => rfl
  | cons x l ih => exact (ih (f d x)).trans (h d x)

/-! ### A completion leaves the plans -/

theorem ringIrq_mill (d : Dev) (i : Issuer) : (d.ringIrq i).mill = d.mill := by
  unfold Dev.ringIrq
  split
  · exact msix_mill _ _ _ _
  · dsimp only
    split
    · exact msix_mill _ _ _ _
    · rfl
  · rfl

theorem writeCpl_mill (d : Dev) (i : Issuer) (c : Cpl) (q : Bool) : (d.writeCpl i c q).mill = d.mill := by
  unfold Dev.writeCpl
  dsimp only
  split
  · rfl
  · exact ringIrq_mill _ _

theorem postRing_mill (d : Dev) (i : Issuer) (c : Cpl) (q : Bool) : (d.postRing i c q).mill = d.mill := by
  unfold Dev.postRing
  dsimp only
  split
  · exact writeCpl_mill _ _ _ _
  · rfl

theorem putMbox_mill (d : Dev) (p : Nat) (bs : List Byte) : (d.putMbox p bs).mill = d.mill := by
  unfold Dev.putMbox
  exact foldl_mill (fun d i => setFld_mill d _ _ _) _ d

theorem deliver_mill (d : Dev) (o : Owner) (c : Cpl) : (d.deliver o c).mill = d.mill := by
  unfold Dev.deliver
  split
  · rfl
  · split
    · dsimp only
      split
      · rw [setFlag_mill, emit_mill, putMbox_mill]
      · rw [emit_mill, putMbox_mill]
    · rfl
  · split
    · exact postRing_mill _ _ _ _
    · rfl

theorem finish_mill (d : Dev) (o : Owner) (st rs : Nat) (res : List Byte) : (d.finish o st rs res).mill = d.mill :=
  deliver_mill d o _

/-! ### A plan leaves RUNNING or STOPPING (R157, R212) -/

theorem modCore_mill (d : Dev) (c : Nat) (f : Core → Core) : (d.modCore c f).mill = d.mill := rfl

theorem haltCores_mill (d : Dev) (slot : Nat) : (d.haltCores slot).mill = d.mill := by
  unfold Dev.haltCores
  split
  · exact foldl_mill (fun d c => modCore_mill d c _) _ d
  · rfl

theorem leaveRunning_mill (d : Dev) (slot : Nat) (st : PlanState) :
    (d.leaveRunning slot st).mill = (d.modPlan slot (fun p => { p.stopWork with state := st })).mill := by
  simp only [Dev.leaveRunning, Dev.flushDisarmed, Dev.freeTriggers, Dev.modPlan, haltCores_mill]

/-! ### An ABORT goes out (R156) -/

theorem sendAborts_plan {d : Dev} {slot : Nat} {p : Plan} (h : d.plan slot = some p) (failed reason : Nat) :
    (d.sendAborts slot failed reason).plan slot = some { p with aborted := true } ∧
    ∀ n, n ≠ slot → (d.sendAborts slot failed reason).plan n = d.plan n := by
  unfold Dev.sendAborts
  simp only [h]
  split
  case isTrue hsent =>
    rw [h, ← hsent]
    exact ⟨rfl, fun _ _ => rfl⟩
  case isFalse =>
    have hsame := plan_congr (foldl_mill (f := fun d n => d.sendColl p n 4 0 0 0 0 (.abort (abortBytes failed reason d.stamp)))
      (fun _ _ => rfl) p.peers d)
    refine ⟨?_, fun n hn => ?_⟩
    · rw [plan_modPlan_same, hsame, h]
      rfl
    · rw [plan_modPlan_other _ _ hn, hsame]

/-! ### A plan fails (R157, Table 4.16) -/

/-- What the failure report of a plan keeps. -/
def Dev.failure (d : Dev) (p : Plan) (reason failed origin level : Nat) : Failure :=
  ⟨reason, failed, origin, p.step, p.phase, p.begun, p.applied, p.skipped, level, 0, d.stamp⟩

theorem planFail_mill {d : Dev} {slot : Nat} {p : Plan} (h : d.plan slot = some p) (reason failed origin level : Nat) :
    (d.planFail slot reason failed origin level).mill = ((d.leaveRunning slot .failed).modPlan slot (fun q =>
      { q with fail := some (d.failure p reason failed origin level), stopOwner := none })).mill := by
  unfold Dev.planFail
  simp only [h]
  cases p.stopOwner with
  | none => exact faultOpen_mill _ _ _ _ _ (by decide)
  | some o => exact (finish_mill _ _ _ _ _).trans (faultOpen_mill _ _ _ _ _ (by decide))

theorem planFail_plan {d : Dev} {slot : Nat} {p : Plan} (h : d.plan slot = some p) (reason failed origin level : Nat) :
    (d.planFail slot reason failed origin level).plan slot = some { p.stopWork with
      state := .failed, fail := some (d.failure p reason failed origin level), stopOwner := none } := by
  rw [plan_congr (planFail_mill h reason failed origin level), plan_modPlan_same, plan_congr (leaveRunning_mill d slot .failed),
    plan_modPlan_same, h]
  rfl

theorem planFail_plan_other {d : Dev} {slot n : Nat} {p : Plan} (h : d.plan slot = some p) (hn : n ≠ slot)
    (reason failed origin level : Nat) : (d.planFail slot reason failed origin level).plan n = d.plan n := by
  rw [plan_congr (planFail_mill h reason failed origin level), plan_modPlan_other _ _ hn,
    plan_congr (leaveRunning_mill d slot .failed), plan_modPlan_other _ _ hn]

/-- A failure that the device declares or hears of: the ABORT goes out, then the plan fails with its report. -/
theorem sendAborts_planFail {d : Dev} {slot : Nat} {p : Plan} (h : d.plan slot = some p) (failed sent reason origin level : Nat) :
    ∃ q f, ((d.sendAborts slot failed sent).planFail slot reason failed origin level).plan slot = some q ∧ q.state = .failed ∧
      q.fail = some f ∧ f.reason = reason ∧ f.node = failed ∧ f.origin = origin ∧ f.level = level ∧ f.step = p.step ∧
      ∀ n, n ≠ slot → ((d.sendAborts slot failed sent).planFail slot reason failed origin level).plan n = d.plan n := by
  obtain ⟨hplan, hother⟩ := sendAborts_plan h failed sent
  exact ⟨_, _, planFail_plan hplan reason failed origin level, rfl, rfl, rfl, rfl, rfl, rfl, rfl, fun n hn =>
    (planFail_plan_other hplan hn reason failed origin level).trans (hother n hn)⟩

end Sys2Proof.Machine
end

section
/-! SUPPORT. Messages of a plan, the start exchange, time-outs and ABORTs, and O23 (04_collectives R133, R138, R155 to R159). -/

namespace Sys2Proof.Machine

open Sys2Proof

/-! ### The commands -/

theorem exec_reduceDataReceive (m : CollMsg) (s : State) :
    exec (.reduceDataReceive m) s = .next ⟨s.dev.collReceive 1 m, s.pending⟩ := rfl
theorem exec_gatherDataReceive (m : CollMsg) (s : State) :
    exec (.gatherDataReceive m) s = .next ⟨s.dev.collReceive 2 m, s.pending⟩ := rfl
theorem exec_scalarReceive (m : CollMsg) (post : Bool) (vals : List (Nat × Scalars)) (s : State) :
    exec (.scalarReceive m post vals) s = .next ⟨s.dev.scalarReceive m post vals, s.pending⟩ := rfl
theorem exec_startReceive (m : CollMsg) (vals : List StartVal) (s : State) :
    exec (.startReceive m vals) s = .next ⟨s.dev.startReceive m vals, s.pending⟩ := rfl
theorem exec_startWaitTimeout (slot : Nat) (s : State) :
    exec (.startWaitTimeout slot) s = .next ⟨s.dev.startTimeout slot, s.pending⟩ := rfl
theorem exec_peerTimeout (slot level peer : Nat) (s : State) :
    exec (.peerTimeout slot level peer) s = .next ⟨s.dev.peerTimeout slot level peer, s.pending⟩ := rfl
theorem exec_abortReceive (m : AbortMsg) (s : State) :
    exec (.abortReceive m) s = .next ⟨s.dev.abortReceive m, s.pending⟩ := rfl

theorem active_of_runs {p : Plan} (h : p.runs = true) : p.state = .running ∨ p.state = .stopping := by
  simp only [Plan.runs, Bool.and_eq_true, Bool.or_eq_true, beq_iff_eq] at h
  exact h.1.1

theorem step_ne_next (w : W64) : w ≠ w + 1 := by bv_omega

/-! ### REDUCE and GATHER messages (R130, R131, R133) -/

/-- The ordinal of the stream that a message names. -/
def Plan.namedStream (p : Plan) (m : CollMsg) : Nat := p.cfg.streams.findIdx (fun x => x.num = m.stream)

theorem collReceive_noPlan {d : Dev} {m : CollMsg} (h : d.msgPlan m.version m.planId m.digest3 m.slice m.origin = none)
    (type : Nat) : d.collReceive type m = d.count itCollLost := by
  simp only [Dev.collReceive, h]

section Named

variable {d : Dev} {m : CollMsg} {slot : Nat} {p : Plan}
  (hm : d.msgPlan m.version m.planId m.digest3 m.slice m.origin = some slot) (hp : d.plan slot = some p)
  (hst : p.state = .running ∨ p.state = .stopping) (hstep : m.step = p.step ∨ m.step = p.step + 1)

include hst hstep

/-- A message of this step or the next that names a stream of the plan is not discarded. -/
theorem collMsg_kept (hk : p.namedStream m < p.cfg.streams.length) : ¬(p.namedStream m ≥ p.cfg.streams.length ∨
    (p.state ≠ .running ∧ p.state ≠ .stopping) ∨ (m.step ≠ p.step ∧ m.step ≠ p.step + 1)) := by
  rintro (h | ⟨h1, h2⟩ | ⟨h1, h2⟩)
  · omega
  · exact hst.elim h1 h2
  · exact hstep.elim h1 h2

include hm hp

/-- A message of the next step, or of a plan between steps, waits. -/
theorem collReceive_waits (hk : p.namedStream m < p.cfg.streams.length) (hw : m.step ≠ p.step ∨ p.runs = false) (type : Nat) :
    d.collReceive type m = d.modStream slot (p.namedStream m) (fun x => { x with early := x.early ++ [(type, m)] }) := by
  have hlater : m.step = p.step + 1 ∨ (!p.runs) = true :=
    hw.imp hstep.resolve_left (fun hidle => by simp [hidle])
  unfold Dev.collReceive
  simp only [hm, hp]
  exact (if_neg (collMsg_kept hst hstep hk)).trans (if_pos hlater)

/-- A message of the running step that its round waits for is taken, and the exchange runs on. -/
theorem collReceive_takes (hk : p.namedStream m < p.cfg.streams.length) (heq : m.step = p.step) (hr : p.runs = true)
    (hx : (p.stOf (p.namedStream m)).exchanging = true) {type : Nat} {d' : Dev}
    (ht : d.exTake slot (p.namedStream m) type m = some d') : d.collReceive type m = d'.exRun slot (p.namedStream m) exFuel := by
  have hnow : ¬(m.step = p.step + 1 ∨ (!p.runs) = true) := by
    rintro (h | h)
    · exact step_ne_next _ (heq.symm.trans h)
    · simp [hr] at h
  unfold Dev.collReceive
  simp only [hm, hp]
  refine (if_neg (collMsg_kept hst hstep hk)).trans ((if_neg hnow).trans ?_)
  unfold Plan.namedStream at hx ht ⊢
  rw [if_pos hx, ht]

/-! ### Scalar messages (R138) -/

/-- A scalar message joins what is kept for its step and level, and the exchange runs on. -/
theorem scalarReceive_named (post : Bool) (vals : List (Nat × Scalars)) : d.scalarReceive m post vals =
    (d.modPlan slot (fun q => { q with earlyS := q.earlyS ++ [(m.step, m.level, post, vals)] })).scalRun slot exFuel := by
  have hkept : ¬((p.state ≠ .running ∧ p.state ≠ .stopping) ∨ (m.step ≠ p.step ∧ m.step ≠ p.step + 1)) := by
    rintro (⟨h1, h2⟩ | ⟨h1, h2⟩)
    · exact hst.elim h1 h2
    · exact hstep.elim h1 h2
  unfold Dev.scalarReceive
  simp only [hm, hp]
  exact if_neg hkept

end Named

theorem scalarReceive_noPlan {d : Dev} {m : CollMsg} (h : d.msgPlan m.version m.planId m.digest3 m.slice m.origin = none)
    (post : Bool) (vals : List (Nat × Scalars)) : d.scalarReceive m post vals = d.count itCollLost := by
  simp only [Dev.scalarReceive, h]

/-- Without a scalar exchange in progress there is nothing to run. -/
theorem scalRun_idle {d : Dev} {slot : Nat} {p : Plan} (hp : d.plan slot = some p) (hs : p.scal = none) (fuel : Nat) :
    d.scalRun slot fuel = d := by
  cases fuel with
  | zero => rfl
  | succ fuel => simp only [Dev.scalRun, Dev.scalStep, hp, hs]

/-! ### The start exchange (R159) -/

/-- The plan that a START names: its sender is a plan peer; the digest is compared when the exchange ends. -/
def Dev.startPlan (d : Dev) (m : CollMsg) : Option Nat :=
  (d.mill.plans.find? (fun e => e.2.slice = m.slice && e.2.cfg.planId == m.planId && m.version == 0x0100 &&
    e.2.peers.contains m.origin)).map (·.1)

section Start

variable {d : Dev} {m : CollMsg} {slot : Nat} {p : Plan} (hm : d.startPlan m = some slot) (hp : d.plan slot = some p)

include hm hp

/-- Until the exchange has begun here the values are kept for it. -/
theorem startReceive_kept (hx : p.startX = none ∨ ∃ x, p.startX = some x ∧ x.sent = false) (vals : List StartVal) :
    d.startReceive m vals = d.modPlan slot (fun q => { q with earlyStart := addVals vals q.earlyStart }) := by
  unfold Dev.startPlan at hm
  rcases hx with hx | ⟨x, hx, hsent⟩
  · simp only [Dev.startReceive, hm, hp, hx]
  · simp only [Dev.startReceive, hm, hp, hx, hsent, Bool.false_eq_true, if_false]

theorem startReceive_joins {x : StartX} (hx : p.startX = some x) (hsent : x.sent = true) (vals : List StartVal) :
    d.startReceive m vals =
      (d.modPlan slot (fun q => { q with startX := some { x with vals := addVals x.vals vals } })).startRun slot exFuel := by
  unfold Dev.startPlan at hm
  simp only [Dev.startReceive, hm, hp, hx, hsent, if_true]

end Start

/-- The outcome of equal steps (Table 4.17). -/
theorem startOutcome_equal {own : W64} {vs : List StartVal} (h : ∀ v ∈ vs, v.step = own) :
    startOutcome own vs = some (own, if vs.any (·.begun) then .redo else .normal, false, false) := by
  have hall : vs.all (fun v => v.step == own) = true := List.all_eq_true.mpr fun v hv => beq_iff_eq.mpr (h v hv)
  unfold startOutcome
  exact if_pos hall

theorem startTimeout_eq {d : Dev} {slot : Nat} {p : Plan} (hp : d.plan slot = some p) {x : StartX} (hx : p.startX = some x) :
    d.startTimeout slot = (d.planFail slot 5 0 d.node 0).finish x.own stRefused 0x16 [] := by
  simp only [Dev.startTimeout, Dev.startFail, hp, hx, Option.isSome_some, if_true]
  rfl

/-! ### Peer time-outs and ABORTs (R155 to R157) -/

theorem peerTimeout_awaited {d : Dev} {slot level peer : Nat} {p : Plan} (hp : d.plan slot = some p) (hr : p.runs = true)
    (hl : 1 ≤ level) (hw : peer ∈ p.awaited (level - 1)) :
    d.peerTimeout slot level peer = (d.sendAborts slot peer 1).planFail slot 1 peer d.node level := by
  simp only [Dev.peerTimeout, Dev.declare, hp, if_pos (And.intro hr (And.intro hl hw)), if_pos (active_of_runs hr)]

theorem peerTimeout_not_awaited {d : Dev} {slot level peer : Nat} {p : Plan} (hp : d.plan slot = some p)
    (h : p.runs = false ∨ level = 0 ∨ peer ∉ p.awaited (level - 1)) : d.peerTimeout slot level peer = d := by
  have hno : ¬(p.runs = true ∧ 1 ≤ level ∧ peer ∈ p.awaited (level - 1)) := by
    rintro ⟨hr, hl, hw⟩
    rcases h with h | h | h
    · simp [hr] at h
    · omega
    · exact h hw
  simp only [Dev.peerTimeout, hp, if_neg hno]

/-- The device after an ABORT of a running plan, before the completion of its start. -/
theorem abortReceive_mill {d : Dev} {m : AbortMsg} {slot : Nat} {p : Plan}
    (hm : d.msgPlan m.version m.planId m.digest3 m.slice m.origin = some slot) (hp : d.plan slot = some p)
    (hst : p.state = .running ∨ p.state = .stopping) :
    (d.abortReceive m).mill = ((d.sendAborts slot m.failed m.reason).planFail slot 3 m.failed m.origin 0).mill := by
  simp only [Dev.abortReceive, hm, hp, if_pos hst]
  cases p.startX with
  | none => rfl
  | some x => exact finish_mill _ _ _ _ _

/-- A second ABORT only counts in the report. -/
theorem abortReceive_failed {d : Dev} {m : AbortMsg} {slot : Nat} {p : Plan}
    (hm : d.msgPlan m.version m.planId m.digest3 m.slice m.origin = some slot) (hp : d.plan slot = some p) (hf : p.state = .failed) :
    d.abortReceive m = (d.count itCollLost).modPlan slot (fun q =>
      { q with fail := q.fail.map (fun f => { f with aborts := satAdd 32 f.aborts 1 }) }) := by
  have hno : ¬(p.state = .running ∨ p.state = .stopping) := by simp [hf]
  simp only [Dev.abortReceive, hm, hp, if_neg hno]

/-- Settles O23: messages are lost, kept or taken by the plan and the step that they name, and every failure of a plan goes
through `planFail`. -/
theorem collectiveMessagesAndFailures : Obligations.CollectiveMessagesAndFailures := by
  refine ⟨fun s m hm => ⟨?_, ?_, fun post vals => ?_⟩, ?messages, ?start, fun own vs _ h => startOutcome_equal h, ?startTimeout,
    ?peerTimeout, ?abort⟩
  · rw [exec_reduceDataReceive, collReceive_noPlan hm]
  · rw [exec_gatherDataReceive, collReceive_noPlan hm]
  · rw [exec_scalarReceive, scalarReceive_noPlan hm]
  case messages =>
    intro s m slot p hm hp hst hstep
    refine ⟨fun hk hw => ⟨?_, ?_⟩, fun hk heq hr hx d' => ⟨fun ht => ?_, fun ht => ?_⟩, fun post vals => ?_, fun post vals hs => ?_⟩
    · rw [exec_reduceDataReceive, collReceive_waits hm hp hst hstep hk hw]; rfl
    · rw [exec_gatherDataReceive, collReceive_waits hm hp hst hstep hk hw]; rfl
    · rw [exec_reduceDataReceive, collReceive_takes hm hp hst hstep hk heq hr hx ht]; rfl
    · rw [exec_gatherDataReceive, collReceive_takes hm hp hst hstep hk heq hr hx ht]; rfl
    · rw [exec_scalarReceive, scalarReceive_named hm hp hst hstep]
    · rw [exec_scalarReceive, scalarReceive_named hm hp hst hstep, scalRun_idle ((plan_modPlan_same _ _ _).trans (congrArg _ hp)) hs]
  case start =>
    intro s m vals slot p hm hp
    refine ⟨fun hx => ?_, fun x hx hsent => ?_⟩
    · rw [exec_startReceive, startReceive_kept hm hp hx]
    · rw [exec_startReceive, startReceive_joins hm hp hx hsent]
  case startTimeout =>
    intro s slot p hp x hx
    refine ⟨_, _, _, ?_, planFail_plan hp 5 0 s.dev.node 0, rfl, rfl, rfl, fun n hn => planFail_plan_other hp hn _ _ _ _⟩
    rw [exec_startWaitTimeout, startTimeout_eq hp hx]
  case peerTimeout =>
    intro s slot level peer p hp
    refine ⟨fun hr hl hw => ?_, fun h => ?_⟩
    · have hexec := exec_peerTimeout slot level peer s
      rw [peerTimeout_awaited hp hr hl hw] at hexec
      obtain ⟨q, f, hq, hstate, hfail, hreason, hnode, horigin, hlevel, hstep, hother⟩ :=
        sendAborts_planFail hp peer 1 1 s.dev.node level
      exact ⟨_, q, f, hexec, rfl, hq, hstate, hfail, hreason, hnode, horigin, hlevel, hstep, hother⟩
    · rw [exec_peerTimeout, peerTimeout_not_awaited hp h]
  case abort =>
    intro s m slot p hm hp
    refine ⟨fun hst => ?_, fun hf => ?_⟩
    · obtain ⟨q, f, hq, hstate, hfail, hreason, hnode, horigin, -, hstep, hother⟩ :=
        sendAborts_planFail hp m.failed m.reason 3 m.origin 0
      have hsame := plan_congr (abortReceive_mill hm hp hst)
      exact ⟨_, q, f, exec_abortReceive m s, rfl, (hsame slot).trans hq, hstate, hfail, hreason, hnode, horigin, hstep,
        fun n hn => (hsame n).trans (hother n hn)⟩
    · rw [exec_abortReceive, abortReceive_failed hm hp hf]

end Sys2Proof.Machine
end

section
/-! SUPPORT. Messages of the embedding service between the owners of rows, and O25 (04_collectives R149, R151, R153). -/

namespace Sys2Proof.Machine

open Sys2Proof

/-! ### The commands -/

theorem exec_embReqReceive (m : CollMsg) (x : EmbPart) (s : State) :
    exec (.embReqReceive m x) s = .next ⟨s.dev.embReqReceive m x, s.pending⟩ := rfl
theorem exec_embRespReceive (m : CollMsg) (x : EmbPart) (s : State) :
    exec (.embRespReceive m x) s = .next ⟨s.dev.embRespReceive m x, s.pending⟩ := rfl
theorem exec_embUpdReceive (m : CollMsg) (x : EmbPart) (s : State) :
    exec (.embUpdReceive m x) s = .next ⟨s.dev.embUpdReceive m x, s.pending⟩ := rfl

/-! ### A message that names no plan -/

section NoPlan

variable {d : Dev} {m : CollMsg} (h : d.msgPlan m.version m.planId m.digest3 m.slice m.origin = none)

include h

theorem embReqReceive_noPlan (x : EmbPart) : d.embReqReceive m x = d.count itCollLost := by
  simp only [Dev.embReqReceive, h]

theorem embRespReceive_noPlan (x : EmbPart) : d.embRespReceive m x = d.count itCollLost := by
  simp only [Dev.embRespReceive, h]

theorem embUpdReceive_noPlan (x : EmbPart) : d.embUpdReceive m x = d.count itCollLost := by
  simp only [Dev.embUpdReceive, h]

end NoPlan

/-! ### A message for a plan that has not failed, and a table of it -/

/-- The rows that an update or a load of an owner names, with their vectors. -/
def embUpdates (x : EmbPart) : List (Nat × List Nat) := (x.rows.flatten.map (·.2)).zip (x.vals.map (·.map (·.toNat)))

/-- The answer of an owner that has applied an update or a load. -/
def embApplied (x : EmbPart) : EmbPart := { x with vals := [], weights := [] }

section Named

variable {d : Dev} {m : CollMsg} {x : EmbPart} {slot : Nat} {p : Plan} {t : EmbTab}
  (hm : d.msgPlan m.version m.planId m.digest3 m.slice m.origin = some slot) (hp : d.plan slot = some p)
  (hst : p.state ≠ .failed) (ht : p.embTab x.table = some t)

include hm hp hst ht

/-- A request for rows of this device is answered with what it pools of them. -/
theorem embReqReceive_own (hown : x.rows.flatten.all (fun y => y.2 < t.rows && t.rankOf y.2 = p.rank) = true) :
    d.embReqReceive m x = (d.sendEmb p t m.origin 7 (p.embAnswer t (d.rowBad p t) x (p.embWire t)).1).addEvents slot
      (p.embAnswer t (d.rowBad p t) x (p.embWire t)).2 := by
  have hkept : ¬(p.state = .failed ∨ (!x.rows.flatten.all (fun y => y.2 < t.rows && t.rankOf y.2 = p.rank)) = true) := by
    rw [hown]; simp [hst]
  simp only [Dev.embReqReceive, hm, hp, ht, if_neg hkept]

/-- An update or a load of rows of this device takes effect on them, and is answered. -/
theorem embUpdReceive_own (hown : (embUpdates x).all (fun y => y.1 < t.rows && t.rankOf y.1 = p.rank) = true) : d.embUpdReceive m x =
    (if x.op = 3 then d.loadRows slot t (p.embWire t) (embUpdates x)
      else d.applyRows slot t (embUpdates x)).sendEmb p t m.origin 7 (embApplied x) := by
  have hkept : ¬(p.state = .failed ∨ (!(embUpdates x).all (fun y => y.1 < t.rows && t.rankOf y.1 = p.rank)) = true) := by
    rw [hown]; simp [hst]
  unfold Dev.embUpdReceive
  simp only [hm, hp, ht]
  exact if_neg hkept

end Named

/-- Only UPDATE and LOAD change rows of this device when the last owner has answered. -/
theorem embLocal_reads {op : Nat} (h : op = 1 ∨ op = 4) (d : Dev) (slot : Nat) (t : EmbTab) (e : EmbDesc) :
    d.embLocal slot t op e = d := by
  unfold Dev.embLocal
  rcases h with rfl | rfl <;> split <;> rfl

/-- An answer that a job waits for is taken off the job. Nothing else follows while other owners have not answered, nor for a
LOOKUP or READ. -/
theorem embRespReceive_awaited {d : Dev} {m : CollMsg} {x : EmbPart} {slot : Nat} {p : Plan} {t : EmbTab} {j : EmbJob}
    (hm : d.msgPlan m.version m.planId m.digest3 m.slice m.origin = some slot) (hp : d.plan slot = some p)
    (hst : p.state ≠ .failed) (ht : p.embTab x.table = some t)
    (hj : p.jobs.find? (fun j => j.acc = x.acc && j.desc.tag == x.tag && !j.waiting.isEmpty) = some j) {rank : Nat}
    (hrank : rank = p.cfg.sched.peers.findIdx (fun n => n = m.origin)) (hw : rank ∈ j.waiting)
    (hop : j.op = 1 ∨ j.op = 4 ∨ j.waiting.filter (fun r => r != rank) ≠ []) :
    d.embRespReceive m x = d.modJob slot x.acc x.tag (fun y => { y with
      waiting := j.waiting.filter (fun r => r != rank)
      parts := y.parts.filter (fun z => z.1 < rank) ++ (rank, x) :: y.parts.filter (fun z => z.1 > rank) }) := by
  subst hrank
  have hkept : ¬(p.state = .failed ∨ (!j.waiting.contains (p.cfg.sched.peers.findIdx (fun n => n = m.origin))) = true) := by
    simp [hst, hw]
  simp only [Dev.embRespReceive, hm, hp, hj, ht, if_neg hkept]
  rcases hop with hop | hop | hrest
  · rw [embLocal_reads (.inl hop), ite_self]
  · rw [embLocal_reads (.inr hop), ite_self]
  · rw [if_neg (by simpa [List.isEmpty_iff] using hrest)]

/-- Settles O25: each message acts by its plan, its table and the rows or the job that it names. -/
theorem embeddingMessagesBetweenOwners : Obligations.EmbeddingMessagesBetweenOwners := by
  refine ⟨fun s m x hm => ⟨?_, ?_, ?_⟩, fun s m x slot p t hm hp hst ht => ⟨fun hown => ?request, fun hown => ⟨fun hop => ?load,
    fun hop => ?update⟩, fun j hj hw hop => ?response⟩⟩
  · rw [exec_embReqReceive, embReqReceive_noPlan hm]
  · rw [exec_embRespReceive, embRespReceive_noPlan hm]
  · rw [exec_embUpdReceive, embUpdReceive_noPlan hm]
  case request => rw [exec_embReqReceive, embReqReceive_own hm hp hst ht hown]
  case load => rw [exec_embUpdReceive, embUpdReceive_own hm hp hst ht hown, if_pos hop]; rfl
  case update => rw [exec_embUpdReceive, embUpdReceive_own hm hp hst ht hown, if_neg hop]; rfl
  case response => rw [exec_embRespReceive, embRespReceive_awaited hm hp hst ht hj rfl hw hop]

end Sys2Proof.Machine
end

section
/-! SUPPORT. The counterexample of O22: the end of a scalar exchange signals counters, and a signal on a die whose stamps are
withheld leaves a stamping request in Ring (01_package_and_time R40; 11_kerf_cores R345; Table 4.15). -/

namespace Sys2Proof.Machine

open Sys2Proof

/-- A plan image of one node and no streams that skips steps with non-finite values, and binds counter 3 of its logical core
0 to the end of the scalar exchanges (role 4). -/
def signalledCfg : PlanCfg :=
  { planId := 7, allowSpill := false, signed := false, seed := 0, step0 := 0, sramBytes := 0, lpddrBytes := 0, spillable := 0,
    xgroup := 0, garrays := 0, seq := 1, share := 1, contrib := 1, streams := [], xforms := [],
    sched := { levels := [], skipNonfinite := true, peerTimeout := 1, startWait := 1, peers := [0], regions := [], readyReg := 0, clip := 0 },
    opts := [], embQ := [], embT := [], syncs := [{ lcore := 0, counter := 3, role := 4, level := 0, arg := 0, target := 0 }],
    progs := [], skipped := 0 }

/-- The plan of that image in its step, its logical core 0 on the first sequencer core, which stands on Mill 0. -/
def signalledPlan : Plan := { signalledCfg.plan 0 0 0 [] [] [] [] [] [0x80] 0 [] [] with state := .running, armed := true }

/-- A device with that plan in slot 4, where the stamps of Mill 0 (replica 1) are withheld. -/
def withheldState : State :=
  ⟨{ Dev.init with
    ring := { Dev.init.ring with withheld := [1] }
    mill := { Dev.init.mill with plans := [(4, signalledPlan)] } }, []⟩

theorem exec_scalarPreStart (slot : Nat) (s : State) :
    exec (.scalarPreStart slot) s = .next ⟨s.dev.scalarPre slot, s.pending⟩ := rfl

/-- The end of SCALAR_PRE leaves a stamping request of counter 3 of the sequencer core in Ring. -/
theorem scalarPre_owes_stamp : (withheldState.dev.scalarPre 4).ring.owed = [(0x80, 3)] := by decide

/-- Refutes O22: SCALAR_PRE of a plan without levels may change Ring beside the Mill, Tally and the cores. Its end signals the
counters that SYNC binds to it, and while the stamps of their die are withheld (R40) the request for the stamp is held. -/
theorem not_scalarsUpdatesAndGather : ¬ Obligations.ScalarsUpdatesAndGather := by
  rintro ⟨hscalars, -⟩
  obtain ⟨hpre, -⟩ := hscalars withheldState 4 signalledPlan rfl (by decide) rfl
  obtain ⟨t, q, hexec, -, -, -, -, -, -, hframe⟩ := hpre (by decide) (by decide) rfl rfl rfl
  rw [exec_scalarPreStart] at hexec
  have howed : t.dev.ring.owed = withheldState.dev.ring.owed := by rw [hframe]
  have hsent := scalarPre_owes_stamp
  rw [← Host.Outcome.next.inj hexec] at howed
  exact absurd (hsent.symm.trans howed) (by decide)

end Sys2Proof.Machine
end

section
/-! SUPPORT. The counterexample of O24: a table of plans that lists one slot twice, on which the fetch of a descriptor moves the
rings of each entry from where they stood, and not to those of the first entry (04_collectives R147). -/

namespace Sys2Proof.Machine

open Sys2Proof

/-- A plan image of one node with an embedding queue of depth 64 for accelerator 0 and nothing else. -/
def queueCfg : PlanCfg :=
  { planId := 7, allowSpill := false, signed := false, seed := 0, step0 := 0, sramBytes := 0, lpddrBytes := 0, spillable := 0,
    xgroup := 0, garrays := 0, seq := 0, share := 1, contrib := 1, streams := [], xforms := [],
    sched := { levels := [], skipNonfinite := false, peerTimeout := 1, startWait := 1, peers := [0], regions := [], readyReg := 0, clip := 0 },
    opts := [], embQ := [{ ringReg := 0, cqReg := 0, depth := 64, ringOff := 0, cqOff := 0 }], embT := [], syncs := [], progs := [],
    skipped := 0 }

/-- The plan of that image, FAILED, with its rings. -/
def queuePlan (rings : Tbl EmbRing) : Plan :=
  { queueCfg.plan 0 0 0 [] [] [] [] [] [] 0 [] [] with state := .failed, rings := rings }

/-- A device with an active slice 0 whose table of plans lists slot 4 twice: first with a posted descriptor on the ring of
accelerator 0, then with a ring of accelerator 1. -/
def twiceListedState : State :=
  ⟨{ Dev.init with
    slices := [(0, { Slice.init with state := .active })]
    mill := { Dev.init.mill with plans := [(4, queuePlan [(0, ⟨1, 0, 0⟩)]), (4, queuePlan [(1, ⟨0, 0, 0⟩)])] } }, []⟩

/-- A LOOKUP of one bag of one row. -/
def oneRowLookup : EmbDesc :=
  { op := 1, pool := 0, table := 9, bags := 1, fmt := 1, argmax := false, tag := 0x55, offsets := [0, 1], indices := [3], weights := [],
    data := [], argmaxIn := [], offsetsAddr := 0x1000, indexAddr := 0x1100, weightsAddr := 0, dataAddr := 0x2000, argmaxAddr := 0,
    reservedOk := true }

/-- The rings of the plans of a device, in the order of its table. -/
def Dev.allRings (d : Dev) : List (Tbl EmbRing) := d.mill.plans.map (fun e => e.2.rings)

theorem exec_embLookup (slot acc : Nat) (e : EmbDesc) (s : State) :
    exec (.embLookup slot acc e) s = .next ⟨s.dev.embRun 1 slot acc e, s.pending⟩ := rfl

/-- The fetch puts the ring of accelerator 0 before the ring that the second entry has, and keeps that one. -/
theorem embRun_allRings : (twiceListedState.dev.embRun 1 4 0 oneRowLookup).allRings =
    [[(0, ⟨1, 1, 0⟩)], [(0, ⟨1, 1, 0⟩), (1, ⟨0, 0, 0⟩)]] := by decide

/-- Refutes O24: it gives the plans after the fetch of a descriptor as one update by the rings of the plan that the slot reads
as, over every table of plans. On a table that lists the slot twice the second entry does not get those rings: exec advances
each entry's own. -/
theorem not_embeddingDescriptorsRun : ¬ Obligations.EmbeddingDescriptorsRun := by
  rintro ⟨-, -, -, hfetch, -⟩
  obtain ⟨-, hactive⟩ := hfetch twiceListedState 4 0 oneRowLookup (queuePlan [(0, ⟨1, 0, 0⟩)])
    { ringReg := 0, cqReg := 0, depth := 64, ringOff := 0, cqOff := 0 } rfl rfl (by decide) (by decide) rfl
  obtain ⟨hfailed, -⟩ := hactive (by decide) (by decide)
  have hexec := hfailed rfl
  rw [exec_embLookup] at hexec
  have hrings := congrArg (fun t : State => t.dev.allRings) (Host.Outcome.next.inj hexec)
  exact absurd (embRun_allRings.symm.trans hrings) (by decide)

end Sys2Proof.Machine
end
